-- ==== Sys2Proof/Word.lean ====
section
/-! DEFINITION. The word types of the L9 and the small names every file shares: lanes, slots, tiers, scopes. -/
namespace Sys2Proof

/-- One byte. -/
abbrev Byte := BitVec 8

/-- A 32-bit value: one lane of a V register (R27), or a set of lanes, bit l standing for lane l. -/
abbrev Word := BitVec 32

/-- A set of lanes of one group, bit l standing for lane l (R8: a group is 32 lanes). -/
abbrev Mask := BitVec 32

/-- A 64-bit value: an S register, a K register, a V pair (R27, R30, R33). -/
abbrev DWord := BitVec 64

/-- The 40-bit count of instruction units that a PC is (R44). -/
abbrev Pc := BitVec 40

/-- One instruction: 96 bits (R41). -/
abbrev Code := BitVec 96

/-- The 32 lane numbers in ascending order. -/
def laneList : List Nat := List.range 32

/-- The two program-counter slots of a group (R8). -/
inductive SlotName where
  | a
  | b
  deriving DecidableEq, Repr

/-- The other slot of the group (R86). -/
def SlotName.other : SlotName → SlotName
  | .a => .b
  | .b => .a

/-- The four tiers of translation, in the order a request passes them (R8, R10). -/
inductive Tier where
  | core
  | die
  | port
  | remote
  deriving DecidableEq, Repr

/-- The tier's number, 0 to 3 (R8). -/
def Tier.num : Tier → Nat
  | .core => 0
  | .die => 1
  | .port => 2
  | .remote => 3

/-- The six path counters of a group (R17, R38). -/
inductive Path where
  | ld
  | st
  | sp
  | atom
  | mx
  | mc
  deriving DecidableEq, Repr

/-- The path a WAITC names by its EB field (R186). -/
def Path.ofCode : Nat → Option Path
  | 0 => some .ld
  | 1 => some .st
  | 2 => some .sp
  | 3 => some .atom
  | 4 => some .mx
  | 5 => some .mc
  | _ => none

/-- A crossbar switch that combines (R156, R308): one per octet, one central per die. -/
inductive Switch where
  | octet (d o : Nat)
  | central (d : Nat)
  deriving DecidableEq, Repr

/-- A sparse store of words: (number, value) pairs, numbers rising, unlisted numbers zero. -/
abbrev Sparse (w : Nat) := List (Nat × BitVec w)

end Sys2Proof
end

