-- ==== Sys2Proof/Syntax.lean ====
section
/-! DEFINITION. The L9's instructions and events as a reader of the manual names them: one record of fields per
instruction form (R48 to R56), and ONE inductive with a constructor for every row of the opcode table. An instruction
carries the fields of its form; an event or a host's command, which has no encoding, names its operands in its docstring:
the move that brings it about lays them in State.args, in that order. -/
namespace Sys2Proof

/-- The common fields of every instruction but its opcode and function code (R48): switch marker, guard, negation. -/
structure Common where
  sw : Bool
  pg : BitVec 3
  pn : Bool
  deriving DecidableEq, Repr

/-- The VR form, vector register (R50). -/
structure VR extends Common where
  d : BitVec 9
  a : BitVec 9
  b : BitVec 9
  c : BitVec 9
  u : BitVec 8
  t : BitVec 5
  rm : BitVec 3
  sat : Bool
  na : Bool
  nb : Bool
  nc : Bool
  aa : Bool
  ab : Bool
  bu : Bool
  cu : Bool
  ru : Bool
  pd : BitVec 3
  deriving DecidableEq, Repr

/-- The VI form, vector immediate (R51). -/
structure VI extends Common where
  d : BitVec 9
  a : BitVec 9
  t : BitVec 5
  rm : BitVec 3
  sat : Bool
  imm : Word
  deriving DecidableEq, Repr

/-- The SR form, uniform (R52). -/
structure SR extends Common where
  sd : BitVec 8
  sa : BitVec 8
  sb : BitVec 8
  sc : BitVec 8
  qd : BitVec 3
  t : BitVec 5
  imm : Word
  deriving DecidableEq, Repr

/-- The M form, memory (R53). -/
structure MF extends Common where
  d : BitVec 9
  a : BitVec 9
  c : BitVec 9
  u : BitVec 8
  sz : BitVec 3
  ord : BitVec 3
  scp : BitVec 3
  ch : BitVec 2
  ow : Bool
  spc : BitVec 2
  peer : BitVec 2
  disp : BitVec 18
  deriving DecidableEq, Repr

/-- The B form, branch (R54). -/
structure BF extends Common where
  uq : Bool
  a : BitVec 9
  off : BitVec 24
  joff : BitVec 24
  deriving DecidableEq, Repr

/-- The MX form, matrix (R55). -/
structure MX extends Common where
  acc : BitVec 4
  a : BitVec 9
  u : BitVec 8
  t : BitVec 5
  ks : BitVec 4
  pair : Bool
  ru : Bool
  za : Bool
  deriving DecidableEq, Repr

/-- The E form, engine, synchronisation and system (R56). -/
structure EF extends Common where
  d : BitVec 9
  a : BitVec 9
  b : BitVec 9
  ea : BitVec 9
  u : BitVec 8
  eb : BitVec 3
  imm : Word
  deriving DecidableEq, Repr

/-- Every step the opcode table lists: the Verric instructions, then the device's events and its hosts' commands. -/
inductive Instr where
  /-- Does nothing. With SW = 1 it acts as a pure wait point (R61). -/
  | nop (f : EF)
  /-- Retires the participating lanes, and runs Arrive when the slot's mask becomes empty (R88). -/
  | exit (f : EF)
  /-- Retires every lane of the group at once and discards its spill entries and return stacks (R88). -/
  | kill (f : EF)
  /-- Raises a TRAP cause, with IMM32 as fault detail, when at least one lane participates (R95). -/
  | trap (f : EF)
  /-- Leaves trap mode, restoring mask, FMT and Q registers, and resumes at S180 (R99). -/
  | eret (f : EF)
  /-- Raises a BREAK cause, with IMM32 as fault detail, when at least one lane participates (R95). -/
  | brk (f : EF)
  /-- Parks the issuing slot for at least IMM32 ac; it is a pre-emption point (R93). -/
  | sleep (f : EF)
  /-- Raises the logical count and writes a 32-byte record to the context's trace ring (R94). -/
  | pmark (f : EF)
  /-- Branches unconditionally, or on a uniform guard, to pc + OFF (R83). -/
  | bra (f : BF)
  /-- Conditional lane branch that splits taken and fall-through lanes with a join (R83). -/
  | brc (f : BF)
  /-- Indexed branch through a target table; it peels one target per execution (R84). -/
  | brx (f : BF)
  /-- Pushes pc + 1 on the slot's return stack and branches (R85). -/
  | call (f : BF)
  /-- Indexed call through a target table; it pushes the return PC for the taken lanes (R84). -/
  | callx (f : BF)
  /-- Pops the return stack into the PC (R85). -/
  | ret (f : BF)
  /-- Decrements a uniform counter and branches while it stays nonzero (R83). -/
  | loops (f : BF)
  /-- Sets Pd in the lowest participating lane only (R90). -/
  | elect (f : VR)
  /-- Writes to Pd the OR over participating lanes of Pa (R90). -/
  | voteOr (f : VR)
  /-- Writes to Pd the AND over participating lanes of Pa (R90). -/
  | voteAnd (f : VR)
  /-- Writes the lane mask of Pa into Vd (R90). -/
  | voteMask (f : VR)
  /-- Sets Pd when every participating lane holds the same value of A (R90). -/
  | voteSame (f : VR)
  /-- Writes the count of lower participating lanes with Pa true (R90). -/
  | voteRank (f : VR)
  /-- Reads a special register into a V register (FN 0) (R91). -/
  | rdsrV (f : EF)
  /-- Reads a special register into an S register (FN 1) (R91). -/
  | rdsrS (f : EF)
  /-- Writes an S register to a writable special register (R91). -/
  | wrsr (f : EF)
  /-- Writes IMM32 to the issuing slot's FMT (R92). -/
  | fmtset (f : EF)
  /-- Writes the slot's FMT to an S register (R92). -/
  | fmtget (f : EF)
  /-- Makes the slot the youngest for issue selection; it is a pre-emption point (R93). -/
  | yield (f : EF)
  /-- Uniform add, register form (R103). -/
  | sadd (f : SR)
  /-- Uniform add, immediate form (R103). -/
  | saddImm (f : SR)
  /-- Uniform subtract, register form (R103). -/
  | ssub (f : SR)
  /-- Uniform subtract, immediate form (R103). -/
  | ssubImm (f : SR)
  /-- Uniform multiply, low bits, register form (R103). -/
  | smul (f : SR)
  /-- Uniform multiply, low bits, immediate form (R103). -/
  | smulImm (f : SR)
  /-- Uniform multiply, high 64 bits, register form (R103). -/
  | smulh (f : SR)
  /-- Uniform multiply, high 64 bits, immediate form (R103). -/
  | smulhImm (f : SR)
  /-- Uniform divide, register form (R65). -/
  | sdiv (f : SR)
  /-- Uniform divide, immediate form (R65). -/
  | sdivImm (f : SR)
  /-- Uniform remainder, register form (R65). -/
  | srem (f : SR)
  /-- Uniform remainder, immediate form (R65). -/
  | sremImm (f : SR)
  /-- Uniform bitwise AND, register form (R103). -/
  | sand (f : SR)
  /-- Uniform bitwise AND, immediate form (R103). -/
  | sandImm (f : SR)
  /-- Uniform bitwise OR, register form (R103). -/
  | sor (f : SR)
  /-- Uniform bitwise OR, immediate form (R103). -/
  | sorImm (f : SR)
  /-- Uniform bitwise XOR, register form (R103). -/
  | sxor (f : SR)
  /-- Uniform bitwise XOR, immediate form (R103). -/
  | sxorImm (f : SR)
  /-- Uniform shift left, register form (R105). -/
  | sshl (f : SR)
  /-- Uniform shift left, immediate form (R105). -/
  | sshlImm (f : SR)
  /-- Uniform logical shift right, register form (R105). -/
  | sshr (f : SR)
  /-- Uniform logical shift right, immediate form (R105). -/
  | sshrImm (f : SR)
  /-- Uniform arithmetic shift right, register form (R105). -/
  | ssra (f : SR)
  /-- Uniform arithmetic shift right, immediate form (R105). -/
  | ssraImm (f : SR)
  /-- Uniform minimum, register form (R103). -/
  | smin (f : SR)
  /-- Uniform minimum, immediate form (R103). -/
  | sminImm (f : SR)
  /-- Uniform maximum, register form (R103). -/
  | smax (f : SR)
  /-- Uniform maximum, immediate form (R103). -/
  | smaxImm (f : SR)
  /-- Uniform compare into a Q register, register form (R114). -/
  | scmp (f : SR)
  /-- Uniform compare into a Q register, immediate form (R114). -/
  | scmpImm (f : SR)
  /-- Uniform select on a Q register, register form (R103). -/
  | ssel (f : SR)
  /-- Uniform select on a Q register, immediate form (R103). -/
  | sselImm (f : SR)
  /-- Copies one S register to another (R103). -/
  | smov (f : SR)
  /-- Loads an extended IMM32 into an S register (R103). -/
  | smovi (f : SR)
  /-- Uniform bit-field extract (R116). -/
  | sbfx (f : SR)
  /-- Uniform bit-field insert (R116). -/
  | sbfi (f : SR)
  /-- Uniform count of ones (R103). -/
  | spopc (f : SR)
  /-- Uniform count of leading zeros (R103). -/
  | sclz (f : SR)
  /-- Writes a checked S value into a K register (R107). -/
  | kset (f : SR)
  /-- Copies a K register into an S register (R107). -/
  | kget (f : SR)
  /-- Pushes a label onto a label stack, reporting a full stack in Qd (R107). -/
  | kpush (f : SR)
  /-- Pops the top label of a label stack, reporting an empty stack in Qd (R107). -/
  | kpop (f : SR)
  /-- Replaces the top label of a label stack (R107). -/
  | kswap (f : SR)
  /-- Writes the DEPTH of a K register to an S register (R107). -/
  | kdepth (f : SR)
  /-- Vector integer add, VR form (R109). -/
  | iadd (f : VR)
  /-- Vector integer add, VI form (R109). -/
  | iaddImm (f : VI)
  /-- Vector integer subtract, VR form (R109). -/
  | isub (f : VR)
  /-- Vector integer subtract, VI form (R109). -/
  | isubImm (f : VI)
  /-- Vector integer multiply, VR form (R109). -/
  | imul (f : VR)
  /-- Vector integer multiply, VI form (R109). -/
  | imulImm (f : VI)
  /-- Vector multiply, high half (R109). -/
  | imulh (f : VR)
  /-- Vector multiply-add (R109). -/
  | imad (f : VR)
  /-- Widening 32x32 multiply plus 64-bit addend (R110). -/
  | imadw (f : VR)
  /-- z32 add with carry in and carry out through predicates (R110). -/
  | iaddc (f : VR)
  /-- Vector shift left, VR form (R111). -/
  | ishl (f : VR)
  /-- Vector shift left, VI form (R111). -/
  | ishlImm (f : VI)
  /-- Vector logical shift right, VR form (R111). -/
  | ishr (f : VR)
  /-- Vector logical shift right, VI form (R111). -/
  | ishrImm (f : VI)
  /-- Vector arithmetic shift right, VR form (R111). -/
  | isra (f : VR)
  /-- Vector arithmetic shift right, VI form (R111). -/
  | israImm (f : VI)
  /-- Funnel shift of two words (R111). -/
  | ishf (f : VR)
  /-- Vector bitwise AND, VR form (R108). -/
  | iand (f : VR)
  /-- Vector bitwise AND, VI form (R108). -/
  | iandImm (f : VI)
  /-- Vector bitwise OR, VR form (R108). -/
  | ior (f : VR)
  /-- Vector bitwise OR, VI form (R108). -/
  | iorImm (f : VI)
  /-- Vector bitwise XOR, VR form (R108). -/
  | ixor (f : VR)
  /-- Vector bitwise XOR, VI form (R108). -/
  | ixorImm (f : VI)
  /-- Three-input logic operation by truth table (R112). -/
  | ilop3 (f : VR)
  /-- Vector minimum, VR form (R109). -/
  | imin (f : VR)
  /-- Vector minimum, VI form (R109). -/
  | iminImm (f : VI)
  /-- Vector maximum, VR form (R109). -/
  | imax (f : VR)
  /-- Vector maximum, VI form (R109). -/
  | imaxImm (f : VI)
  /-- Vector absolute value (R109). -/
  | iabs (f : VR)
  /-- Vector compare into a predicate (R114). -/
  | icmp (f : VR)
  /-- Per-lane select on a predicate (R115). -/
  | isel (f : VR)
  /-- Per-lane count of ones (R113). -/
  | ipopc (f : VR)
  /-- Per-lane count of leading zeros (R113). -/
  | iclz (f : VR)
  /-- Per-lane bit reversal (R113). -/
  | ibrev (f : VR)
  /-- Vector bit-field extract (R116). -/
  | ibfx (f : VR)
  /-- Vector bit-field insert (R116). -/
  | ibfi (f : VR)
  /-- Four-element 8-bit dot product with addend (R117). -/
  | idot4 (f : VR)
  /-- Copies a register, a pair or a quad (R118). -/
  | mov (f : VR)
  /-- Broadcasts an S register to the participating lanes (R118). -/
  | movs (f : VR)
  /-- Byte permute with selectors (R117). -/
  | prmt (f : VR)
  /-- Builds a 48-bit offset pair from a base and a shifted index (R119). -/
  | lea (f : VR)
  /-- Loads IMM32 into the participating lanes (R118). -/
  | movi (f : VI)
  /-- Broadcasts one lane's value to the participating lanes (R121). -/
  | rdlane (f : VR)
  /-- Shuffle by index within segments (R121). -/
  | shflIdx (f : VR)
  /-- Shuffle by rotation within segments (R121). -/
  | shflRot (f : VR)
  /-- Shuffle by signed shift within segments (R121). -/
  | shflShift (f : VR)
  /-- Shuffle by XOR of the lane number (R121). -/
  | shflXor (f : VR)
  /-- Cross-cluster register exchange with a named partner group; parks until match or absence (R122). -/
  | xch (f : VR)
  /-- Floating-point add, VR form (R128). -/
  | fadd (f : VR)
  /-- Floating-point add, VI form (R128). -/
  | faddImm (f : VI)
  /-- Floating-point subtract, VR form (R128). -/
  | fsub (f : VR)
  /-- Floating-point subtract, VI form (R128). -/
  | fsubImm (f : VI)
  /-- Floating-point multiply, VR form (R128). -/
  | fmul (f : VR)
  /-- Floating-point multiply, VI form (R128). -/
  | fmulImm (f : VI)
  /-- Fused multiply-add with a single rounding (R128). -/
  | ffma (f : VR)
  /-- Floating-point minimum, VR form (R129). -/
  | fmin (f : VR)
  /-- Floating-point minimum, VI form (R129). -/
  | fminImm (f : VI)
  /-- Floating-point maximum, VR form (R129). -/
  | fmax (f : VR)
  /-- Floating-point maximum, VI form (R129). -/
  | fmaxImm (f : VI)
  /-- Floating-point compare into a predicate (R130). -/
  | fcmp (f : VR)
  /-- Writes a one-hot class mask (R131). -/
  | fclass (f : VR)
  /-- Rounds to an integer value in the same type (R128). -/
  | frnd (f : VR)
  /-- Multiplies by a power of two (R128). -/
  | fscale (f : VR)
  /-- Packed two-element dot product into f32 (R128). -/
  | fdot2 (f : VR)
  /-- Approximate reciprocal (R132). -/
  | frcp (f : VR)
  /-- Approximate reciprocal square root (R132). -/
  | frsq (f : VR)
  /-- Correctly rounded square root (R128). -/
  | fsqrt (f : VR)
  /-- Correctly rounded division (R128). -/
  | fdiv (f : VR)
  /-- Approximate base-2 exponential (R132). -/
  | fexp2 (f : VR)
  /-- Approximate base-2 logarithm (R132). -/
  | flog2 (f : VR)
  /-- Approximate sine (R132). -/
  | fsin (f : VR)
  /-- Approximate cosine (R132). -/
  | fcos (f : VR)
  /-- Approximate hyperbolic tangent (R132). -/
  | ftanh (f : VR)
  /-- Converts a single value per lane between types (R134). -/
  | cvt (f : VR)
  /-- Converts and packs several values into one register (R137). -/
  | cvtp (f : VR)
  /-- Quantises 32 f32 lanes into one e2m1 block image (R138). -/
  | cvtb (f : VR)
  /-- Decodes an e2m1 block image into one element per lane (R139). -/
  | cvtx (f : VR)
  /-- Global or window load, zero-extending (R147). -/
  | ld (f : MF)
  /-- Global or window load, sign-extending (FN 1) (R147). -/
  | ldSx (f : MF)
  /-- Global or window store (R147). -/
  | st (f : MF)
  /-- Uniform load into an S register, zero-extending (R148). -/
  | ldu (f : MF)
  /-- Uniform load into an S register, sign-extending (R148). -/
  | lduSx (f : MF)
  /-- Uniform store of an S register (R148). -/
  | stu (f : MF)
  /-- Prefetches lines toward the core (R151). -/
  | prf (f : MF)
  /-- Sends a page-range placement hint to the landing tier's owner (R152). -/
  | mhint (f : MF)
  /-- Evicts the named lines from the L1 (R153). -/
  | cctlInv (f : MF)
  /-- Writes dirty sectors of the named lines to the L2 (R153). -/
  | cctlWb (f : MF)
  /-- Evicts every L1 line of the issuing context (R153). -/
  | cctlInvall (f : MF)
  /-- Scratchpad or peer load, zero-extending (R147). -/
  | lds (f : MF)
  /-- Scratchpad or peer load, sign-extending (R147). -/
  | ldsSx (f : MF)
  /-- Scratchpad or peer store (R147). -/
  | sts (f : MF)
  /-- Global atomic add, returning the old value; combinable (R154). -/
  | atomAdd (f : MF)
  /-- Global atomic AND (R154). -/
  | atomAnd (f : MF)
  /-- Global atomic OR (R154). -/
  | atomOr (f : MF)
  /-- Global atomic XOR (R154). -/
  | atomXor (f : MF)
  /-- Global atomic signed minimum (R154). -/
  | atomMinS (f : MF)
  /-- Global atomic signed maximum (R154). -/
  | atomMaxS (f : MF)
  /-- Global atomic unsigned minimum (R154). -/
  | atomMinU (f : MF)
  /-- Global atomic unsigned maximum (R154). -/
  | atomMaxU (f : MF)
  /-- Global atomic exchange (R154). -/
  | atomExch (f : MF)
  /-- Global atomic compare-and-swap (R154). -/
  | atomCas (f : MF)
  /-- Global atomic wrapping increment (R154). -/
  | atomInc (f : MF)
  /-- Global atomic wrapping decrement (R154). -/
  | atomDec (f : MF)
  /-- Global atomic floating-point add (R154). -/
  | atomFadd (f : MF)
  /-- Scratchpad atomic add (R157). -/
  | atomsAdd (f : MF)
  /-- Scratchpad atomic AND (R157). -/
  | atomsAnd (f : MF)
  /-- Scratchpad atomic OR (R157). -/
  | atomsOr (f : MF)
  /-- Scratchpad atomic XOR (R157). -/
  | atomsXor (f : MF)
  /-- Scratchpad atomic signed minimum (R157). -/
  | atomsMinS (f : MF)
  /-- Scratchpad atomic signed maximum (R157). -/
  | atomsMaxS (f : MF)
  /-- Scratchpad atomic unsigned minimum (R157). -/
  | atomsMinU (f : MF)
  /-- Scratchpad atomic unsigned maximum (R157). -/
  | atomsMaxU (f : MF)
  /-- Scratchpad atomic exchange (R157). -/
  | atomsExch (f : MF)
  /-- Scratchpad atomic compare-and-swap (R157). -/
  | atomsCas (f : MF)
  /-- Scratchpad atomic increment (R157). -/
  | atomsInc (f : MF)
  /-- Scratchpad atomic decrement (R157). -/
  | atomsDec (f : MF)
  /-- Scratchpad atomic floating-point add (R157). -/
  | atomsFadd (f : MF)
  /-- Reduction add without result; combinable (R158). -/
  | redAdd (f : MF)
  /-- Reduction AND without result (R158). -/
  | redAnd (f : MF)
  /-- Reduction OR without result (R158). -/
  | redOr (f : MF)
  /-- Reduction XOR without result (R158). -/
  | redXor (f : MF)
  /-- Reduction signed minimum (R158). -/
  | redMinS (f : MF)
  /-- Reduction signed maximum (R158). -/
  | redMaxS (f : MF)
  /-- Reduction unsigned minimum (R158). -/
  | redMinU (f : MF)
  /-- Reduction unsigned maximum (R158). -/
  | redMaxU (f : MF)
  /-- Reduction floating-point add (R158). -/
  | redFadd (f : MF)
  /-- Update-only 32-bit integer sum into an L1 partial (R159). -/
  | updIadd32 (f : MF)
  /-- Update-only 64-bit integer sum (R159). -/
  | updIadd64 (f : MF)
  /-- Update-only f32 sum (R159). -/
  | updFadd32 (f : MF)
  /-- Update-only f64 sum (R159). -/
  | updFadd64 (f : MF)
  /-- Update-only signed maximum (R159). -/
  | updSmax32 (f : MF)
  /-- Update-only signed minimum (R159). -/
  | updSmin32 (f : MF)
  /-- Update-only unsigned maximum (R159). -/
  | updZmax32 (f : MF)
  /-- Update-only unsigned minimum (R159). -/
  | updZmin32 (f : MF)
  /-- Update-only f32 maximum (R159). -/
  | updFmax32 (f : MF)
  /-- Update-only f32 minimum (R159). -/
  | updFmin32 (f : MF)
  /-- Update-only 64-bit AND (R159). -/
  | updAnd64 (f : MF)
  /-- Update-only 64-bit OR (R159). -/
  | updOr64 (f : MF)
  /-- Update-only 64-bit XOR (R159). -/
  | updXor64 (f : MF)
  /-- Parks until the group's earlier accesses satisfy the order at the scope (R162). -/
  | fence (f : MF)
  /-- Enters the array owner FIFO with a roster and parks until granted (R168). -/
  | mxacq (f : MX)
  /-- Asks for both arrays of the core pair (R169). -/
  | mxacqPair (f : MX)
  /-- Waits for retirement, empties the latch, cancels pending MXRDYs and grants the next owner (R168). -/
  | mxrel (f : MX)
  /-- Declares a feeder's slice pending at the array (R175). -/
  | mxrdy (f : MX)
  /-- Matrix multiply-accumulate into a bank (R176). -/
  | mma (f : MX)
  /-- Block-scaled e2m1 matrix multiply-accumulate (R176). -/
  | mmab (f : MX)
  /-- Parks until the mx counter is zero and no MXRDY of the group is pending (R178). -/
  | mxwait (f : MX)
  /-- Moves a 32x32 accumulator tile into registers (R179). -/
  | mxrd (f : MX)
  /-- Moves registers into a 32x32 accumulator tile (R179). -/
  | mxwr (f : MX)
  /-- Zeroes an accumulator bank (R180). -/
  | mxzero (f : MX)
  /-- Writes an accumulator bank into the scratchpad (R181). -/
  | mxst (f : MX)
  /-- Runs a maquette product and reports failing sub-arrays (R182). -/
  | mxtest (f : MX)
  /-- Supplies the group's slice of a block copy request, global to scratchpad (R190). -/
  | cpyLd (f : EF)
  /-- Supplies the group's slice of a block copy request, scratchpad to global (R190). -/
  | cpySt (f : EF)
  /-- Seals the open copy batch and returns its number (R193). -/
  | cpseal (f : EF)
  /-- Parks until at most n sealed batches are unfinished; raises COPYFAULT for stopped requests (R193). -/
  | cpwait (f : EF)
  /-- Enrols the group in a multicast group of its die (R199). -/
  | mcjoin (f : EF)
  /-- Withdraws held requests, waits for sent fills and ends the membership (R200). -/
  | mcleave (f : EF)
  /-- Issues a masked group load, split into 128 B line requests (R201). -/
  | mcld (f : EF)
  /-- Arrives at the level-n barrier and waits for the phase (R195). -/
  | bar (f : EF)
  /-- Records arrival at the level-n barrier (R195). -/
  | bara (f : EF)
  /-- Waits for the phase of the group's latest arrival (R195). -/
  | barw (f : EF)
  /-- Initialises a scratchpad barrier object (R197). -/
  | boinit (f : EF)
  /-- Counts an arrival on a barrier object, advancing the phase when the count is met (R197). -/
  | boarr (f : EF)
  /-- Parks while the object's phase is unchanged; raises a recorded fill fault (R197). -/
  | bowait (f : EF)
  /-- Initialises a scratchpad queue (R204). -/
  | qinit (f : EF)
  /-- Waits as a release fence, then pushes a handle when the allowance permits (R204). -/
  | qpush (f : EF)
  /-- Parks while the queue is empty, then pops a handle (R204). -/
  | qpop (f : EF)
  /-- Parks until a path counter is at most n and delivers covered access errors (R205). -/
  | waitc (f : EF)
  /-- Waits on a memory word's condition with an acquire read and a watch (R206). -/
  | waitw (f : EF)
  /-- Asks the quadrant pool for slabs, parking in order (R207). -/
  | rgrow (f : EF)
  /-- Returns the slabs above n once no pending result targets them (R207). -/
  | rshrink (f : EF)
  /-- Publishes child packets in a device-side queue by advancing its write index (R208). -/
  | launch (f : EF)
  /-- A parked XCH completes as for absence after 65,536 fc without a match (R122). Operands: gid, sl. -/
  | xchTimeout
  /-- A matrix operation retires after its run time, lowering mx and writing MXRD results (R176). Operands: core, bank words found uncorrectable (the rest). -/
  | mxOpRetire
  /-- The engine completes or stops a copy request after processing its elements (R192). Operands: req. -/
  | copyRequestDone
  /-- A multicast line request reaches its home slice and joins or opens a held entry (R201). Operands: req. -/
  | heldEntryEnter
  /-- A held entry's timer expires and the entry fires with the members present (R202). Operands: entry. -/
  | heldEntryTimer
  /-- A fill line arrives at a member; its bytes are written and BOARR 128 is applied to its object (R202). Operands: fill. -/
  | fillDelivery
  /-- A write to a watched word makes the slice re-read it and wake the group or saved block (R206). Operands: watch. -/
  | watchWake
  /-- A parked WAITW without a watch re-reads its word every 65,536 fc (R206). Operands: gid, sl. -/
  | waitwPoll
  /-- A block stalled with a watch for the save threshold is saved (R206). Operands: block. -/
  | waitwSaveThreshold
  /-- A sleeping slot becomes eligible once its ac count expires (R93). Operands: gid, sl. -/
  | sleepWake
  /-- A move between the spill cache and the spill area completes and the parked slot resumes (R87). Operands: gid, sl. -/
  | spillMoveDone
  /-- After a parity mismatch, the refetched line arrives and is checked again (R43). Operands: gid, sl. -/
  | lineRefetch
  /-- A load's data return, its destination is written and the ld counter falls in order (R147). Operands: req, lanes. -/
  | loadReply
  /-- A store reaches its ordering point and the st counter falls (R265). Operands: req, lanes. -/
  | storePerformed
  /-- A scratchpad access completes at its banks and the sp counter falls (R251). Operands: req, lanes. -/
  | spAccessDone
  /-- An atomic reply is written and the at counter falls (R154). Operands: req. -/
  | atomReply
  /-- The home or the combining switch acknowledges a RED or UPD and the at counter falls (R158). Operands: req. -/
  | redAck
  /-- A prefetched line is accepted or dropped and the ld counter falls (R151). Operands: req. -/
  | prfAccept
  /-- A request is resolved at one tier: lookup, rights, bound, then SWAP, POP or LAND (R245). Operands: req. -/
  | tierLookup
  /-- A miss fill arrives at an L2 slice and answers the requests on its list in order (R249). Operands: req. -/
  | l2MissFill
  /-- A core's transient request gathers tokens for a line (R277). Operands: core, line, all. -/
  | tokenRequest
  /-- A persistent request at the home slice makes holders forward the line's tokens (R278). Operands: core, line. -/
  | persistentRequest
  /-- An invalidation reaches an L1 and is applied now or kept pending (R274). Operands: core, line, now. -/
  | invalidationArrive
  /-- A pending invalidation is applied no later than 65,536 fc after it arrived (R280). Operands: core, line. -/
  | invalidationApply
  /-- Dirty sectors of a weak or core-scope store are written to the L2 within 65,536 fc (R280). Operands: core, line. -/
  | l1DirtyWriteback
  /-- The home die grants a COH line to a die and invalidates the other recorded holders (R282). Operands: die, holder, line, alone. -/
  | directoryGrant
  /-- A holder die's acknowledgement reaches the home; the store is performed at mod scope once all are in (R283). Operands: holder, line. -/
  | invalidationAck
  /-- Two region halves merge after 2^MLOG fc without a conflict (R358). Operands: die, base. -/
  | regionMerge
  /-- The home slice performs an atomic or merged add, recording a journal entry (R155). Operands: req, lanes. -/
  | atomAtHome
  /-- An add request meets another at a crossbar output within 16 fc and merges (R156). Operands: switch, first, second. -/
  | switchCombine
  /-- A reply reaches a switch and is split among its contributors by the decombining record (R308). Operands: record, lost (0 sound, 1 its value array, 2 its tag array too). -/
  | decombine
  /-- The home receives LOSTSPLIT and splits the reply from its journal, or answers RETIRED (R369). Operands: record. -/
  | lostsplit
  /-- A switch receiving RETIRED sends ATOMLOST to its contributors (R369). Operands: record. -/
  | retired
  /-- A switch or core receives ATOMLOST and forwards it or completes the request (R369). Operands: req. -/
  | atomlost
  /-- An at-path request with no reply completes with ATOMLOST 2^24 fc after issue (R369). Operands: req. -/
  | atomlostTimeout
  /-- The home recalls the line's tokens, marks it OPEN under the tag and grants U copies (R159). Operands: req. -/
  | updOpen
  /-- The home recalls the U copies, merges the partials by MergeTree, writes the line and serves the closing access (R160). Operands: line. -/
  | lineClose
  /-- An evicted U copy sends its partial to the next merge level (R160). Operands: core, line. -/
  | uCopyEvict
  /-- A periodic array self-test runs after 4,096 operations or 1 ms, fencing or disabling sub-arrays (R378). Operands: core, failing. -/
  | maquetteTest
  /-- A retired block's allotment and room are freed once counters, copies and fills have settled (R233). Operands: block. -/
  | blockRelease
  /-- A write to QWR advances the write index or sets ERR with ECODE 4 (R330). Operands: q, wr. -/
  | queueDoorbell
  /-- The queue engine reads packet RD and enters it in the ready pool or stops on a malformed packet (R330). Operands: q. -/
  | queuePacketRead
  /-- Clearing QSTAT.ERR makes the engine read the stopped packet again (R330). Operands: q. -/
  | queueErrClear
  /-- A write to HOSTDONE completes the oldest open HOST packet with its status (R329). Operands: q, status. -/
  | hostdone
  /-- A dispatched HOST packet interrupts the driver with its arguments (R331). Operands: work. -/
  | hostPacket
  /-- A copy engine copies a COPY packet's bytes in ascending address (R331). Operands: work. -/
  | copyPacket
  /-- The distributor consumes a device-side queue packet and clears its V bit (R342). Operands: cid, q. -/
  | dsqRead
  /-- After 65,536 fc, the distributor reads again a packet whose V is 0 (R342). Operands: cid, q. -/
  | dsqValidTimeout
  /-- The distributor places a ready block whole once its room exists (R231). Operands: grid, core, path (the rest). -/
  | blockPlace
  /-- A block that finds no room on its home die for 20 µs may go to any die (R335). Operands: grid. -/
  | affinityTimeout
  /-- The distributor requests saves of lower-band blocks so that waiting work fits (R336). Operands: block. -/
  | saveRequest
  /-- A block finishes its save and its image is written, freeing its resources (R338). Operands: block. -/
  | blockSaved
  /-- A saved block is restored, replays its operand log and re-acquires its arrays (R339). Operands: block, cluster. -/
  | blockResume
  /-- At 1 ms, a waiting gang reserves an instance (R337). Operands: grid, inst, path (the rest). -/
  | gangReserve
  /-- At 10 ms, saves are requested in the reserved instance (R337). Operands: grid, path (the rest). -/
  | gangEvict
  /-- At 100 ms, an unplaced gang fails with LAUNCH_UNPLACEABLE (R337). Operands: grid, path (the rest). -/
  | gangTimeout
  /-- A unit of work completes and its completion value is written as a release (R333). Operands: work. -/
  | workComplete
  /-- Setting VALID makes a context live and starts its Scorepad record (R328). Operands: cid. -/
  | contextActivate
  /-- Clearing VALID stops placement and cancels the context's unplaced units (R328). Operands: cid. -/
  | contextInvalidate
  /-- A context's final Scorepad record enters the retired buffer (R400). Operands: cid. -/
  | contextRetire
  /-- Every 1 ms, Scorepad closes an interval and accumulates CTX, IDLE and RESID (R397). Operands: meas, idle, charges (the rest). -/
  | scorepadInterval
  /-- An owner's RETRY verdict makes the suspended request replay (R366). Operands: fq, tag. -/
  | verdictRetry
  /-- An owner's FAIL verdict settles the suspended request with its error (R366). Operands: fq, tag. -/
  | verdictFail
  /-- With no verdict within FQRTO, the request is settled as FAIL (R366). Operands: req. -/
  | verdictTimeout
  /-- Tier command that sets HOLD in an entry and its cached copies (R348). Operands: tier, number, label. -/
  | hold
  /-- Tier command that waits for INFL to reach zero (R348). Operands: tier, number, label. -/
  | drain
  /-- A DRAIN still waiting after TDTO sets ERR 3 (R348). Operands: tier, number. -/
  | drainTimeout
  /-- Tier command that shoots down a physical range through the reverse map and directory (R349). Operands: tier, number, lost (the rest). -/
  | shoot
  /-- Tier command that writes TENT0-3 into a held or BLOCK entry and advances GEN (R348). Operands: tier, number, label. -/
  | write
  /-- Tier command that clears HOLD and lets waiting requests look the entry up again (R348). Operands: tier, number, label. -/
  | release
  /-- Tier command that completes every unperformed in-flight request with REVOKED (R348). Operands: tier, number, label. -/
  | force
  /-- Tier command that drops every cached copy of an entry (R348). Operands: tier, number, label. -/
  | inval
  /-- The write-back scanner scans its descriptors every PERIOD ms and queues dirty file pages (R354). Operands: die. -/
  | wbScan
  /-- An NVMe write completes and D is cleared, or the error is reported (R355). Operands: ok. -/
  | storageWriteDone
  /-- An unacknowledged control message is resent every 2^16 fc, and reported after 8 resends (R371). Operands: sender, receiver. -/
  | controlResend
  /-- A probed domain that does not answer within 1 ms is declared dead and its lines are poisoned (R373). Operands: domain. -/
  | domdead
  /-- A message from an old incarnation is dropped and a LATE record is written (R372). Operands: domain, incarnation, cls, line. -/
  | late
  /-- A write of DIERST.GO evacuates one C-die (R374). Operands: die. -/
  | dieReset
  /-- After evacuation, the die's incarnation advances and it resets and rejoins (R374). Operands: ok. -/
  | dieEvacuated
  /-- An evacuation not done in 100 ms sets FAIL 1 and the die is treated as lost (R374). -/
  | dieResetTimeout
  /-- Requests waiting for a resetting die complete with UNREACHABLE after 1 s (R374). Operands: req. -/
  | egressWaitTimeout
  /-- A flit with a bad CRC is resent from the retry buffer (R375). Operands: die, link. -/
  | flitCrcError
  /-- After 8 failed resends, the link retrains (R375). Operands: die, link. -/
  | linkRetrain
  /-- A link still down when retraining ends is reported and traffic reroutes (R375). Operands: die, link. -/
  | linkdown
  /-- An uncorrectable DRAM or L2 error poisons the line and writes a record (R376). Operands: line, inL2. -/
  | linepoison
  /-- A write to PCLR makes the home recall copies, zero the line and clear its poison (R376). Operands: die, line. -/
  | pclr
  /-- A corrected scratchpad symbol error is counted, and a bank is marked at 16 (R377). Operands: core, bank. -/
  | spmark
  /-- Power-on or START runs the cold-start sequence, or the recovery image (R313). Operands: failing, failed (the rest). -/
  | coldStart
  /-- PMMODE.WSTART evacuates and resets the C-dies with DRAM kept (R319). Operands: failing, failed (the rest). -/
  | warmStart
  /-- A write of PMMODE.MTGT moves the module between M0 and M3 (R320). Operands: target. -/
  | moduleState
  /-- A write of PDIE changes a C-die's operating point (R322). Operands: value. -/
  | pdie
  /-- A write of CLGATEd gates or ungates clusters (R323). Operands: die, value. -/
  | clgate
  /-- Clearing ITRIP applies the recorded PCMD (R325). Operands: die. -/
  | itripClear
  /-- A sensor at or above TWARN sets TWRN and interrupts the driver (R326). Operands: sensor, celsius. -/
  | thermalWarning
  /-- A sensor at 110 °C takes the module to M3 and sets CTRIP (R325). Operands: sensor, celsius. -/
  | criticalThermalTrip
  /-- Rail current above 700 A for 10 µs applies the fallback point (R325). Operands: die. -/
  | currentLimitTrip
  /-- A write of SPCTL.EN makes a Span port train or stop (R380). Operands: port, en. -/
  | spanPortEnable
  /-- An appliance's REVOKE message makes firmware block or repoint the PORT entries and answer DONE (R388). Operands: port, label, entries (the rest). -/
  | revoke
  /-- When the deadline passes without DONE, the appliance forces the entry and writes it BLOCK (R388). Operands: module, label. -/
  | revokeDeadline
  /-- A block in flash is promoted to appliance DRAM and the waiting access is served (R384). Operands: module, block. -/
  | flashPromote
  /-- The appliance reclaims an unpinned non-current version at its own time (R387). Operands: module, region, version. -/
  | versionReclaim
  /-- Fuash command returning record buffer counts (R403). Operands: itag. -/
  | info
  /-- Fuash command returning a live context record snapshot (R404). Operands: itag, cid. -/
  | readlive
  /-- Fuash command returning retired records and setting READ (R404). Operands: itag, first, count. -/
  | readret
  /-- Fuash command freeing retired records that have been read (R404). Operands: itag, seq. -/
  | ack
  /-- Fuash command returning the module energy totals (R399). Operands: itag. -/
  | totals
  /-- Fuash command returning the health summary (R405). Operands: itag. -/
  | health
  /-- Fuash command setting the power ceiling (R325). Operands: itag, watts. -/
  | ceiling
  /-- Fuash command writing MODID before step 10 (R379). Operands: itag, id. -/
  | setmodid
  /-- Fuash command beginning a cold start from M3 (R320). Operands: itag. -/
  | start
  /-- An MCTP control message on the Fuash port (R402). Operands: body (the rest). -/
  | mctpControl
  /-- SPDM request for the supported versions (R406). -/
  | getVersion
  /-- SPDM request for the capabilities (R406). -/
  | getCapabilities
  /-- SPDM request selecting SHA3-256 and ML-DSA-44 (R406). Operands: hash, asym. -/
  | negotiateAlgorithms
  /-- SPDM request for the certificate digests (R406). -/
  | getDigests
  /-- SPDM request for the slot 0 certificate chain (R406). Operands: slot, offset, length. -/
  | getCertificate
  /-- SPDM challenge signed with the identity key (R406). Operands: slot, nonce (the rest). -/
  | challenge
  /-- SPDM request returning measurement log entries (R406). Operands: index. -/
  | getMeasurements
  /-- A write to an MMIO register that has no behaviour of its own stores the value (R312). Operands: offset, value, bytes (the bytes written; 0 for all). -/
  | registerWrite
  /-- Main power is removed from the module, losing all volatile state while NFAIL in boot flash survives (R315). -/
  | mainPowerLoss
  /-- Resident units that reach no pre-emption point within 10 ms of an evacuation are ended with a fault record (R319). -/
  | evacuationTimeout
  /-- A module-state, operating-point or cluster-gating transition completes, clearing PMSTAT.BUSY and updating MCUR (R324). -/
  | powerTransitionDone
  /-- A die-to-die or Span link finishes training or retraining and comes up, setting UP and, for Span, PEER (R375). Operands: die, link, peer, pool. -/
  | linkTrained
  /-- An A-die core load or store reaches memory in nodes 0-4, is served through the directory as a holder, or gets a bus error in M2 and M3 (R282). Operands: kind (0 load, 1 store), pa, size, bytes (the rest). -/
  | aDieAccess
  /-- The recovery image accepts a new firmware image over the Fuash port and verifies it under R316 (R315). Operands: image (the rest). -/
  | recoveryImageUpdate
  /-- The pool appliance demotes a 64 KiB block of an extent from its DRAM to its flash tier, ordered by the hints (R384). Operands: module, block. -/
  | flashDemotion
  /-- A session, key-exchange or PSK SPDM request is answered with ERROR UnsupportedRequest, and a message of another MCTP type is dropped (R406). Operands: mctpType. -/
  | unsupportedRequest
  deriving DecidableEq, Repr

end Sys2Proof
end

