-- ==== Sys2Proof/WellFormed.lean ====
section
/-! DEFINITION. Which field values an instruction may hold: the decode checks of R62 step 5 (R27, R30, R32, R49 to R58,
R60, and the field columns of each entry). Each instruction has one row of legal values; a term that breaks its row
raises UNDEF when it issues. The V registers an instruction names, which REGBOUND judges (R28), are read off the same row. -/
namespace Sys2Proof

/-- A span of V registers an instruction names: first register, how many, and whether R27 asks for alignment. -/
structure VSpan where
  reg : Nat
  count : Nat
  aligned : Bool
  deriving DecidableEq, Repr

/-- The registers of one lane that a value of type code `t` fills (R27, R57). -/
def typeRegs : Nat → Nat
  | 3 | 4 | 10 | 20 => 2
  | 21 => 4
  | _ => 1

/-- How many registers an operand fills: by the type T, by the source type in U, one, an aligned pair, or the
unaligned offset pair that R27 exempts. -/
inductive RegN where
  | byT
  | byU
  | one
  | pair
  | offsetPair
  deriving DecidableEq, Repr

/-- The span an operand names. -/
def RegN.span (n : RegN) (t u r : Nat) : VSpan :=
  match n with
  | .byT => ⟨r, typeRegs t, true⟩
  | .byU => ⟨r, typeRegs u, true⟩
  | .one => ⟨r, 1, true⟩
  | .pair => ⟨r, 2, true⟩
  | .offsetPair => ⟨r, 2, false⟩

/-- What an operand field holds: nothing (zero), a V register, a predicate number 0 to 7, a register or the uniform
register U (BU or CU), U alone, or the random bits of stochastic rounding, by register or U, or by register alone where U holds a type
(R50, R101, R126, R134). -/
inductive Use where
  | zero
  | reg (n : RegN)
  | pred
  | regU (n : RegN)
  | uOnly
  | srBits
  | srReg
  deriving DecidableEq, Repr

/-- What PD holds: 7 only, 0 to 7, or 0 to 6 (R49, R81, R114). -/
inductive PdUse where
  | none
  | optional
  | required
  deriving DecidableEq, Repr

/-- What RM holds: 0, a rounding code with RM = 5 allowed or not, or an entry's own codes below a bound (R58). -/
inductive RmUse where
  | zero
  | round
  | roundData
  | codes (bound : Nat)
  deriving DecidableEq, Repr

/-- What U holds: S0 to S191 under BU or CU and zero otherwise, an S register always, or a parameter (R30, R50). -/
inductive UUse where
  | uniform
  | sreg
  | param (values : List Nat)
  | anyParam
  deriving DecidableEq, Repr

/-- One row of legal values of a VR-form instruction. -/
structure VRSpec where
  types : List Nat := [0]
  a : Use := .zero
  b : Use := .zero
  c : Use := .zero
  d : Use := .zero
  pd : PdUse := .none
  rm : RmUse := .zero
  u : UUse := .uniform
  sat : Bool := false
  na : Bool := false
  nb : Bool := false
  nc : Bool := false
  aa : Bool := false
  ab : Bool := false
  deriving DecidableEq, Repr

/-- The vector integer types: s32, z32, s64, z64, s16, z16, s8, z8 (R108). -/
def arithTypes : List Nat := [1, 2, 3, 4, 5, 6, 7, 8]
/-- The packed integer types s8x4 and z8x4 (R108). -/
def packedTypes : List Nat := [18, 19]
/-- The floating types F of R124. -/
def floatTypes : List Nat := [9, 10, 11, 12, 16, 17]
/-- The unpacked floating types of R124 and R125. -/
def scalarFloatTypes : List Nat := [9, 10, 11, 12]
/-- The types of the approximations other than FRCP and FRSQ (R125). -/
def approxTypes : List Nat := [9, 11, 12, 16, 17]
/-- The types CVT converts between (R134). -/
def cvtTypes : List Nat := [10, 9, 11, 12, 13, 14, 3, 4, 1, 2, 5, 6, 7, 8]

/-- Does an operand field of a VR instruction hold a legal value? `sel` is BU or CU. -/
def Use.ok (use : Use) (field : Nat) (sel : Bool) (rm : Nat) : Bool :=
  match use with
  | .zero => field == 0 && !sel
  | .reg _ => !sel
  | .pred => field < 8 && !sel
  | .regU _ => !sel || field == 0
  | .uOnly => sel && field == 0
  | .srBits => if rm == 5 then !sel || field == 0 else field == 0 && !sel
  | .srReg => !sel && (rm == 5 || field == 0)

/-- The span an operand field of a VR instruction names, when it names V registers. -/
def Use.spans (use : Use) (field : Nat) (sel : Bool) (t u rm : Nat) : List VSpan :=
  match use with
  | .reg n => [n.span t u field]
  | .regU n => if sel then [] else [n.span t u field]
  | .srBits => if rm == 5 && !sel then [⟨field, 1, true⟩] else []
  | .srReg => if rm == 5 then [⟨field, 1, true⟩] else []
  | _ => []

/-- Every V register span of a VR instruction. -/
def VRSpec.spans (s : VRSpec) (f : VR) : List VSpan :=
  let t := f.t.toNat; let u := f.u.toNat; let rm := f.rm.toNat
  s.a.spans f.a.toNat false t u rm ++ s.b.spans f.b.toNat f.bu t u rm ++
    s.c.spans f.c.toNat f.cu t u rm ++ s.d.spans f.d.toNat false t u rm

/-- R27: a pair is named by its even register, a quad by a multiple of four. -/
def VSpan.alignedOk (v : VSpan) : Bool := !v.aligned || v.reg % v.count == 0

/-- Is a PD field legal? -/
def PdUse.ok (p : PdUse) (pd : Nat) : Bool :=
  match p with
  | .none => pd == 7
  | .optional => true
  | .required => pd != 7

/-- Is an RM field legal? -/
def RmUse.ok (r : RmUse) (rm : Nat) : Bool :=
  match r with
  | .zero => rm == 0
  | .round => rm != 7
  | .roundData => rm != 7 && rm != 5
  | .codes bound => rm < bound

/-- Is a U field legal? -/
def UUse.ok (use : UUse) (u : Nat) (bu cu : Bool) : Bool :=
  match use with
  | .uniform => if bu || cu then u < 192 else u == 0
  | .sreg => u < 192
  | .param values => values.contains u
  | .anyParam => true

/-- The decode checks of a VR instruction (R49, R50, R57, R58, R101, R126). -/
def VRSpec.ok (s : VRSpec) (f : VR) : Bool :=
  s.types.contains f.t.toNat && s.a.ok f.a.toNat false f.rm.toNat && s.b.ok f.b.toNat f.bu f.rm.toNat &&
    s.c.ok f.c.toNat f.cu f.rm.toNat && s.d.ok f.d.toNat false f.rm.toNat && s.pd.ok f.pd.toNat &&
    s.rm.ok f.rm.toNat && s.u.ok f.u.toNat f.bu f.cu && (s.sat || !f.sat) && (s.na || !f.na) && (s.nb || !f.nb) &&
    (s.nc || !f.nc) && (s.aa || !f.aa) && (s.ab || !f.ab) && !f.ru && (s.spans f).all VSpan.alignedOk

/-- One row of legal values of a VI-form instruction (R51). -/
structure VISpec where
  types : List Nat
  useA : Bool := true
  rm : RmUse := .zero
  sat : Bool := false
  deriving DecidableEq, Repr

/-- Every V register span of a VI instruction. -/
def VISpec.spans (s : VISpec) (f : VI) : List VSpan :=
  (if s.useA then [RegN.byT.span f.t.toNat 0 f.a.toNat] else []) ++ [RegN.byT.span f.t.toNat 0 f.d.toNat]

/-- The decode checks of a VI instruction. -/
def VISpec.ok (s : VISpec) (f : VI) : Bool :=
  s.types.contains f.t.toNat && (s.useA || f.a == 0) && s.rm.ok f.rm.toNat && (s.sat || !f.sat) &&
    (s.spans f).all VSpan.alignedOk

/-- What an SR field holds: zero, an S register, a K register, a condition code 0 to 5, or a Q number (R103, R106). -/
inductive SUse where
  | zero
  | s
  | k
  | cond
  | q
  deriving DecidableEq, Repr

/-- Is an SR register field legal (R30, R103, R106)? -/
def SUse.ok (use : SUse) (v : Nat) : Bool :=
  match use with
  | .zero => v == 0
  | .s => v < 192
  | .k => 192 ≤ v && v < 208
  | .cond => v < 6
  | .q => v < 4

/-- What QD holds: 7, 0 to 3, or either. -/
inductive QdUse where
  | none
  | required
  | optional
  deriving DecidableEq, Repr

/-- Is a QD field legal (R52, R103, R106)? -/
def QdUse.ok (use : QdUse) (qd : Nat) : Bool :=
  match use with
  | .none => qd == 7
  | .required => qd < 4
  | .optional => qd < 4 || qd == 7

/-- One row of legal values of an SR-form instruction. -/
structure SRSpec where
  types : List Nat
  sd : SUse := .s
  sa : SUse := .s
  sb : SUse := .zero
  sc : SUse := .zero
  qd : QdUse := .none
  imm : Bool := false
  deriving DecidableEq, Repr

/-- PG names a uniform guard: Q0 to Q3, or 7 for always (R32). -/
def Common.uniformGuard (f : Common) : Bool := f.pg.toNat < 4 || f.pg == 7

/-- The instruction takes no guard: PG = 7 and PN = 0 (R49). -/
def Common.noGuard (f : Common) : Bool := f.pg == 7 && !f.pn

/-- The decode checks of an SR instruction: it takes a uniform guard (R101). -/
def SRSpec.ok (s : SRSpec) (f : SR) : Bool :=
  s.types.contains f.t.toNat && s.sd.ok f.sd.toNat && s.sa.ok f.sa.toNat && s.sb.ok f.sb.toNat &&
    s.sc.ok f.sc.toNat && s.qd.ok f.qd.toNat && (s.imm || f.imm == 0) && f.uniformGuard

/-- The guard an M-form instruction takes (R140). -/
inductive GuardUse where
  | lane
  | uniform
  | none
  deriving DecidableEq, Repr

/-- Is the guard legal? -/
def GuardUse.ok (g : GuardUse) (f : Common) : Bool :=
  match g with
  | .lane => true
  | .uniform => f.uniformGuard
  | .none => f.noGuard

/-- What the data of an M-form instruction is: nothing, a V span by SZ, an S register, a single V register (a page
count), or the two operands of a compare-and-swap (R145). -/
inductive DataUse where
  | zero
  | v
  | s
  | one
  | cas
  deriving DecidableEq, Repr

/-- One row of legal values of an M-form instruction (R140). `offV`: the offset is a V register. -/
structure MSpec where
  guard : GuardUse := .lane
  spc : List Nat := [0, 3]
  sz : List Nat := [0]
  ord : List Nat := [0]
  scp : List Nat := [0]
  ch : List Nat := [0]
  d : DataUse := .zero
  c : DataUse := .zero
  offV : Bool := true
  noAddr : Bool := false
  deriving DecidableEq, Repr

/-- Registers per lane of an access of size code `sz`: 1, a pair, or a quad (R145). -/
def szRegs : Nat → Nat
  | 3 => 2
  | 4 => 4
  | _ => 1

/-- The spans of a data field. -/
def DataUse.spans (u : DataUse) (field sz : Nat) : List VSpan :=
  match u with
  | .v => [⟨field, szRegs sz, true⟩]
  | .one => [⟨field, 1, true⟩]
  | .cas => if sz == 3 then [⟨field, 4, true⟩] else [⟨field, 2, false⟩]
  | _ => []

/-- Is a data field legal? -/
def DataUse.ok (u : DataUse) (field : Nat) : Bool :=
  match u with
  | .zero => field == 0
  | .s => field < 192
  | _ => true

/-- Every V register span of an M instruction. -/
def MSpec.spans (s : MSpec) (f : MF) : List VSpan :=
  (if s.offV && !s.noAddr then [⟨f.a.toNat, if f.ow then 2 else 1, false⟩] else []) ++
    s.d.spans f.d.toNat f.sz.toNat ++ s.c.spans f.c.toNat f.sz.toNat

/-- U of an M instruction by its space: a K register for SPC 0, K15 for SPC 3, zero otherwise (R53, R140). -/
def mUOk (s : MSpec) (f : MF) : Bool :=
  if s.noAddr then f.u == 0
  else match f.spc.toNat with
    | 0 => 192 ≤ f.u.toNat && f.u.toNat < 208
    | 3 => f.u == 207
    | _ => f.u == 0

/-- The decode checks of an M instruction (R53, R140, R143, R145). -/
def MSpec.ok (s : MSpec) (f : MF) : Bool :=
  s.guard.ok f.toCommon && s.spc.contains f.spc.toNat && s.sz.contains f.sz.toNat && s.ord.contains f.ord.toNat &&
    s.scp.contains f.scp.toNat && s.ch.contains f.ch.toNat && (f.spc != 3 || f.ch == 0) && s.d.ok f.d.toNat &&
    s.c.ok f.c.toNat && mUOk s f && (if f.spc == 2 then f.peer != 0 else f.peer == 0) &&
    (!(f.spc == 1 || f.spc == 2) || !f.ow) && (s.offV || (!f.ow && f.a.toNat < 192)) &&
    (!s.noAddr || (f.a == 0 && !f.ow && f.disp == 0)) && (s.spans f).all VSpan.alignedOk

/-- Legal load orders, store orders, atomic orders, scopes (R140). -/
def ldOrds : List Nat := [0, 1, 2, 5]
/-- Legal store orders (R140). -/
def stOrds : List Nat := [0, 1, 3, 5]
/-- Legal orders of ATOM and ATOMS (R140). -/
def atomOrds : List Nat := [1, 2, 3, 4, 5]
/-- Every scope of R53. -/
def allScopes : List Nat := [0, 1, 2, 3, 4, 5, 6]
/-- The scopes of a scratchpad access (R140). -/
def spScopes : List Nat := [0, 1, 2]
/-- Every cache hint (R53). -/
def allHints : List Nat := [0, 1, 2, 3]

/-- The row of a global load; `sz` lists its sizes. -/
def ldSpec (sz : List Nat) : MSpec := { sz := sz, ord := ldOrds, scp := allScopes, ch := allHints, d := .v }
/-- The row of a uniform load. -/
def lduSpec (sz : List Nat) : MSpec :=
  { guard := .uniform, sz := sz, ord := ldOrds, scp := allScopes, ch := allHints, d := .s, offV := false }
/-- The row of a scratchpad load. -/
def ldsSpec (sz : List Nat) : MSpec := { spc := [1, 2], sz := sz, ord := ldOrds, scp := spScopes, d := .v }
/-- The row of a global atomic. -/
def atomSpec (c : DataUse) : MSpec := { sz := [2, 3], ord := atomOrds, scp := allScopes, d := .v, c := c }
/-- The row of a scratchpad atomic. -/
def atomsSpec (c : DataUse) : MSpec := { spc := [1, 2], sz := [2, 3], ord := atomOrds, scp := spScopes, d := .v, c := c }
/-- The row of a reduction. -/
def redSpec : MSpec := { sz := [2, 3], ord := [1, 3, 5], scp := allScopes, c := .v }
/-- The row of an update; `sz` is the width of its tag (R60). -/
def updSpec (sz : Nat) : MSpec := { sz := [sz], ord := [1, 3], scp := allScopes, c := .v }

/-- One row of legal values of an MX-form instruction (R166): the register span A names (0 for none), and whether the
formats, the K-steps and the flag bits are used. -/
structure MXSpec where
  guard : GuardUse := .lane
  acc : Bool := false
  slice : Bool := false
  tile : Bool := false
  u : Bool := false
  types : List Nat := [0]
  pair : List Bool := [false]
  ruza : Bool := false
  deriving DecidableEq, Repr

/-- How many registers a slice of format code `t` and `ks` K-steps fills; FMT-sourced formats are judged at issue (R171). -/
def sliceRegs (t ks : Nat) : Nat := if t == 15 then 18 * ks else 16 * ks

/-- Every V register span of an MX instruction whose format the encoding fixes. -/
def MXSpec.spans (s : MXSpec) (f : MX) : List VSpan :=
  (if s.slice then [⟨f.a.toNat, sliceRegs f.t.toNat f.ks.toNat, false⟩] else []) ++
    (if s.tile then [⟨f.a.toNat, 32, false⟩] else [])

/-- The decode checks of an MX instruction (R55, R166). -/
def MXSpec.ok (s : MXSpec) (f : MX) : Bool :=
  s.guard.ok f.toCommon && (if s.acc then f.acc.toNat < 2 else f.acc == 0) &&
    (if s.slice || s.tile then f.a.toNat % 8 == 0 else f.a == 0) && (if s.u then f.u.toNat < 192 else f.u == 0) &&
    s.types.contains f.t.toNat && (if s.slice then 1 ≤ f.ks.toNat && f.ks.toNat ≤ 4 else f.ks == 0) &&
    s.pair.contains f.pair && (s.ruza || (!f.ru && !f.za)) && (s.spans f).all (fun v => v.reg + v.count ≤ 512)

/-- What an E-form register field holds. -/
inductive EUse where
  | zero
  | s
  | v
  | k
  deriving DecidableEq, Repr

/-- Is an E-form register field legal (R81, R186)? -/
def EUse.ok (use : EUse) (v : Nat) : Bool :=
  match use with
  | .zero => v == 0
  | .s => v < 192
  | .v => true
  | .k => 192 ≤ v && v < 208

/-- One row of legal values of an E-form instruction (R81, R186). `eb` and `imm` list bounds. -/
structure ESpec where
  guard : GuardUse := .none
  d : EUse := .zero
  a : EUse := .zero
  b : EUse := .zero
  u : EUse := .zero
  uParam : Option (List Nat) := none
  ebLo : Nat := 0
  ebHi : Nat := 0
  immOrReg : Bool := false
  immLo : Nat := 0
  immHi : Nat := 0
  deriving DecidableEq, Repr

/-- The decode checks of an E instruction. With `immOrReg`, EA = 1 takes the register A in place of IMM32 (R186). -/
def ESpec.ok (s : ESpec) (f : EF) : Bool :=
  s.guard.ok f.toCommon && s.d.ok f.d.toNat && s.b.ok f.b.toNat &&
    (match s.uParam with
      | some l => l.contains f.u.toNat
      | none => s.u.ok f.u.toNat) &&
    s.ebLo ≤ f.eb.toNat && f.eb.toNat ≤ s.ebHi &&
    (if s.immOrReg then
        (f.ea == 0 && f.a == 0 && s.immLo ≤ f.imm.toNat && f.imm.toNat ≤ s.immHi) ||
          (f.ea == 1 && f.a.toNat < 192 && f.imm == 0)
      else f.ea == 0 && s.a.ok f.a.toNat && s.immLo ≤ f.imm.toNat && f.imm.toNat ≤ s.immHi)

/-- One row of legal values of a B-form instruction (R54, R81). -/
structure BSpec where
  off : Bool := false
  join : Bool := false
  aV : Bool := false
  aS : Bool := false
  laneGuard : Bool := false
  uqOk : Bool := false
  deriving DecidableEq, Repr

/-- The decode checks of a B instruction: UQ = 1 only where allowed and then a uniform guard, JOFF nonzero where used. -/
def BSpec.ok (s : BSpec) (f : BF) : Bool :=
  (if f.uq then s.uqOk && f.uniformGuard else s.laneGuard || f.noGuard) && (s.off || f.off == 0) &&
    (if s.join then f.joff != 0 else f.joff == 0) && (s.aV || (if s.aS then f.a.toNat < 192 else f.a == 0))

/-- The V register spans of a B instruction: the index register of BRX and CALLX. -/
def BSpec.spans (s : BSpec) (f : BF) : List VSpan := if s.aV then [⟨f.a.toNat, 1, true⟩] else []

/-- The largest 32-bit number, the bound of an IMM32 that takes every value. -/
def immAny : Nat := 2 ^ 32 - 1

/-- The special-register numbers RDSR may read into a V register (R35). -/
def rdsrNumbers : List Nat := (List.range 15) ++ (List.range' 16 16)
/-- Those it may read into an S register: the lane registers $lane and $lvlidx0 are not among them (R35, R36). -/
def rdsrUniform : List Nat := rdsrNumbers.filter (fun n => n != 0 && n != 16)
/-- Those WRSR may write: $fmt, and in trap mode $epc, $ecause, $efault (R35). -/
def wrsrNumbers : List Nat := [10, 12, 13, 14]

/-- A row of legal values, by instruction form; an event has none. -/
inductive Row where
  | vr (s : VRSpec) (f : VR)
  | vi (s : VISpec) (f : VI)
  | sr (s : SRSpec) (f : SR)
  | m (s : MSpec) (f : MF)
  | b (s : BSpec) (f : BF)
  | mx (s : MXSpec) (f : MX)
  | e (s : ESpec) (f : EF) (vd : Bool)
  | nop (f : EF)
  | event
  deriving DecidableEq, Repr

/-- Does the instruction meet its row? -/
def Row.ok : Row → Bool
  | .vr s f => s.ok f
  | .vi s f => s.ok f
  | .sr s f => s.ok f
  | .m s f => s.ok f
  | .b s f => s.ok f
  | .mx s f => s.ok f
  | .e s f _ => s.ok f
  | .nop f => f.d == 0 && f.a == 0 && f.b == 0 && f.ea == 0 && f.u == 0 && f.eb == 0 && f.imm == 0
  | .event => true

/-- The V register spans the row names. -/
def Row.spans : Row → List VSpan
  | .vr s f => s.spans f
  | .vi s f => s.spans f
  | .m s f => s.spans f
  | .b s f => s.spans f
  | .mx s f => s.spans f
  | .e _ f vd => if vd then [⟨f.d.toNat, 1, true⟩] else []
  | _ => []

/-- The common fields of the row, when it is an instruction. -/
def Row.common : Row → Option Common
  | .vr _ f => some f.toCommon
  | .vi _ f => some f.toCommon
  | .sr _ f => some f.toCommon
  | .m _ f => some f.toCommon
  | .b _ f => some f.toCommon
  | .mx _ f => some f.toCommon
  | .e _ f _ => some f.toCommon
  | .nop f => some f.toCommon
  | .event => none

/-- The row of CVTP by its pair of types (R137): packed 16-bit formats from two f32 sources (RM = 5 allowed), or 8-bit
formats from f32 or from packed sources (RM = 5 reserved). -/
def cvtpSpec (f : VR) : VRSpec :=
  let wide := f.t == 16 || f.t == 17
  { types := [13, 14, 16, 17], a := .reg .one, b := .reg .one, c := if wide then .srReg else .zero, d := .reg .one,
    pd := .optional, rm := if wide then .round else .roundData, u := .param (if wide then [9] else [9, 16, 17]),
    sat := true }

/-- The row of every constructor: each instruction's legal values, from its entry's tables (R81, R103, R106, R108, R120,
R124, R125, R134 to R140, R166, R186). -/
def Instr.row : Instr → Row
  | .nop f => .nop f
  | .exit f => .e { guard := .lane } f false
  | .kill f => .e {} f false
  | .trap f => .e { guard := .lane, immHi := immAny } f false
  | .eret f => .e {} f false
  | .brk f => .e { guard := .lane, immHi := immAny } f false
  | .sleep f => .e { immHi := immAny } f false
  | .pmark f => .e { a := .s, immHi := immAny } f false
  | .bra f => .b { off := true, uqOk := true } f
  | .brc f => .b { off := true, join := true, laneGuard := true } f
  | .brx f => .b { off := true, join := true, aV := true } f
  | .call f => .b { off := true } f
  | .callx f => .b { off := true, join := true, aV := true } f
  | .ret f => .b {} f
  | .loops f => .b { off := true, aS := true } f
  | .elect f => .vr { pd := .required } f
  | .voteOr f => .vr { a := .pred, pd := .required } f
  | .voteAnd f => .vr { a := .pred, pd := .required } f
  | .voteMask f => .vr { a := .pred, d := .reg .one } f
  | .voteSame f => .vr { types := [0, 20], a := .reg .byT, pd := .required } f
  | .voteRank f => .vr { a := .pred, d := .reg .one } f
  | .rdsrV f => .e { guard := .lane, d := .v, uParam := some rdsrNumbers } f true
  | .rdsrS f => .e { d := .s, uParam := some rdsrUniform } f false
  | .wrsr f => .e { a := .s, uParam := some wrsrNumbers } f false
  | .fmtset f => .e { immHi := immAny } f false
  | .fmtget f => .e { d := .s } f false
  | .yield f => .e {} f false
  | .sadd f => .sr { types := [3, 4, 1, 2], sb := .s } f
  | .saddImm f => .sr { types := [3, 4, 1, 2], imm := true } f
  | .ssub f => .sr { types := [3, 4, 1, 2], sb := .s } f
  | .ssubImm f => .sr { types := [3, 4, 1, 2], imm := true } f
  | .smul f => .sr { types := [3, 4, 1, 2], sb := .s } f
  | .smulImm f => .sr { types := [3, 4, 1, 2], imm := true } f
  | .smulh f => .sr { types := [3, 4], sb := .s } f
  | .smulhImm f => .sr { types := [3, 4], imm := true } f
  | .sdiv f => .sr { types := [3, 4, 1, 2], sb := .s } f
  | .sdivImm f => .sr { types := [3, 4, 1, 2], imm := true } f
  | .srem f => .sr { types := [3, 4, 1, 2], sb := .s } f
  | .sremImm f => .sr { types := [3, 4, 1, 2], imm := true } f
  | .sand f => .sr { types := [3, 4, 1, 2], sb := .s } f
  | .sandImm f => .sr { types := [3, 4, 1, 2], imm := true } f
  | .sor f => .sr { types := [3, 4, 1, 2], sb := .s } f
  | .sorImm f => .sr { types := [3, 4, 1, 2], imm := true } f
  | .sxor f => .sr { types := [3, 4, 1, 2], sb := .s } f
  | .sxorImm f => .sr { types := [3, 4, 1, 2], imm := true } f
  | .sshl f => .sr { types := [3, 4, 1, 2], sb := .s } f
  | .sshlImm f => .sr { types := [3, 4, 1, 2], imm := true } f
  | .sshr f => .sr { types := [3, 4, 1, 2], sb := .s } f
  | .sshrImm f => .sr { types := [3, 4, 1, 2], imm := true } f
  | .ssra f => .sr { types := [3, 4, 1, 2], sb := .s } f
  | .ssraImm f => .sr { types := [3, 4, 1, 2], imm := true } f
  | .smin f => .sr { types := [3, 4, 1, 2], sb := .s } f
  | .sminImm f => .sr { types := [3, 4, 1, 2], imm := true } f
  | .smax f => .sr { types := [3, 4, 1, 2], sb := .s } f
  | .smaxImm f => .sr { types := [3, 4, 1, 2], imm := true } f
  | .scmp f => .sr { types := [3, 4, 1, 2], sd := .zero, sb := .s, sc := .cond, qd := .required } f
  | .scmpImm f => .sr { types := [3, 4, 1, 2], sd := .zero, sc := .cond, qd := .required, imm := true } f
  | .ssel f => .sr { types := [3], sb := .s, sc := .q } f
  | .sselImm f => .sr { types := [3], sc := .q, imm := true } f
  | .smov f => .sr { types := [0] } f
  | .smovi f => .sr { types := [3, 4], sa := .zero, imm := true } f
  | .sbfx f => .sr { types := [3, 4, 1, 2], sb := .s } f
  | .sbfi f => .sr { types := [20], sb := .s, sc := .s } f
  | .spopc f => .sr { types := [20, 0] } f
  | .sclz f => .sr { types := [20, 0] } f
  | .kset f => .sr { types := [0], sd := .k } f
  | .kget f => .sr { types := [0], sa := .k } f
  | .kpush f => .sr { types := [0], sd := .k, sa := .k, sb := .s, qd := .optional } f
  | .kpop f => .sr { types := [0], sd := .k, sa := .k, qd := .optional } f
  | .kswap f => .sr { types := [0], sd := .k, sa := .k, sb := .s, qd := .optional } f
  | .kdepth f => .sr { types := [0], sa := .k } f
  | .iadd f => .vr { types := (arithTypes ++ packedTypes), a := .reg .byT, b := .regU .byT, d := .reg .byT, sat := true } f
  | .iaddImm f => .vi { types := arithTypes ++ packedTypes, sat := true } f
  | .isub f => .vr { types := (arithTypes ++ packedTypes), a := .reg .byT, b := .regU .byT, d := .reg .byT, sat := true } f
  | .isubImm f => .vi { types := arithTypes ++ packedTypes, sat := true } f
  | .imul f => .vr { types := arithTypes, a := .reg .byT, b := .regU .byT, d := .reg .byT, sat := true } f
  | .imulImm f => .vi { types := arithTypes, sat := true } f
  | .imulh f => .vr { types := [1, 2, 3, 4], a := .reg .byT, b := .regU .byT, d := .reg .byT } f
  | .imad f => .vr { types := arithTypes, a := .reg .byT, b := .regU .byT, d := .reg .byT, c := .regU .byT, sat := true } f
  | .imadw f => .vr { types := [1, 2], a := .reg .one, b := .regU .one, c := .regU .pair, d := .reg .pair } f
  | .iaddc f => .vr { types := [2], a := .reg .one, b := .regU .one, c := .pred, d := .reg .one, pd := .optional } f
  | .ishl f => .vr { types := [2, 4], a := .reg .byT, b := .regU .one, d := .reg .byT } f
  | .ishlImm f => .vi { types := [2, 4] } f
  | .ishr f => .vr { types := [2, 4], a := .reg .byT, b := .regU .one, d := .reg .byT } f
  | .ishrImm f => .vi { types := [2, 4] } f
  | .isra f => .vr { types := [1, 3], a := .reg .byT, b := .regU .one, d := .reg .byT } f
  | .israImm f => .vi { types := [1, 3] } f
  | .ishf f => .vr { types := [0], a := .reg .one, b := .regU .one, c := .regU .one, d := .reg .one } f
  | .iand f => .vr { types := [0, 20], a := .reg .byT, b := .regU .byT, d := .reg .byT } f
  | .iandImm f => .vi { types := [0, 20] } f
  | .ior f => .vr { types := [0, 20], a := .reg .byT, b := .regU .byT, d := .reg .byT } f
  | .iorImm f => .vi { types := [0, 20] } f
  | .ixor f => .vr { types := [0, 20], a := .reg .byT, b := .regU .byT, d := .reg .byT } f
  | .ixorImm f => .vi { types := [0, 20] } f
  | .ilop3 f => .vr { types := [0, 20], a := .reg .byT, b := .reg .byT, c := .reg .byT, d := .reg .byT, u := .anyParam } f
  | .imin f => .vr { types := (arithTypes ++ packedTypes), a := .reg .byT, b := .regU .byT, d := .reg .byT } f
  | .iminImm f => .vi { types := arithTypes ++ packedTypes } f
  | .imax f => .vr { types := (arithTypes ++ packedTypes), a := .reg .byT, b := .regU .byT, d := .reg .byT } f
  | .imaxImm f => .vi { types := arithTypes ++ packedTypes } f
  | .iabs f => .vr { types := [1, 3, 5, 7, 18], a := .reg .byT, d := .reg .byT, sat := true } f
  | .icmp f => .vr { types := arithTypes, a := .reg .byT, b := .regU .byT, pd := .required, rm := .codes 6 } f
  | .isel f => .vr { types := [0, 20], a := .reg .byT, b := .regU .byT, d := .reg .byT, c := .pred } f
  | .ipopc f => .vr { types := [0, 20], a := .reg .byT, d := .reg .one } f
  | .iclz f => .vr { types := [0, 20], a := .reg .byT, d := .reg .one } f
  | .ibrev f => .vr { types := [0, 20], a := .reg .byT, d := .reg .byT } f
  | .ibfx f => .vr { types := [1, 2, 3, 4], a := .reg .byT, b := .regU .byT, d := .reg .byT } f
  | .ibfi f => .vr { types := [0, 20], a := .reg .byT, b := .regU .byT, c := .regU .byT, d := .reg .byT } f
  | .idot4 f => .vr { types := packedTypes, a := .reg .one, b := .regU .one, c := .regU .one, d := .reg .one, sat := true } f
  | .mov f => .vr { types := [0, 20, 21], a := .reg .byT, d := .reg .byT } f
  | .movs f => .vr { types := [0, 20], d := .reg .byT, u := .sreg } f
  | .prmt f => .vr { types := [0], a := .reg .one, b := .regU .one, c := .regU .one, d := .reg .one } f
  | .lea f => .vr { types := [1, 2], a := .reg .offsetPair, b := .regU .one, d := .reg .offsetPair, rm := .codes 8 } f
  | .movi f => .vi { types := [0, 1, 2, 3, 4], useA := false } f
  | .rdlane f => .vr { types := [0, 20], a := .reg .byT, b := .uOnly, d := .reg .byT, pd := .optional } f
  | .shflIdx f => .vr { types := [0, 20], a := .reg .byT, b := .regU .one, c := .regU .byT, d := .reg .byT, pd := .optional, rm := .codes 5 } f
  | .shflRot f => .vr { types := [0, 20], a := .reg .byT, b := .regU .one, c := .regU .byT, d := .reg .byT, pd := .optional, rm := .codes 5 } f
  | .shflShift f => .vr { types := [0, 20], a := .reg .byT, b := .regU .one, c := .regU .byT, d := .reg .byT, pd := .optional, rm := .codes 5 } f
  | .shflXor f => .vr { types := [0, 20], a := .reg .byT, b := .regU .one, c := .regU .byT, d := .reg .byT, pd := .optional, rm := .codes 5 } f
  | .xch f => .vr { types := [0, 20], a := .reg .byT, b := .uOnly, d := .reg .byT, pd := .optional } f
  | .xchTimeout => .event
  | .fadd f => .vr { types := floatTypes, a := .reg .byT, b := .regU .byT, d := .reg .byT, c := .srBits, pd := .optional, rm := .round, sat := true, na := true, nb := true, aa := true, ab := true } f
  | .faddImm f => .vi { types := floatTypes, rm := .roundData, sat := true } f
  | .fsub f => .vr { types := floatTypes, a := .reg .byT, b := .regU .byT, d := .reg .byT, c := .srBits, pd := .optional, rm := .round, sat := true, na := true, nb := true, aa := true, ab := true } f
  | .fsubImm f => .vi { types := floatTypes, rm := .roundData, sat := true } f
  | .fmul f => .vr { types := floatTypes, a := .reg .byT, b := .regU .byT, d := .reg .byT, c := .srBits, pd := .optional, rm := .round, sat := true, na := true, nb := true, aa := true, ab := true } f
  | .fmulImm f => .vi { types := floatTypes, rm := .roundData, sat := true } f
  | .ffma f => .vr { types := floatTypes, a := .reg .byT, b := .regU .byT, d := .reg .byT, c := .regU .byT, pd := .optional, rm := .roundData, sat := true, nc := true, na := true, nb := true, aa := true, ab := true } f
  | .fmin f => .vr { types := floatTypes, a := .reg .byT, b := .regU .byT, d := .reg .byT, pd := .optional, na := true, nb := true, aa := true, ab := true } f
  | .fminImm f => .vi { types := floatTypes } f
  | .fmax f => .vr { types := floatTypes, a := .reg .byT, b := .regU .byT, d := .reg .byT, pd := .optional, na := true, nb := true, aa := true, ab := true } f
  | .fmaxImm f => .vi { types := floatTypes } f
  | .fcmp f => .vr { types := scalarFloatTypes, a := .reg .byT, b := .regU .byT, pd := .required, rm := .codes 7, na := true, nb := true, aa := true, ab := true } f
  | .fclass f => .vr { types := scalarFloatTypes, a := .reg .byT, d := .reg .one } f
  | .frnd f => .vr { types := floatTypes, a := .reg .byT, c := .srBits, d := .reg .byT, pd := .optional, rm := .round, na := true, aa := true } f
  | .fscale f => .vr { types := floatTypes, a := .reg .byT, b := .regU .one, c := .srBits, d := .reg .byT, pd := .optional, rm := .round, sat := true, na := true, aa := true } f
  | .fdot2 f => .vr { types := [16, 17], a := .reg .one, b := .regU .one, c := .regU .one, d := .reg .one, pd := .optional, rm := .roundData, sat := true, na := true, nb := true, nc := true } f
  | .frcp f => .vr { types := [9, 10], a := .reg .byT, d := .reg .byT, pd := .optional, sat := true, na := true, aa := true } f
  | .frsq f => .vr { types := [9, 10], a := .reg .byT, d := .reg .byT, pd := .optional, sat := true, na := true, aa := true } f
  | .fsqrt f => .vr { types := scalarFloatTypes, a := .reg .byT, d := .reg .byT, pd := .optional, sat := true, na := true, aa := true, c := .srBits, rm := .round } f
  | .fdiv f => .vr { types := scalarFloatTypes, a := .reg .byT, b := .regU .byT, d := .reg .byT, c := .srBits, pd := .optional, rm := .round, sat := true, na := true, nb := true, aa := true, ab := true } f
  | .fexp2 f => .vr { types := approxTypes, a := .reg .byT, d := .reg .byT, pd := .optional, sat := true, na := true, aa := true } f
  | .flog2 f => .vr { types := approxTypes, a := .reg .byT, d := .reg .byT, pd := .optional, sat := true, na := true, aa := true } f
  | .fsin f => .vr { types := approxTypes, a := .reg .byT, d := .reg .byT, pd := .optional, sat := true, na := true, aa := true } f
  | .fcos f => .vr { types := approxTypes, a := .reg .byT, d := .reg .byT, pd := .optional, sat := true, na := true, aa := true } f
  | .ftanh f => .vr { types := approxTypes, a := .reg .byT, d := .reg .byT, sat := true, na := true, aa := true } f
  | .cvt f => .vr { types := cvtTypes, a := .reg .byU, c := .srReg, d := .reg .byT, pd := .optional, rm := .round, u := .param cvtTypes, sat := true } f
  | .cvtp f => .vr (cvtpSpec f) f
  | .cvtb f => .vr { types := [15], a := .reg .one, b := .reg .one, c := .srReg, d := .reg .one, pd := .optional, rm := .round, u := .param [9] } f
  | .cvtx f => .vr { types := [9, 11, 12], a := .reg .one, c := .srReg, d := .reg .one, pd := .optional, rm := .round, u := .param [15], sat := true } f
  | .ld f => .m (ldSpec [0, 1, 2, 3, 4]) f
  | .ldSx f => .m (ldSpec [0, 1]) f
  | .st f => .m { sz := [0, 1, 2, 3, 4], ord := stOrds, scp := allScopes, ch := allHints, d := .v } f
  | .ldu f => .m (lduSpec [0, 1, 2, 3]) f
  | .lduSx f => .m (lduSpec [0, 1]) f
  | .stu f => .m { guard := .uniform, sz := [0, 1, 2, 3], ord := stOrds, scp := allScopes, ch := allHints, d := .s, offV := false } f
  | .prf f => .m { spc := [0], ch := allHints } f
  | .mhint f => .m { spc := [0], ch := [0, 1, 2], c := .one } f
  | .cctlInv f => .m { spc := [0] } f
  | .cctlWb f => .m { spc := [0], sz := [1] } f
  | .cctlInvall f => .m { guard := .none, spc := [0], sz := [2], noAddr := true } f
  | .lds f => .m (ldsSpec [0, 1, 2, 3, 4]) f
  | .ldsSx f => .m (ldsSpec [0, 1]) f
  | .sts f => .m { spc := [1, 2], sz := [0, 1, 2, 3, 4], ord := stOrds, scp := spScopes, d := .v } f
  | .atomAdd f => .m (atomSpec .v) f
  | .atomAnd f => .m (atomSpec .v) f
  | .atomOr f => .m (atomSpec .v) f
  | .atomXor f => .m (atomSpec .v) f
  | .atomMinS f => .m (atomSpec .v) f
  | .atomMaxS f => .m (atomSpec .v) f
  | .atomMinU f => .m (atomSpec .v) f
  | .atomMaxU f => .m (atomSpec .v) f
  | .atomExch f => .m (atomSpec .v) f
  | .atomCas f => .m (atomSpec .cas) f
  | .atomInc f => .m (atomSpec .v) f
  | .atomDec f => .m (atomSpec .v) f
  | .atomFadd f => .m (atomSpec .v) f
  | .atomsAdd f => .m (atomsSpec .v) f
  | .atomsAnd f => .m (atomsSpec .v) f
  | .atomsOr f => .m (atomsSpec .v) f
  | .atomsXor f => .m (atomsSpec .v) f
  | .atomsMinS f => .m (atomsSpec .v) f
  | .atomsMaxS f => .m (atomsSpec .v) f
  | .atomsMinU f => .m (atomsSpec .v) f
  | .atomsMaxU f => .m (atomsSpec .v) f
  | .atomsExch f => .m (atomsSpec .v) f
  | .atomsCas f => .m (atomsSpec .cas) f
  | .atomsInc f => .m (atomsSpec .v) f
  | .atomsDec f => .m (atomsSpec .v) f
  | .atomsFadd f => .m (atomsSpec .v) f
  | .redAdd f => .m redSpec f
  | .redAnd f => .m redSpec f
  | .redOr f => .m redSpec f
  | .redXor f => .m redSpec f
  | .redMinS f => .m redSpec f
  | .redMaxS f => .m redSpec f
  | .redMinU f => .m redSpec f
  | .redMaxU f => .m redSpec f
  | .redFadd f => .m redSpec f
  | .updIadd32 f => .m (updSpec 2) f
  | .updIadd64 f => .m (updSpec 3) f
  | .updFadd32 f => .m (updSpec 2) f
  | .updFadd64 f => .m (updSpec 3) f
  | .updSmax32 f => .m (updSpec 2) f
  | .updSmin32 f => .m (updSpec 2) f
  | .updZmax32 f => .m (updSpec 2) f
  | .updZmin32 f => .m (updSpec 2) f
  | .updFmax32 f => .m (updSpec 2) f
  | .updFmin32 f => .m (updSpec 2) f
  | .updAnd64 f => .m (updSpec 3) f
  | .updOr64 f => .m (updSpec 3) f
  | .updXor64 f => .m (updSpec 3) f
  | .fence f => .m { guard := .none, spc := [0], ord := [2, 3, 4, 5], scp := allScopes, noAddr := true } f
  | .mxacq f => .mx { guard := .none, u := true } f
  | .mxacqPair f => .mx { guard := .none, u := true, pair := [true] } f
  | .mxrel f => .mx { guard := .none } f
  | .mxrdy f => .mx { guard := .none, slice := true, types := [0, 7, 8, 11, 12, 13, 14, 15] } f
  | .mma f => .mx { acc := true, slice := true, u := true, types := [0, 7, 8, 11, 12, 13, 14], pair := [false, true], ruza := true } f
  | .mmab f => .mx { acc := true, slice := true, u := true, types := [0, 15], pair := [false, true], ruza := true } f
  | .mxwait f => .mx { guard := .none } f
  | .mxrd f => .mx { acc := true, tile := true, u := true } f
  | .mxwr f => .mx { acc := true, tile := true, u := true } f
  | .mxzero f => .mx { acc := true, pair := [false, true] } f
  | .mxst f => .mx { acc := true, u := true, types := [0, 11, 12], pair := [false, true] } f
  | .mxtest f => .mx { guard := .none, u := true, pair := [false, true] } f
  | .mxOpRetire => .event
  | .cpyLd f => .e { guard := .uniform, a := .s, b := .s, u := .k, immHi := immAny } f false
  | .cpySt f => .e { guard := .uniform, a := .s, b := .s, u := .k, ebLo := 1, ebHi := 1, immHi := immAny } f false
  | .cpseal f => .e { d := .s, ebHi := 6 } f false
  | .cpwait f => .e { immOrReg := true, immHi := 16 } f false
  | .copyRequestDone => .event
  | .mcjoin f => .e { d := .s, a := .s, b := .s } f false
  | .mcleave f => .e { a := .s } f false
  | .mcld f => .e { d := .s, a := .s, b := .s, u := .k, immHi := immAny } f false
  | .heldEntryEnter => .event
  | .heldEntryTimer => .event
  | .fillDelivery => .event
  | .bar f => .e { ebLo := 2, ebHi := 7 } f false
  | .bara f => .e { ebLo := 2, ebHi := 7 } f false
  | .barw f => .e { ebLo := 2, ebHi := 7 } f false
  | .boinit f => .e { a := .s, b := .s, ebLo := 2, ebHi := 7 } f false
  | .boarr f => .e { d := .s, a := .s, immLo := 1, immHi := immAny } f false
  | .bowait f => .e { a := .s, b := .s } f false
  | .qinit f => .e { a := .s, immLo := 1, immHi := 4096 } f false
  | .qpush f => .e { a := .s, b := .s } f false
  | .qpop f => .e { d := .s, a := .s } f false
  | .waitc f => .e { immOrReg := true, ebHi := 5, immHi := 63 } f false
  | .waitw f => .e { d := .s, a := .s, b := .s, u := .k, ebHi := 5, immHi := 27 } f false
  | .watchWake => .event
  | .waitwPoll => .event
  | .waitwSaveThreshold => .event
  | .rgrow f => .e { immLo := 1, immHi := 16 } f false
  | .rshrink f => .e { immLo := 1, immHi := 16 } f false
  | .launch f => .e { d := .s, a := .s } f false
  | .sleepWake => .event
  | .spillMoveDone => .event
  | .lineRefetch => .event
  | .loadReply => .event
  | .storePerformed => .event
  | .spAccessDone => .event
  | .atomReply => .event
  | .redAck => .event
  | .prfAccept => .event
  | .tierLookup => .event
  | .l2MissFill => .event
  | .tokenRequest => .event
  | .persistentRequest => .event
  | .invalidationArrive => .event
  | .invalidationApply => .event
  | .l1DirtyWriteback => .event
  | .directoryGrant => .event
  | .invalidationAck => .event
  | .regionMerge => .event
  | .atomAtHome => .event
  | .switchCombine => .event
  | .decombine => .event
  | .lostsplit => .event
  | .retired => .event
  | .atomlost => .event
  | .atomlostTimeout => .event
  | .updOpen => .event
  | .lineClose => .event
  | .uCopyEvict => .event
  | .maquetteTest => .event
  | .blockRelease => .event
  | .queueDoorbell => .event
  | .queuePacketRead => .event
  | .queueErrClear => .event
  | .hostdone => .event
  | .hostPacket => .event
  | .copyPacket => .event
  | .dsqRead => .event
  | .dsqValidTimeout => .event
  | .blockPlace => .event
  | .affinityTimeout => .event
  | .saveRequest => .event
  | .blockSaved => .event
  | .blockResume => .event
  | .gangReserve => .event
  | .gangEvict => .event
  | .gangTimeout => .event
  | .workComplete => .event
  | .contextActivate => .event
  | .contextInvalidate => .event
  | .contextRetire => .event
  | .scorepadInterval => .event
  | .verdictRetry => .event
  | .verdictFail => .event
  | .verdictTimeout => .event
  | .hold => .event
  | .drain => .event
  | .drainTimeout => .event
  | .shoot => .event
  | .write => .event
  | .release => .event
  | .force => .event
  | .inval => .event
  | .wbScan => .event
  | .storageWriteDone => .event
  | .controlResend => .event
  | .domdead => .event
  | .late => .event
  | .dieReset => .event
  | .dieEvacuated => .event
  | .dieResetTimeout => .event
  | .egressWaitTimeout => .event
  | .flitCrcError => .event
  | .linkRetrain => .event
  | .linkdown => .event
  | .linepoison => .event
  | .pclr => .event
  | .spmark => .event
  | .coldStart => .event
  | .warmStart => .event
  | .moduleState => .event
  | .pdie => .event
  | .clgate => .event
  | .itripClear => .event
  | .thermalWarning => .event
  | .criticalThermalTrip => .event
  | .currentLimitTrip => .event
  | .spanPortEnable => .event
  | .revoke => .event
  | .revokeDeadline => .event
  | .flashPromote => .event
  | .versionReclaim => .event
  | .info => .event
  | .readlive => .event
  | .readret => .event
  | .ack => .event
  | .totals => .event
  | .health => .event
  | .ceiling => .event
  | .setmodid => .event
  | .start => .event
  | .mctpControl => .event
  | .getVersion => .event
  | .getCapabilities => .event
  | .negotiateAlgorithms => .event
  | .getDigests => .event
  | .getCertificate => .event
  | .challenge => .event
  | .getMeasurements => .event
  | .registerWrite => .event
  | .mainPowerLoss => .event
  | .evacuationTimeout => .event
  | .powerTransitionDone => .event
  | .linkTrained => .event
  | .aDieAccess => .event
  | .recoveryImageUpdate => .event
  | .flashDemotion => .event
  | .unsupportedRequest => .event
/-- An instruction whose every field holds a value its entry allows (R49); every event is well formed. -/
def Instr.wf (i : Instr) : Bool := i.row.ok

/-- The V register spans an instruction names (R28). -/
def Instr.spans (i : Instr) : List VSpan := i.row.spans

/-- Is this a Verric instruction, with an encoding, and not an event of the device? -/
def Instr.isCode (i : Instr) : Bool :=
  match i.row with
  | .event => false
  | _ => true

end Sys2Proof
end

