-- ==== Sys2Proof/Decode.lean ====
section
/-! DEFINITION. The 96 bits of an instruction and the instruction they stand for (R41, R48 to R61): a total decoder that
rejects by name, and the encoder, both written from the format tables. A form packs its fields, most significant first,
above the four common fields; the decoder takes the same fields out by position and tests the reserved bits. -/
namespace Sys2Proof

/-- The seven instruction formats (R50 to R56). -/
inductive Form where
  | vr
  | vi
  | sr
  | m
  | b
  | mx
  | e
  deriving DecidableEq, Repr

/-- Why 96 bits are no instruction: each raises UNDEF (R49, R60). -/
inductive DecodeError where
  /-- An opcode that R60 does not list, 0xFF among them. -/
  | reservedOpcode (op : Nat)
  /-- A function code that R60 does not list under its opcode. -/
  | reservedFunction (op fn : Nat)
  /-- A field marked reserved in the format is not zero (R49). -/
  | reservedBits (op fn : Nat)
  /-- A field holds a value the instruction's entry does not allow (R49, R57, R58). -/
  | illFormed (i : Instr)
  deriving DecidableEq, Repr

/-- The `w` bits of a code from bit `lo` up. -/
def Code.bits (c : Code) (lo w : Nat) : BitVec w := c.extractLsb' lo w

/-- One bit of a code. -/
def Code.bit (c : Code) (i : Nat) : Bool := c.getLsbD i

/-- The major opcode, bits [12:5] (R48). -/
def Code.op (c : Code) : Nat := (Code.bits c 5 8).toNat

/-- The function code, bits [16:13] (R48). -/
def Code.fn (c : Code) : Nat := (Code.bits c 13 4).toNat

/-- The common fields (R48). -/
def Code.common (c : Code) : Common := { sw := Code.bit c 0, pg := Code.bits c 1 3, pn := Code.bit c 4 }

/-- A truth value as one bit. -/
def bitOf (b : Bool) : BitVec 1 := BitVec.ofBool b

/-- The form's 79 bits above the function code, the opcode and the guard (R48). -/
def Common.pack (f : Common) (op fn : Nat) (upper : BitVec 79) : Code :=
  upper ++ BitVec.ofNat 4 fn ++ BitVec.ofNat 8 op ++ bitOf f.pn ++ f.pg ++ bitOf f.sw

/-- The VR form's bits (R50). -/
def VR.pack (f : VR) (op fn : Nat) : Code :=
  f.toCommon.pack op fn ((0 : BitVec 15) ++ f.pd ++ bitOf f.ru ++ bitOf f.cu ++ bitOf f.bu ++ bitOf f.ab ++ bitOf f.aa ++
    bitOf f.nc ++ bitOf f.nb ++ bitOf f.na ++ bitOf f.sat ++ f.rm ++ f.t ++ f.u ++ f.c ++ f.b ++ f.a ++ f.d)

/-- The VI form's bits (R51). -/
def VI.pack (f : VI) (op fn : Nat) : Code :=
  f.toCommon.pack op fn (f.imm ++ (0 : BitVec 20) ++ bitOf f.sat ++ f.rm ++ f.t ++ f.a ++ f.d)

/-- The SR form's bits (R52). -/
def SR.pack (f : SR) (op fn : Nat) : Code :=
  f.toCommon.pack op fn (f.imm ++ (0 : BitVec 7) ++ f.t ++ f.qd ++ f.sc ++ f.sb ++ f.sa ++ f.sd)

/-- The M form's bits (R53). -/
def MF.pack (f : MF) (op fn : Nat) : Code :=
  f.toCommon.pack op fn (f.disp ++ (0 : BitVec 1) ++ f.peer ++ f.spc ++ bitOf f.ow ++ f.ch ++ f.scp ++ f.ord ++ f.sz ++
    f.u ++ f.c ++ (0 : BitVec 9) ++ f.a ++ f.d)

/-- The B form's bits (R54). -/
def BF.pack (f : BF) (op fn : Nat) : Code :=
  f.toCommon.pack op fn ((0 : BitVec 11) ++ f.joff ++ f.off ++ (0 : BitVec 2) ++ f.a ++ (0 : BitVec 8) ++ bitOf f.uq)

/-- The MX form's bits (R55). -/
def MX.pack (f : MX) (op fn : Nat) : Code :=
  f.toCommon.pack op fn ((0 : BitVec 23) ++ bitOf f.za ++ bitOf f.ru ++ bitOf f.pair ++ f.ks ++ f.t ++ f.u ++
    (0 : BitVec 18) ++ f.a ++ (0 : BitVec 5) ++ f.acc)

/-- The E form's bits (R56). -/
def EF.pack (f : EF) (op fn : Nat) : Code :=
  f.toCommon.pack op fn (f.imm ++ f.eb ++ f.u ++ f.ea ++ f.b ++ f.a ++ f.d)

/-- The fields of the VR form by position (R50). -/
def VR.unpack (c : Code) : VR :=
  { toCommon := Code.common c, d := Code.bits c 17 9, a := Code.bits c 26 9, b := Code.bits c 35 9, c := Code.bits c 44 9,
    u := Code.bits c 53 8, t := Code.bits c 61 5, rm := Code.bits c 66 3, sat := Code.bit c 69, na := Code.bit c 70,
    nb := Code.bit c 71, nc := Code.bit c 72, aa := Code.bit c 73, ab := Code.bit c 74, bu := Code.bit c 75,
    cu := Code.bit c 76, ru := Code.bit c 77, pd := Code.bits c 78 3 }

/-- The fields of the VI form by position (R51). -/
def VI.unpack (c : Code) : VI :=
  { toCommon := Code.common c, d := Code.bits c 17 9, a := Code.bits c 26 9, t := Code.bits c 35 5, rm := Code.bits c 40 3,
    sat := Code.bit c 43, imm := Code.bits c 64 32 }

/-- The fields of the SR form by position (R52). -/
def SR.unpack (c : Code) : SR :=
  { toCommon := Code.common c, sd := Code.bits c 17 8, sa := Code.bits c 25 8, sb := Code.bits c 33 8,
    sc := Code.bits c 41 8, qd := Code.bits c 49 3, t := Code.bits c 52 5, imm := Code.bits c 64 32 }

/-- The fields of the M form by position (R53). -/
def MF.unpack (c : Code) : MF :=
  { toCommon := Code.common c, d := Code.bits c 17 9, a := Code.bits c 26 9, c := Code.bits c 44 9, u := Code.bits c 53 8,
    sz := Code.bits c 61 3, ord := Code.bits c 64 3, scp := Code.bits c 67 3, ch := Code.bits c 70 2, ow := Code.bit c 72,
    spc := Code.bits c 73 2, peer := Code.bits c 75 2, disp := Code.bits c 78 18 }

/-- The fields of the B form by position (R54). -/
def BF.unpack (c : Code) : BF :=
  { toCommon := Code.common c, uq := Code.bit c 17, a := Code.bits c 26 9, off := Code.bits c 37 24,
    joff := Code.bits c 61 24 }

/-- The fields of the MX form by position (R55). -/
def MX.unpack (c : Code) : MX :=
  { toCommon := Code.common c, acc := Code.bits c 17 4, a := Code.bits c 26 9, u := Code.bits c 53 8, t := Code.bits c 61 5,
    ks := Code.bits c 66 4, pair := Code.bit c 70, ru := Code.bit c 71, za := Code.bit c 72 }

/-- The fields of the E form by position (R56). -/
def EF.unpack (c : Code) : EF :=
  { toCommon := Code.common c, d := Code.bits c 17 9, a := Code.bits c 26 9, b := Code.bits c 35 9, ea := Code.bits c 44 9,
    u := Code.bits c 53 8, eb := Code.bits c 61 3, imm := Code.bits c 64 32 }

/-- The reserved bits of each form are zero (R49, and the rows marked reserved in R50 to R55). -/
def Form.reservedZero (fm : Form) (c : Code) : Bool :=
  match fm with
  | .vr => Code.bits c 81 15 == 0
  | .vi => Code.bits c 44 20 == 0
  | .sr => Code.bits c 57 7 == 0
  | .m => Code.bits c 77 1 == 0 && Code.bits c 35 9 == 0
  | .b => Code.bits c 85 11 == 0 && Code.bits c 35 2 == 0 && Code.bits c 18 8 == 0
  | .mx => Code.bits c 73 23 == 0 && Code.bits c 35 18 == 0 && Code.bits c 21 5 == 0
  | .e => true

/-- The form of each assigned major opcode (R60); every other opcode is reserved. -/
def formOf : Nat → Option Form
  | 0x00 => some .e
  | 0x01 => some .b
  | 0x02 => some .vr
  | 0x03 => some .e
  | 0x20 => some .sr
  | 0x21 => some .sr
  | 0x22 => some .sr
  | 0x23 => some .sr
  | 0x40 => some .vr
  | 0x41 => some .vr
  | 0x42 => some .vi
  | 0x43 => some .vi
  | 0x44 => some .vr
  | 0x60 => some .vr
  | 0x61 => some .vr
  | 0x62 => some .vi
  | 0x63 => some .vr
  | 0x80 => some .m
  | 0x81 => some .m
  | 0xA0 => some .m
  | 0xA1 => some .m
  | 0xA2 => some .m
  | 0xA3 => some .m
  | 0xA4 => some .m
  | 0xB0 => some .mx
  | 0xC0 => some .e
  | 0xC1 => some .e
  | 0xD0 => some .e
  | 0xD1 => some .e
  | 0xD2 => some .e
  | 0xD3 => some .e
  | 0xE0 => some .e
  | _ => none

/-- The VR-form instruction of an opcode and a function code (R60). -/
def vrInstr (op fn : Nat) (f : VR) : Option Instr :=
  match op, fn with
  | 0x02, 0 => some (.elect f)
  | 0x02, 1 => some (.voteOr f)
  | 0x02, 2 => some (.voteAnd f)
  | 0x02, 3 => some (.voteMask f)
  | 0x02, 4 => some (.voteSame f)
  | 0x02, 5 => some (.voteRank f)
  | 0x40, 0 => some (.iadd f)
  | 0x40, 1 => some (.isub f)
  | 0x40, 2 => some (.imul f)
  | 0x40, 3 => some (.imulh f)
  | 0x40, 4 => some (.imad f)
  | 0x40, 5 => some (.imadw f)
  | 0x40, 6 => some (.iaddc f)
  | 0x40, 7 => some (.ishl f)
  | 0x40, 8 => some (.ishr f)
  | 0x40, 9 => some (.isra f)
  | 0x40, 10 => some (.ishf f)
  | 0x40, 11 => some (.iand f)
  | 0x40, 12 => some (.ior f)
  | 0x40, 13 => some (.ixor f)
  | 0x40, 14 => some (.ilop3 f)
  | 0x40, 15 => some (.imin f)
  | 0x41, 0 => some (.imax f)
  | 0x41, 1 => some (.iabs f)
  | 0x41, 2 => some (.icmp f)
  | 0x41, 3 => some (.isel f)
  | 0x41, 4 => some (.ipopc f)
  | 0x41, 5 => some (.iclz f)
  | 0x41, 6 => some (.ibrev f)
  | 0x41, 7 => some (.ibfx f)
  | 0x41, 8 => some (.ibfi f)
  | 0x41, 9 => some (.idot4 f)
  | 0x41, 10 => some (.mov f)
  | 0x41, 11 => some (.movs f)
  | 0x41, 12 => some (.prmt f)
  | 0x41, 13 => some (.lea f)
  | 0x44, 0 => some (.rdlane f)
  | 0x44, 1 => some (.shflIdx f)
  | 0x44, 2 => some (.shflRot f)
  | 0x44, 3 => some (.shflShift f)
  | 0x44, 4 => some (.shflXor f)
  | 0x44, 5 => some (.xch f)
  | 0x60, 0 => some (.fadd f)
  | 0x60, 1 => some (.fsub f)
  | 0x60, 2 => some (.fmul f)
  | 0x60, 3 => some (.ffma f)
  | 0x60, 4 => some (.fmin f)
  | 0x60, 5 => some (.fmax f)
  | 0x60, 6 => some (.fcmp f)
  | 0x60, 7 => some (.fclass f)
  | 0x60, 8 => some (.frnd f)
  | 0x60, 9 => some (.fscale f)
  | 0x60, 10 => some (.fdot2 f)
  | 0x61, 0 => some (.frcp f)
  | 0x61, 1 => some (.frsq f)
  | 0x61, 2 => some (.fsqrt f)
  | 0x61, 3 => some (.fdiv f)
  | 0x61, 4 => some (.fexp2 f)
  | 0x61, 5 => some (.flog2 f)
  | 0x61, 6 => some (.fsin f)
  | 0x61, 7 => some (.fcos f)
  | 0x61, 8 => some (.ftanh f)
  | 0x63, 0 => some (.cvt f)
  | 0x63, 1 => some (.cvtp f)
  | 0x63, 2 => some (.cvtb f)
  | 0x63, 3 => some (.cvtx f)
  | _, _ => none

/-- The VI-form instruction of an opcode and a function code (R60). -/
def viInstr (op fn : Nat) (f : VI) : Option Instr :=
  match op, fn with
  | 0x42, 0 => some (.iaddImm f)
  | 0x42, 1 => some (.isubImm f)
  | 0x42, 2 => some (.imulImm f)
  | 0x42, 7 => some (.ishlImm f)
  | 0x42, 8 => some (.ishrImm f)
  | 0x42, 9 => some (.israImm f)
  | 0x42, 11 => some (.iandImm f)
  | 0x42, 12 => some (.iorImm f)
  | 0x42, 13 => some (.ixorImm f)
  | 0x42, 15 => some (.iminImm f)
  | 0x43, 0 => some (.movi f)
  | 0x43, 1 => some (.imaxImm f)
  | 0x62, 0 => some (.faddImm f)
  | 0x62, 1 => some (.fsubImm f)
  | 0x62, 2 => some (.fmulImm f)
  | 0x62, 4 => some (.fminImm f)
  | 0x62, 5 => some (.fmaxImm f)
  | _, _ => none

/-- The SR-form instruction of an opcode and a function code (R60). -/
def srInstr (op fn : Nat) (f : SR) : Option Instr :=
  match op, fn with
  | 0x20, 0 => some (.sadd f)
  | 0x20, 1 => some (.ssub f)
  | 0x20, 2 => some (.smul f)
  | 0x20, 3 => some (.smulh f)
  | 0x20, 4 => some (.sdiv f)
  | 0x20, 5 => some (.srem f)
  | 0x20, 6 => some (.sand f)
  | 0x20, 7 => some (.sor f)
  | 0x20, 8 => some (.sxor f)
  | 0x20, 9 => some (.sshl f)
  | 0x20, 10 => some (.sshr f)
  | 0x20, 11 => some (.ssra f)
  | 0x20, 12 => some (.smin f)
  | 0x20, 13 => some (.smax f)
  | 0x20, 14 => some (.scmp f)
  | 0x20, 15 => some (.ssel f)
  | 0x21, 0 => some (.saddImm f)
  | 0x21, 1 => some (.ssubImm f)
  | 0x21, 2 => some (.smulImm f)
  | 0x21, 3 => some (.smulhImm f)
  | 0x21, 4 => some (.sdivImm f)
  | 0x21, 5 => some (.sremImm f)
  | 0x21, 6 => some (.sandImm f)
  | 0x21, 7 => some (.sorImm f)
  | 0x21, 8 => some (.sxorImm f)
  | 0x21, 9 => some (.sshlImm f)
  | 0x21, 10 => some (.sshrImm f)
  | 0x21, 11 => some (.ssraImm f)
  | 0x21, 12 => some (.sminImm f)
  | 0x21, 13 => some (.smaxImm f)
  | 0x21, 14 => some (.scmpImm f)
  | 0x21, 15 => some (.sselImm f)
  | 0x22, 0 => some (.smov f)
  | 0x22, 1 => some (.smovi f)
  | 0x22, 2 => some (.sbfx f)
  | 0x22, 3 => some (.sbfi f)
  | 0x22, 4 => some (.spopc f)
  | 0x22, 5 => some (.sclz f)
  | 0x23, 0 => some (.kset f)
  | 0x23, 1 => some (.kget f)
  | 0x23, 2 => some (.kpush f)
  | 0x23, 3 => some (.kpop f)
  | 0x23, 4 => some (.kswap f)
  | 0x23, 5 => some (.kdepth f)
  | _, _ => none

/-- The M-form instruction of an opcode and a function code (R60). -/
def mInstr (op fn : Nat) (f : MF) : Option Instr :=
  match op, fn with
  | 0x80, 0 => some (.ld f)
  | 0x80, 1 => some (.ldSx f)
  | 0x80, 2 => some (.st f)
  | 0x80, 3 => some (.ldu f)
  | 0x80, 4 => some (.lduSx f)
  | 0x80, 5 => some (.stu f)
  | 0x80, 6 => some (.prf f)
  | 0x80, 7 => some (.mhint f)
  | 0x80, 8 => some (if f.sz == 0 then .cctlInv f else if f.sz == 1 then .cctlWb f else .cctlInvall f)
  | 0x81, 0 => some (.lds f)
  | 0x81, 1 => some (.ldsSx f)
  | 0x81, 2 => some (.sts f)
  | 0xA0, 0 => some (.atomAdd f)
  | 0xA0, 1 => some (.atomAnd f)
  | 0xA0, 2 => some (.atomOr f)
  | 0xA0, 3 => some (.atomXor f)
  | 0xA0, 4 => some (.atomMinS f)
  | 0xA0, 5 => some (.atomMaxS f)
  | 0xA0, 6 => some (.atomMinU f)
  | 0xA0, 7 => some (.atomMaxU f)
  | 0xA0, 8 => some (.atomExch f)
  | 0xA0, 9 => some (.atomCas f)
  | 0xA0, 10 => some (.atomInc f)
  | 0xA0, 11 => some (.atomDec f)
  | 0xA0, 12 => some (.atomFadd f)
  | 0xA1, 0 => some (.atomsAdd f)
  | 0xA1, 1 => some (.atomsAnd f)
  | 0xA1, 2 => some (.atomsOr f)
  | 0xA1, 3 => some (.atomsXor f)
  | 0xA1, 4 => some (.atomsMinS f)
  | 0xA1, 5 => some (.atomsMaxS f)
  | 0xA1, 6 => some (.atomsMinU f)
  | 0xA1, 7 => some (.atomsMaxU f)
  | 0xA1, 8 => some (.atomsExch f)
  | 0xA1, 9 => some (.atomsCas f)
  | 0xA1, 10 => some (.atomsInc f)
  | 0xA1, 11 => some (.atomsDec f)
  | 0xA1, 12 => some (.atomsFadd f)
  | 0xA2, 0 => some (.redAdd f)
  | 0xA2, 1 => some (.redAnd f)
  | 0xA2, 2 => some (.redOr f)
  | 0xA2, 3 => some (.redXor f)
  | 0xA2, 4 => some (.redMinS f)
  | 0xA2, 5 => some (.redMaxS f)
  | 0xA2, 6 => some (.redMinU f)
  | 0xA2, 7 => some (.redMaxU f)
  | 0xA2, 12 => some (.redFadd f)
  | 0xA3, 1 => some (.updIadd32 f)
  | 0xA3, 2 => some (.updIadd64 f)
  | 0xA3, 3 => some (.updFadd32 f)
  | 0xA3, 4 => some (.updFadd64 f)
  | 0xA3, 5 => some (.updSmax32 f)
  | 0xA3, 6 => some (.updSmin32 f)
  | 0xA3, 7 => some (.updZmax32 f)
  | 0xA3, 8 => some (.updZmin32 f)
  | 0xA3, 9 => some (.updFmax32 f)
  | 0xA3, 10 => some (.updFmin32 f)
  | 0xA3, 11 => some (.updAnd64 f)
  | 0xA3, 12 => some (.updOr64 f)
  | 0xA3, 13 => some (.updXor64 f)
  | 0xA4, 0 => some (.fence f)
  | _, _ => none

/-- The B-form instruction of an opcode and a function code (R60). -/
def bInstr (op fn : Nat) (f : BF) : Option Instr :=
  match op, fn with
  | 0x01, 0 => some (.bra f)
  | 0x01, 1 => some (.brc f)
  | 0x01, 2 => some (.brx f)
  | 0x01, 3 => some (.call f)
  | 0x01, 4 => some (.callx f)
  | 0x01, 5 => some (.ret f)
  | 0x01, 6 => some (.loops f)
  | _, _ => none

/-- The MX-form instruction of an opcode and a function code (R60). -/
def mxInstr (op fn : Nat) (f : MX) : Option Instr :=
  match op, fn with
  | 0xB0, 0 => some (if f.pair then .mxacqPair f else .mxacq f)
  | 0xB0, 1 => some (.mxrel f)
  | 0xB0, 2 => some (.mxrdy f)
  | 0xB0, 3 => some (.mma f)
  | 0xB0, 4 => some (.mmab f)
  | 0xB0, 5 => some (.mxwait f)
  | 0xB0, 6 => some (.mxrd f)
  | 0xB0, 7 => some (.mxwr f)
  | 0xB0, 8 => some (.mxzero f)
  | 0xB0, 9 => some (.mxst f)
  | 0xB0, 10 => some (.mxtest f)
  | _, _ => none

/-- The E-form instruction of an opcode and a function code (R60). -/
def eInstr (op fn : Nat) (f : EF) : Option Instr :=
  match op, fn with
  | 0x00, 0 => some (.nop f)
  | 0x00, 1 => some (.exit f)
  | 0x00, 2 => some (.kill f)
  | 0x00, 3 => some (.trap f)
  | 0x00, 4 => some (.eret f)
  | 0x00, 5 => some (.brk f)
  | 0x00, 6 => some (.sleep f)
  | 0x00, 7 => some (.pmark f)
  | 0x03, 0 => some (.rdsrV f)
  | 0x03, 1 => some (.rdsrS f)
  | 0x03, 2 => some (.wrsr f)
  | 0x03, 3 => some (.fmtset f)
  | 0x03, 4 => some (.fmtget f)
  | 0xC0, 0 => some (if f.eb == 0 then .cpyLd f else .cpySt f)
  | 0xC0, 1 => some (.cpseal f)
  | 0xC0, 2 => some (.cpwait f)
  | 0xC1, 0 => some (.mcjoin f)
  | 0xC1, 1 => some (.mcleave f)
  | 0xC1, 2 => some (.mcld f)
  | 0xD0, 0 => some (.bar f)
  | 0xD0, 1 => some (.bara f)
  | 0xD0, 2 => some (.barw f)
  | 0xD1, 0 => some (.boinit f)
  | 0xD1, 1 => some (.boarr f)
  | 0xD1, 2 => some (.bowait f)
  | 0xD2, 0 => some (.qinit f)
  | 0xD2, 1 => some (.qpush f)
  | 0xD2, 2 => some (.qpop f)
  | 0xD3, 0 => some (.waitc f)
  | 0xD3, 1 => some (.waitw f)
  | 0xE0, 0 => some (.rgrow f)
  | 0xE0, 1 => some (.rshrink f)
  | 0xE0, 2 => some (.launch f)
  | 0xE0, 3 => some (.yield f)
  | _, _ => none

/-- The instruction a code names before its fields are judged: opcode, function code and fields (R48, R60). -/
def rawDecode (fm : Form) (c : Code) : Option Instr :=
  match fm with
  | .vr => vrInstr (Code.op c) (Code.fn c) (VR.unpack c)
  | .vi => viInstr (Code.op c) (Code.fn c) (VI.unpack c)
  | .sr => srInstr (Code.op c) (Code.fn c) (SR.unpack c)
  | .m => mInstr (Code.op c) (Code.fn c) (MF.unpack c)
  | .b => bInstr (Code.op c) (Code.fn c) (BF.unpack c)
  | .mx => mxInstr (Code.op c) (Code.fn c) (MX.unpack c)
  | .e => eInstr (Code.op c) (Code.fn c) (EF.unpack c)

/-- The decoder, total on any 96 bits: opcode, function code, reserved bits, then the fields of the entry (R49, R60). -/
def decode (c : Code) : Except DecodeError Instr :=
  match formOf (Code.op c) with
  | none => .error (.reservedOpcode (Code.op c))
  | some fm =>
    match rawDecode fm c with
    | none => .error (.reservedFunction (Code.op c) (Code.fn c))
    | some i =>
      if fm.reservedZero c then
        if i.wf then .ok i else .error (.illFormed i)
      else .error (.reservedBits (Code.op c) (Code.fn c))

/-- Bytes at ascending addresses as one number, the first the least significant (R41). -/
def leNat : List Byte → Nat
  | [] => 0
  | b :: rest => b.toNat + 256 * leNat rest

/-- A number's low `n` bytes, the least significant first (R41). -/
def leBytes : Nat → Nat → List Byte
  | 0, _ => []
  | n + 1, v => BitVec.ofNat 8 v :: leBytes n (v / 256)

/-- The decoder over the twelve bytes of a slot, byte j holding instruction bits [8j + 7:8j] (R41). -/
def decodeBytes (bytes : List Byte) : Except DecodeError Instr := decode (BitVec.ofNat 96 (leNat (bytes.take 12)))

/-- The instruction the decoder reads from the bits `w` of one table row: 96 bits, the first byte the least significant
(R41); bits at and above `nbits` are zero. -/
def decodeTableWord (nbits w : Nat) : Option Instr :=
  match decodeBytes (leBytes 12 (w % 2 ^ nbits)) with
  | .ok i => some i
  | .error _ => none

/-- The encoder: the 96 bits of an instruction, by its opcode, function code and form (R48 to R56, R60). An event has none. -/
def encode : Instr → Option Code
  | .nop f => some (f.pack 0x00 0)
  | .exit f => some (f.pack 0x00 1)
  | .kill f => some (f.pack 0x00 2)
  | .trap f => some (f.pack 0x00 3)
  | .eret f => some (f.pack 0x00 4)
  | .brk f => some (f.pack 0x00 5)
  | .sleep f => some (f.pack 0x00 6)
  | .pmark f => some (f.pack 0x00 7)
  | .bra f => some (f.pack 0x01 0)
  | .brc f => some (f.pack 0x01 1)
  | .brx f => some (f.pack 0x01 2)
  | .call f => some (f.pack 0x01 3)
  | .callx f => some (f.pack 0x01 4)
  | .ret f => some (f.pack 0x01 5)
  | .loops f => some (f.pack 0x01 6)
  | .elect f => some (f.pack 0x02 0)
  | .voteOr f => some (f.pack 0x02 1)
  | .voteAnd f => some (f.pack 0x02 2)
  | .voteMask f => some (f.pack 0x02 3)
  | .voteSame f => some (f.pack 0x02 4)
  | .voteRank f => some (f.pack 0x02 5)
  | .rdsrV f => some (f.pack 0x03 0)
  | .rdsrS f => some (f.pack 0x03 1)
  | .wrsr f => some (f.pack 0x03 2)
  | .fmtset f => some (f.pack 0x03 3)
  | .fmtget f => some (f.pack 0x03 4)
  | .yield f => some (f.pack 0xE0 3)
  | .sadd f => some (f.pack 0x20 0)
  | .saddImm f => some (f.pack 0x21 0)
  | .ssub f => some (f.pack 0x20 1)
  | .ssubImm f => some (f.pack 0x21 1)
  | .smul f => some (f.pack 0x20 2)
  | .smulImm f => some (f.pack 0x21 2)
  | .smulh f => some (f.pack 0x20 3)
  | .smulhImm f => some (f.pack 0x21 3)
  | .sdiv f => some (f.pack 0x20 4)
  | .sdivImm f => some (f.pack 0x21 4)
  | .srem f => some (f.pack 0x20 5)
  | .sremImm f => some (f.pack 0x21 5)
  | .sand f => some (f.pack 0x20 6)
  | .sandImm f => some (f.pack 0x21 6)
  | .sor f => some (f.pack 0x20 7)
  | .sorImm f => some (f.pack 0x21 7)
  | .sxor f => some (f.pack 0x20 8)
  | .sxorImm f => some (f.pack 0x21 8)
  | .sshl f => some (f.pack 0x20 9)
  | .sshlImm f => some (f.pack 0x21 9)
  | .sshr f => some (f.pack 0x20 10)
  | .sshrImm f => some (f.pack 0x21 10)
  | .ssra f => some (f.pack 0x20 11)
  | .ssraImm f => some (f.pack 0x21 11)
  | .smin f => some (f.pack 0x20 12)
  | .sminImm f => some (f.pack 0x21 12)
  | .smax f => some (f.pack 0x20 13)
  | .smaxImm f => some (f.pack 0x21 13)
  | .scmp f => some (f.pack 0x20 14)
  | .scmpImm f => some (f.pack 0x21 14)
  | .ssel f => some (f.pack 0x20 15)
  | .sselImm f => some (f.pack 0x21 15)
  | .smov f => some (f.pack 0x22 0)
  | .smovi f => some (f.pack 0x22 1)
  | .sbfx f => some (f.pack 0x22 2)
  | .sbfi f => some (f.pack 0x22 3)
  | .spopc f => some (f.pack 0x22 4)
  | .sclz f => some (f.pack 0x22 5)
  | .kset f => some (f.pack 0x23 0)
  | .kget f => some (f.pack 0x23 1)
  | .kpush f => some (f.pack 0x23 2)
  | .kpop f => some (f.pack 0x23 3)
  | .kswap f => some (f.pack 0x23 4)
  | .kdepth f => some (f.pack 0x23 5)
  | .iadd f => some (f.pack 0x40 0)
  | .iaddImm f => some (f.pack 0x42 0)
  | .isub f => some (f.pack 0x40 1)
  | .isubImm f => some (f.pack 0x42 1)
  | .imul f => some (f.pack 0x40 2)
  | .imulImm f => some (f.pack 0x42 2)
  | .imulh f => some (f.pack 0x40 3)
  | .imad f => some (f.pack 0x40 4)
  | .imadw f => some (f.pack 0x40 5)
  | .iaddc f => some (f.pack 0x40 6)
  | .ishl f => some (f.pack 0x40 7)
  | .ishlImm f => some (f.pack 0x42 7)
  | .ishr f => some (f.pack 0x40 8)
  | .ishrImm f => some (f.pack 0x42 8)
  | .isra f => some (f.pack 0x40 9)
  | .israImm f => some (f.pack 0x42 9)
  | .ishf f => some (f.pack 0x40 10)
  | .iand f => some (f.pack 0x40 11)
  | .iandImm f => some (f.pack 0x42 11)
  | .ior f => some (f.pack 0x40 12)
  | .iorImm f => some (f.pack 0x42 12)
  | .ixor f => some (f.pack 0x40 13)
  | .ixorImm f => some (f.pack 0x42 13)
  | .ilop3 f => some (f.pack 0x40 14)
  | .imin f => some (f.pack 0x40 15)
  | .iminImm f => some (f.pack 0x42 15)
  | .imax f => some (f.pack 0x41 0)
  | .imaxImm f => some (f.pack 0x43 1)
  | .iabs f => some (f.pack 0x41 1)
  | .icmp f => some (f.pack 0x41 2)
  | .isel f => some (f.pack 0x41 3)
  | .ipopc f => some (f.pack 0x41 4)
  | .iclz f => some (f.pack 0x41 5)
  | .ibrev f => some (f.pack 0x41 6)
  | .ibfx f => some (f.pack 0x41 7)
  | .ibfi f => some (f.pack 0x41 8)
  | .idot4 f => some (f.pack 0x41 9)
  | .mov f => some (f.pack 0x41 10)
  | .movs f => some (f.pack 0x41 11)
  | .prmt f => some (f.pack 0x41 12)
  | .lea f => some (f.pack 0x41 13)
  | .movi f => some (f.pack 0x43 0)
  | .rdlane f => some (f.pack 0x44 0)
  | .shflIdx f => some (f.pack 0x44 1)
  | .shflRot f => some (f.pack 0x44 2)
  | .shflShift f => some (f.pack 0x44 3)
  | .shflXor f => some (f.pack 0x44 4)
  | .xch f => some (f.pack 0x44 5)
  | .xchTimeout => none
  | .fadd f => some (f.pack 0x60 0)
  | .faddImm f => some (f.pack 0x62 0)
  | .fsub f => some (f.pack 0x60 1)
  | .fsubImm f => some (f.pack 0x62 1)
  | .fmul f => some (f.pack 0x60 2)
  | .fmulImm f => some (f.pack 0x62 2)
  | .ffma f => some (f.pack 0x60 3)
  | .fmin f => some (f.pack 0x60 4)
  | .fminImm f => some (f.pack 0x62 4)
  | .fmax f => some (f.pack 0x60 5)
  | .fmaxImm f => some (f.pack 0x62 5)
  | .fcmp f => some (f.pack 0x60 6)
  | .fclass f => some (f.pack 0x60 7)
  | .frnd f => some (f.pack 0x60 8)
  | .fscale f => some (f.pack 0x60 9)
  | .fdot2 f => some (f.pack 0x60 10)
  | .frcp f => some (f.pack 0x61 0)
  | .frsq f => some (f.pack 0x61 1)
  | .fsqrt f => some (f.pack 0x61 2)
  | .fdiv f => some (f.pack 0x61 3)
  | .fexp2 f => some (f.pack 0x61 4)
  | .flog2 f => some (f.pack 0x61 5)
  | .fsin f => some (f.pack 0x61 6)
  | .fcos f => some (f.pack 0x61 7)
  | .ftanh f => some (f.pack 0x61 8)
  | .cvt f => some (f.pack 0x63 0)
  | .cvtp f => some (f.pack 0x63 1)
  | .cvtb f => some (f.pack 0x63 2)
  | .cvtx f => some (f.pack 0x63 3)
  | .ld f => some (f.pack 0x80 0)
  | .ldSx f => some (f.pack 0x80 1)
  | .st f => some (f.pack 0x80 2)
  | .ldu f => some (f.pack 0x80 3)
  | .lduSx f => some (f.pack 0x80 4)
  | .stu f => some (f.pack 0x80 5)
  | .prf f => some (f.pack 0x80 6)
  | .mhint f => some (f.pack 0x80 7)
  | .cctlInv f => some (f.pack 0x80 8)
  | .cctlWb f => some (f.pack 0x80 8)
  | .cctlInvall f => some (f.pack 0x80 8)
  | .lds f => some (f.pack 0x81 0)
  | .ldsSx f => some (f.pack 0x81 1)
  | .sts f => some (f.pack 0x81 2)
  | .atomAdd f => some (f.pack 0xA0 0)
  | .atomAnd f => some (f.pack 0xA0 1)
  | .atomOr f => some (f.pack 0xA0 2)
  | .atomXor f => some (f.pack 0xA0 3)
  | .atomMinS f => some (f.pack 0xA0 4)
  | .atomMaxS f => some (f.pack 0xA0 5)
  | .atomMinU f => some (f.pack 0xA0 6)
  | .atomMaxU f => some (f.pack 0xA0 7)
  | .atomExch f => some (f.pack 0xA0 8)
  | .atomCas f => some (f.pack 0xA0 9)
  | .atomInc f => some (f.pack 0xA0 10)
  | .atomDec f => some (f.pack 0xA0 11)
  | .atomFadd f => some (f.pack 0xA0 12)
  | .atomsAdd f => some (f.pack 0xA1 0)
  | .atomsAnd f => some (f.pack 0xA1 1)
  | .atomsOr f => some (f.pack 0xA1 2)
  | .atomsXor f => some (f.pack 0xA1 3)
  | .atomsMinS f => some (f.pack 0xA1 4)
  | .atomsMaxS f => some (f.pack 0xA1 5)
  | .atomsMinU f => some (f.pack 0xA1 6)
  | .atomsMaxU f => some (f.pack 0xA1 7)
  | .atomsExch f => some (f.pack 0xA1 8)
  | .atomsCas f => some (f.pack 0xA1 9)
  | .atomsInc f => some (f.pack 0xA1 10)
  | .atomsDec f => some (f.pack 0xA1 11)
  | .atomsFadd f => some (f.pack 0xA1 12)
  | .redAdd f => some (f.pack 0xA2 0)
  | .redAnd f => some (f.pack 0xA2 1)
  | .redOr f => some (f.pack 0xA2 2)
  | .redXor f => some (f.pack 0xA2 3)
  | .redMinS f => some (f.pack 0xA2 4)
  | .redMaxS f => some (f.pack 0xA2 5)
  | .redMinU f => some (f.pack 0xA2 6)
  | .redMaxU f => some (f.pack 0xA2 7)
  | .redFadd f => some (f.pack 0xA2 12)
  | .updIadd32 f => some (f.pack 0xA3 1)
  | .updIadd64 f => some (f.pack 0xA3 2)
  | .updFadd32 f => some (f.pack 0xA3 3)
  | .updFadd64 f => some (f.pack 0xA3 4)
  | .updSmax32 f => some (f.pack 0xA3 5)
  | .updSmin32 f => some (f.pack 0xA3 6)
  | .updZmax32 f => some (f.pack 0xA3 7)
  | .updZmin32 f => some (f.pack 0xA3 8)
  | .updFmax32 f => some (f.pack 0xA3 9)
  | .updFmin32 f => some (f.pack 0xA3 10)
  | .updAnd64 f => some (f.pack 0xA3 11)
  | .updOr64 f => some (f.pack 0xA3 12)
  | .updXor64 f => some (f.pack 0xA3 13)
  | .fence f => some (f.pack 0xA4 0)
  | .mxacq f => some (f.pack 0xB0 0)
  | .mxacqPair f => some (f.pack 0xB0 0)
  | .mxrel f => some (f.pack 0xB0 1)
  | .mxrdy f => some (f.pack 0xB0 2)
  | .mma f => some (f.pack 0xB0 3)
  | .mmab f => some (f.pack 0xB0 4)
  | .mxwait f => some (f.pack 0xB0 5)
  | .mxrd f => some (f.pack 0xB0 6)
  | .mxwr f => some (f.pack 0xB0 7)
  | .mxzero f => some (f.pack 0xB0 8)
  | .mxst f => some (f.pack 0xB0 9)
  | .mxtest f => some (f.pack 0xB0 10)
  | .mxOpRetire => none
  | .cpyLd f => some (f.pack 0xC0 0)
  | .cpySt f => some (f.pack 0xC0 0)
  | .cpseal f => some (f.pack 0xC0 1)
  | .cpwait f => some (f.pack 0xC0 2)
  | .copyRequestDone => none
  | .mcjoin f => some (f.pack 0xC1 0)
  | .mcleave f => some (f.pack 0xC1 1)
  | .mcld f => some (f.pack 0xC1 2)
  | .heldEntryEnter => none
  | .heldEntryTimer => none
  | .fillDelivery => none
  | .bar f => some (f.pack 0xD0 0)
  | .bara f => some (f.pack 0xD0 1)
  | .barw f => some (f.pack 0xD0 2)
  | .boinit f => some (f.pack 0xD1 0)
  | .boarr f => some (f.pack 0xD1 1)
  | .bowait f => some (f.pack 0xD1 2)
  | .qinit f => some (f.pack 0xD2 0)
  | .qpush f => some (f.pack 0xD2 1)
  | .qpop f => some (f.pack 0xD2 2)
  | .waitc f => some (f.pack 0xD3 0)
  | .waitw f => some (f.pack 0xD3 1)
  | .watchWake => none
  | .waitwPoll => none
  | .waitwSaveThreshold => none
  | .rgrow f => some (f.pack 0xE0 0)
  | .rshrink f => some (f.pack 0xE0 1)
  | .launch f => some (f.pack 0xE0 2)
  | .sleepWake => none
  | .spillMoveDone => none
  | .lineRefetch => none
  | .loadReply => none
  | .storePerformed => none
  | .spAccessDone => none
  | .atomReply => none
  | .redAck => none
  | .prfAccept => none
  | .tierLookup => none
  | .l2MissFill => none
  | .tokenRequest => none
  | .persistentRequest => none
  | .invalidationArrive => none
  | .invalidationApply => none
  | .l1DirtyWriteback => none
  | .directoryGrant => none
  | .invalidationAck => none
  | .regionMerge => none
  | .atomAtHome => none
  | .switchCombine => none
  | .decombine => none
  | .lostsplit => none
  | .retired => none
  | .atomlost => none
  | .atomlostTimeout => none
  | .updOpen => none
  | .lineClose => none
  | .uCopyEvict => none
  | .maquetteTest => none
  | .blockRelease => none
  | .queueDoorbell => none
  | .queuePacketRead => none
  | .queueErrClear => none
  | .hostdone => none
  | .hostPacket => none
  | .copyPacket => none
  | .dsqRead => none
  | .dsqValidTimeout => none
  | .blockPlace => none
  | .affinityTimeout => none
  | .saveRequest => none
  | .blockSaved => none
  | .blockResume => none
  | .gangReserve => none
  | .gangEvict => none
  | .gangTimeout => none
  | .workComplete => none
  | .contextActivate => none
  | .contextInvalidate => none
  | .contextRetire => none
  | .scorepadInterval => none
  | .verdictRetry => none
  | .verdictFail => none
  | .verdictTimeout => none
  | .hold => none
  | .drain => none
  | .drainTimeout => none
  | .shoot => none
  | .write => none
  | .release => none
  | .force => none
  | .inval => none
  | .wbScan => none
  | .storageWriteDone => none
  | .controlResend => none
  | .domdead => none
  | .late => none
  | .dieReset => none
  | .dieEvacuated => none
  | .dieResetTimeout => none
  | .egressWaitTimeout => none
  | .flitCrcError => none
  | .linkRetrain => none
  | .linkdown => none
  | .linepoison => none
  | .pclr => none
  | .spmark => none
  | .coldStart => none
  | .warmStart => none
  | .moduleState => none
  | .pdie => none
  | .clgate => none
  | .itripClear => none
  | .thermalWarning => none
  | .criticalThermalTrip => none
  | .currentLimitTrip => none
  | .spanPortEnable => none
  | .revoke => none
  | .revokeDeadline => none
  | .flashPromote => none
  | .versionReclaim => none
  | .info => none
  | .readlive => none
  | .readret => none
  | .ack => none
  | .totals => none
  | .health => none
  | .ceiling => none
  | .setmodid => none
  | .start => none
  | .mctpControl => none
  | .getVersion => none
  | .getCapabilities => none
  | .negotiateAlgorithms => none
  | .getDigests => none
  | .getCertificate => none
  | .challenge => none
  | .getMeasurements => none
  | .registerWrite => none
  | .mainPowerLoss => none
  | .evacuationTimeout => none
  | .powerTransitionDone => none
  | .linkTrained => none
  | .aDieAccess => none
  | .recoveryImageUpdate => none
  | .flashDemotion => none
  | .unsupportedRequest => none

end Sys2Proof
end

