-- ==== Sys2Proof/Machine/Numeric.lean ====
section
/-! DEFINITION. Number formats, exact values, one rounding (R63 to R76): integers by type, floating-point codes as exact values,
the arithmetic of exact values with its signed zeros and NaNs, rounding into a format by every rounding code, saturation. -/
namespace Sys2Proof.Machine

/-! ## Integers -/

/-- The width of an integer type code (R57, R63). -/
def intWidth : Nat → Nat
  | 3 | 4 | 20 => 64
  | 5 | 6 => 16
  | 7 | 8 | 18 | 19 => 8
  | _ => 32

/-- Is an integer type signed (R57)? -/
def intSigned : Nat → Bool
  | 1 | 3 | 5 | 7 | 18 => true
  | _ => false

/-- The low `w` bits of a number, read as two's complement when signed (R63). -/
def readInt (w : Nat) (sg : Bool) (x : Nat) : Int :=
  let y := x % 2 ^ w
  if sg && decide (2 ^ (w - 1) ≤ y) then (y : Int) - (2 ^ w : Nat) else (y : Int)

/-- A number modulo 2^w. -/
def modBits (w : Nat) (v : Int) : Nat := (v % ((2 ^ w : Nat) : Int)).toNat

/-- The least value of an integer type. -/
def intMin (w : Nat) (sg : Bool) : Int := if sg then -((2 ^ (w - 1) : Nat) : Int) else 0
/-- The greatest value of an integer type. -/
def intMax (w : Nat) (sg : Bool) : Int := if sg then ((2 ^ (w - 1) : Nat) : Int) - 1 else ((2 ^ w : Nat) : Int) - 1

/-- The clamp of R64 and R74 to an integer range. -/
def clampInt (w : Nat) (sg : Bool) (v : Int) : Int := min (max v (intMin w sg)) (intMax w sg)

/-- An integer result as R63 writes it to its lane or pair: narrow types extend to the whole lane; a 64-bit type fills its
pair. `w` is the type's width. -/
def laneInt (w : Nat) (sg : Bool) (v : Int) : Nat :=
  let out := if w = 64 then 64 else 32
  modBits out (readInt w sg (modBits w v))

/-- An integer result: exact, then clamped when saturating, else modulo 2^w (R64). -/
def intResult (t : Nat) (sat : Bool) (v : Int) : Nat :=
  let w := intWidth t
  let sg := intSigned t
  laneInt w sg (if sat then clampInt w sg v else v)

/-! ## Exact values -/

/-- An exact value: a NaN with the sign of its source, a signed infinity, or ±num / den × 2^exp with den > 0; zero keeps
its sign (R66, R69, R76). -/
inductive Val where
  | nan (neg : Bool)
  | inf (neg : Bool)
  | fin (neg : Bool) (num den : Nat) (exp : Int)
  deriving DecidableEq, Repr

/-- An exact zero with a sign. -/
def Val.zero (neg : Bool) : Val := .fin neg 0 1 0

/-- An integer as an exact value. -/
def Val.ofInt (v : Int) : Val := .fin (decide (v < 0)) v.natAbs 1 0

/-- Is the value a NaN? -/
def Val.isNan : Val → Bool
  | .nan _ => true
  | _ => false

/-- Is the value a zero? -/
def Val.isZero : Val → Bool
  | .fin _ n _ _ => n == 0
  | _ => false

/-- Is the value infinite? -/
def Val.isInf : Val → Bool
  | .inf _ => true
  | _ => false

/-- The sign bit of a value. -/
def Val.neg? : Val → Bool
  | .nan s => s
  | .inf s => s
  | .fin s _ _ _ => s

/-- The negated value. -/
def Val.negate : Val → Val
  | .nan s => .nan (!s)
  | .inf s => .inf (!s)
  | .fin s n d e => .fin (!s) n d e

/-- The absolute value. -/
def Val.abs : Val → Val
  | .nan _ => .nan false
  | .inf _ => .inf false
  | .fin _ n d e => .fin false n d e

/-- The value times 2^k. -/
def Val.scale (k : Int) : Val → Val
  | .fin s n d e => .fin s n d (e + k)
  | v => v

/-- A power of two times a number, the exponent not negative. -/
def shl (n : Nat) (e : Int) : Nat := n * 2 ^ e.toNat

/-- Two finite magnitudes over one denominator and exponent: numerators, denominator, exponent. -/
def align (n1 d1 : Nat) (e1 : Int) (n2 d2 : Nat) (e2 : Int) : Nat × Nat × Nat × Int :=
  let e := min e1 e2
  (shl n1 (e1 - e) * d2, shl n2 (e2 - e) * d1, d1 * d2, e)

/-- A signed numerator. -/
def signedNum (s : Bool) (n : Nat) : Int := if s then -(n : Int) else (n : Int)

/-- The exact sum. `rd`: rounding toward −∞ is in force, which gives −0 where a sum of unlike zeros or of cancelling
addends is zero (R69). ∞ − ∞ is a NaN (R68). -/
def Val.add (rd : Bool) : Val → Val → Val
  | .nan _, _ => .nan false
  | _, .nan _ => .nan false
  | .inf a, .inf b => if a = b then .inf a else .nan false
  | .inf a, _ => .inf a
  | _, .inf b => .inf b
  | .fin s1 n1 d1 e1, .fin s2 n2 d2 e2 =>
    if n1 = 0 ∧ n2 = 0 ∧ s1 = s2 then .zero s1
    else
      let (a, b, d, e) := align n1 d1 e1 n2 d2 e2
      let v := signedNum s1 a + signedNum s2 b
      if v = 0 then .zero rd else .fin (decide (v < 0)) v.natAbs d e

/-- The exact product; 0 × ∞ is a NaN (R68); a zero takes the exclusive-or of the signs (R69). -/
def Val.mul : Val → Val → Val
  | .nan _, _ => .nan false
  | _, .nan _ => .nan false
  | .inf a, .inf b => .inf (a != b)
  | .inf a, .fin b n _ _ => if n = 0 then .nan false else .inf (a != b)
  | .fin a n _ _, .inf b => if n = 0 then .nan false else .inf (a != b)
  | .fin s1 n1 d1 e1, .fin s2 n2 d2 e2 => .fin (s1 != s2) (n1 * n2) (d1 * d2) (e1 + e2)

/-- The exact quotient; 0 / 0 and ∞ / ∞ are NaNs; a finite value over zero is ∞ (R68, R80). -/
def Val.div : Val → Val → Val
  | .nan _, _ => .nan false
  | _, .nan _ => .nan false
  | .inf _, .inf _ => .nan false
  | .inf a, .fin b _ _ _ => .inf (a != b)
  | .fin a _ _ _, .inf b => .zero (a != b)
  | .fin s1 n1 d1 e1, .fin s2 n2 d2 e2 =>
    if n2 = 0 then (if n1 = 0 then .nan false else .inf (s1 != s2))
    else .fin (s1 != s2) (n1 * d2) (d1 * n2) (e1 - e2)

/-- Compares two values that are not NaNs. -/
def Val.cmp : Val → Val → Ordering
  | .inf a, .inf b => if a = b then .eq else if a then .lt else .gt
  | .inf a, _ => if a then .lt else .gt
  | _, .inf b => if b then .gt else .lt
  | .fin s1 n1 d1 e1, .fin s2 n2 d2 e2 =>
    let (a, b, _, _) := align n1 d1 e1 n2 d2 e2
    compare (signedNum s1 a) (signedNum s2 b)
  | .nan _, _ => .eq
  | _, .nan _ => .eq

/-- The least `r` with r * r > n, less one: the integer square root, by bits from the top, `fuel` of them. -/
def isqrtAux (n : Nat) : Nat → Nat → Nat
  | 0, r => r
  | k + 1, r => let t := r + 2 ^ k; isqrtAux n k (if t * t ≤ n then t else r)

/-- The integer square root. -/
def isqrt (n : Nat) : Nat := isqrtAux n (Nat.log2 n / 2 + 1) 0

/-- The square root, exact where it is a rational of this form, and otherwise a value that every rounding of R71 takes as it
takes the root: 160 bits of it with a sticky half unit below. A value below zero gives a NaN; ±0 keeps its sign (R68, R69). -/
def Val.sqrt : Val → Val
  | .nan _ => .nan false
  | .inf s => if s then .nan false else .inf false
  | .fin s n d e =>
    if n = 0 then .zero s
    else if s then .nan false
    else
      let k : Nat := 160 + Nat.log2 d
      -- n / d * 2^e = (n * d * 2^(2k + p)) / d^2 * 2^(e - p - 2k), with e - p even
      let p : Nat := (e % 2).toNat
      let m := n * d * 2 ^ (2 * k + p)
      let q := isqrt m
      let e' : Int := (e - p) / 2 - k
      if q * q = m then .fin false q d e' else .fin false (2 * q + 1) d (e' - 1)

/-! ## Floating-point formats -/

/-- A floating-point format (R66): mantissa bits, exponent bits, bias; the largest finite magnitude code; whether the codes
above it are one infinity and NaNs, or as e4m3 a NaN alone, or as e2m1 nothing. -/
structure Fmt where
  mant : Nat
  expo : Nat
  bias : Nat
  maxCode : Nat
  infs : Bool
  deriving DecidableEq, Repr

/-- The format of a type code; packed types have their element's (R57, R66). -/
def fmtOf : Nat → Fmt
  | 10 => { mant := 52, expo := 11, bias := 1023, maxCode := 0x7FEFFFFFFFFFFFFF, infs := true }
  | 11 | 16 => { mant := 10, expo := 5, bias := 15, maxCode := 0x7BFF, infs := true }
  | 12 | 17 => { mant := 7, expo := 8, bias := 127, maxCode := 0x7F7F, infs := true }
  | 13 => { mant := 3, expo := 4, bias := 7, maxCode := 0x7E, infs := false }
  | 14 => { mant := 2, expo := 5, bias := 15, maxCode := 0x7B, infs := true }
  | 15 => { mant := 1, expo := 2, bias := 1, maxCode := 7, infs := false }
  | _ => { mant := 23, expo := 8, bias := 127, maxCode := 0x7F7FFFFF, infs := true }

/-- The bits of a code of the format. -/
def Fmt.width (f : Fmt) : Nat := 1 + f.expo + f.mant

/-- The value of a magnitude code below the special ones: m × 2^q with the hidden bit (R66). -/
def Fmt.magVal (f : Fmt) (neg : Bool) (c : Nat) : Val :=
  let e := c / 2 ^ f.mant
  let m := c % 2 ^ f.mant
  if e = 0 then .fin neg m 1 (1 - (f.bias : Int) - f.mant)
  else .fin neg (m + 2 ^ f.mant) 1 ((e : Int) - f.bias - f.mant)

/-- WidenExact of a floating-point code (R75, R76). -/
def Fmt.widen (f : Fmt) (x : Nat) : Val :=
  let neg := decide (x / 2 ^ (f.expo + f.mant) % 2 = 1)
  let c := x % 2 ^ (f.expo + f.mant)
  if c ≤ f.maxCode then f.magVal neg c
  else if f.infs && c == f.maxCode + 1 then .inf neg
  else .nan neg

/-- Is the code a signalling NaN: a NaN whose top mantissa bit is 0 (R80)? e4m3's one NaN code is quiet. -/
def Fmt.snan (f : Fmt) (x : Nat) : Bool :=
  (f.widen x).isNan && f.infs && x / 2 ^ (f.mant - 1) % 2 == 0

/-- The canonical NaN of the format with a sign (R68). -/
def Fmt.nanCode (f : Fmt) (neg : Bool) : Nat :=
  (if neg then 2 ^ (f.expo + f.mant) else 0) +
    (if f.infs then f.maxCode + 1 + 2 ^ (f.mant - 1) else f.maxCode + 1)

/-- The sign bit of a code, in place. -/
def Fmt.signBit (f : Fmt) (neg : Bool) : Nat := if neg then 2 ^ (f.expo + f.mant) else 0

/-- The largest finite value of the format. -/
def Fmt.maxVal (f : Fmt) (neg : Bool) : Val := f.magVal neg f.maxCode

/-- The exponent of the binade of n / d × 2^e: the greatest l with 2^l ≤ it. -/
def floorLog2 (n d : Nat) (e : Int) : Int :=
  let l : Int := (Nat.log2 n : Int) - Nat.log2 d
  let low := if 0 ≤ l then decide (n < shl d l) else decide (shl n (-l) < d)
  (if low then l - 1 else l) + e

/-- Does a magnitude between two neighbours go up, away from zero (R71)? `t` is the lower one's integer, `r / d` the fraction
above it; `k` and `rho` the random bits of SR. -/
def roundUp (rm : Nat) (neg : Bool) (t r d k rho : Nat) : Bool :=
  match rm with
  | 0 => decide (d < 2 * r) || (2 * r == d && t % 2 == 1)
  | 1 => false
  | 2 => r != 0 && !neg
  | 3 => r != 0 && neg
  | 4 => decide (d ≤ 2 * r)
  | _ => decide (2 ^ k ≤ r * 2 ^ k / d + rho)

/-- The integer a magnitude n / d × 2^e becomes in units of 2^q: the rounded integer, and whether it is exact (R71). -/
def roundMag (rm : Nat) (neg : Bool) (n d : Nat) (e q : Int) (k rho : Nat) : Nat × Bool :=
  let a := if 0 ≤ e - q then shl n (e - q) else n
  let b := if 0 ≤ e - q then d else shl d (q - e)
  let t := a / b
  let r := a % b
  (if roundUp rm neg t r b k rho then t + 1 else t, r == 0)

/-- The conditions of R80. -/
structure Conds where
  inv : Bool
  dz : Bool
  ovf : Bool
  unf : Bool
  inx : Bool
  deriving DecidableEq, Repr

/-- No condition. -/
def Conds.none : Conds := { inv := false, dz := false, ovf := false, unf := false, inx := false }

/-- The union of two sets of conditions. -/
def Conds.or (a b : Conds) : Conds :=
  { inv := a.inv || b.inv, dz := a.dz || b.dz, ovf := a.ovf || b.ovf, unf := a.unf || b.unf, inx := a.inx || b.inx }

/-- The overflow result of R72, as a code with its sign. -/
def Fmt.overflow (f : Fmt) (rm : Nat) (neg : Bool) : Nat :=
  f.signBit neg +
    (if f.infs then
      (match rm with
        | 1 => f.maxCode
        | 2 => if neg then f.maxCode else f.maxCode + 1
        | 3 => if neg then f.maxCode + 1 else f.maxCode
        | _ => f.maxCode + 1)
    else if f.mant = 1 then f.maxCode else f.maxCode + 1)

/-- RoundTo into a floating-point format (R71, R72, R76), with OVF, UNF and INX of the unsaturated result. -/
def Fmt.round (f : Fmt) (rm : Nat) (k rho : Nat) (v : Val) : Nat × Conds :=
  match v with
  | .nan s => (f.nanCode s, .none)
  | .inf s =>
    if f.infs then (f.signBit s + f.maxCode + 1, .none) else (f.overflow rm s, { Conds.none with ovf := true, inx := true })
  | .fin s n d e =>
    if n = 0 then (f.signBit s, .none)
    else
      let qmin : Int := 1 - (f.bias : Int) - f.mant
      let q := max (floorLog2 n d e - f.mant) qmin
      let (m, exact) := roundMag rm s n d e q k rho
      let code := (q - qmin).toNat * 2 ^ f.mant + m
      if f.maxCode < code then (f.overflow rm s, { Conds.none with ovf := true, inx := true })
      else (f.signBit s + code, { Conds.none with unf := !exact && decide (code < 2 ^ f.mant), inx := !exact })

/-- Saturate of R76: the clamp to the finite range of a format, before rounding; whether it changed the value. -/
def Fmt.saturate (f : Fmt) (v : Val) : Val × Bool :=
  match v with
  | .nan _ => (v, false)
  | .inf s => (f.maxVal s, true)
  | .fin s _ _ _ => if (v.abs.cmp (f.maxVal false)) == .gt then (f.maxVal s, true) else (v, false)

/-- RoundTo(Saturate(v)) when saturating, else RoundTo(v): the code and the conditions of R80, OVF judged before any
saturation and INX on the delivered result. -/
def Fmt.deliver (f : Fmt) (sat : Bool) (rm k rho : Nat) (v : Val) : Nat × Conds :=
  let (c, fl) := f.round rm k rho v
  if sat then
    let (w, moved) := f.saturate v
    let (c', fl') := f.round rm k rho w
    if moved then (c', { fl with inx := true }) else (c', { fl' with ovf := fl.ovf, inx := fl'.inx })
  else (c, fl)

/-- RoundTo into an integer type (R73): always clamped; INV and INX as R80 gives. -/
def roundInt (w : Nat) (sg : Bool) (rm k rho : Nat) (v : Val) : Int × Conds :=
  match v with
  | .nan _ => (0, { Conds.none with inv := true })
  | .inf s => (if s then intMin w sg else intMax w sg, { Conds.none with inv := true, inx := true })
  | .fin s n d e =>
    let (m, exact) := roundMag rm s n d e 0 k rho
    let x := signedNum s m
    let y := clampInt w sg x
    (y, { Conds.none with inv := decide (x ≠ y), inx := !exact || decide (x ≠ y) })

/-- The sum of two codes of one format, rounded by RNE: FADD of R154, R159 and R259. -/
def faddCode (t : Nat) (x y : Nat) : Nat :=
  let f := fmtOf t
  let v := Val.add false (f.widen x) (f.widen y)
  (f.round 0 0 0 (match v with
    | .nan _ => .nan false
    | w => w)).1

/-- The decoded value of an e2m1 element in its block (R70). The NaN of a block whose SCALE is 0xFF has sign 0 (assumption 22). -/
def decodeE2M1 (c spec scale : Nat) (bspe : Bool) : Val :=
  if scale = 0xFF then .nan false
  else if c = 8 ∧ bspe then ((fmtOf 13).widen spec).scale ((scale : Int) - 127)
  else ((fmtOf 15).widen c).scale ((scale : Int) - 127)

end Sys2Proof.Machine
end

