-- ==== Sys2Proof/Machine/FloatOps.lean ====
section
/-! DEFINITION. Choices between floating-point codes (R129 to R131), the operator of an atomic (R154) and of an update-only tag
(R159), on the bits of one element. -/
namespace Sys2Proof.Machine
open Sys2Proof

/-- Is the code a NaN of its format? -/
def isNanCode (t x : Nat) : Bool := ((fmtOf t).widen x).isNan

/-- The sign of a code. -/
def codeNeg (t x : Nat) : Bool := decide (x / 2 ^ ((fmtOf t).width - 1) % 2 = 1)

/-- Is the code x below y in the order of R129: by value, −0 below +0? Neither is a NaN. -/
def codeLess (t x y : Nat) : Bool :=
  let a := (fmtOf t).widen x
  let b := (fmtOf t).widen y
  match a.cmp b with
  | .lt => true
  | .gt => false
  | .eq => codeNeg t x && !codeNeg t y

/-- FMIN and FMAX of two codes (R129): one NaN yields to the other operand, two give the canonical NaN. -/
def fPick (t : Nat) (wantMax : Bool) (x y : Nat) : Nat :=
  if isNanCode t x then (if isNanCode t y then (fmtOf t).nanCode false else y)
  else if isNanCode t y then x
  else if codeLess t x y == wantMax then y else x

/-- The width in bits and the identity of an update-only tag (R159). -/
def updWidth : Nat → Nat
  | 2 | 4 | 11 | 12 | 13 => 64
  | _ => 32

/-- The identity element of a tag (R159). -/
def updIdentity : Nat → Nat
  | 3 => 0x80000000
  | 4 => 0x8000000000000000
  | 5 => 0x80000000
  | 6 => 0x7FFFFFFF
  | 8 => 0xFFFFFFFF
  | 9 | 10 => 0x7FC00000
  | 11 => 0xFFFFFFFFFFFFFFFF
  | _ => 0

/-- Does a signed or unsigned order place x below y? -/
def intLess (w : Nat) (sg : Bool) (x y : Nat) : Bool := decide (readInt w sg x < readInt w sg y)

/-- The operator of a tag (R159): sums, minima and maxima, bitwise operators. -/
def updOp (tag x y : Nat) : Nat :=
  match tag with
  | 1 => (x + y) % 2 ^ 32
  | 2 => (x + y) % 2 ^ 64
  | 3 => faddCode 9 x y
  | 4 => faddCode 10 x y
  | 5 => if intLess 32 true x y then y else x
  | 6 => if intLess 32 true y x then y else x
  | 7 => if intLess 32 false x y then y else x
  | 8 => if intLess 32 false y x then y else x
  | 9 => fPick 9 true x y
  | 10 => fPick 9 false x y
  | 11 => x &&& y
  | 12 => x ||| y
  | _ => x ^^^ y

end Sys2Proof.Machine
end

