-- ==== Sys2Proof/Machine/Sparse.lean ====
section
/-! DEFINITION. A sparse store of words by number, in one canonical form: numbers strictly rising, no entry equal to what an
unlisted number reads as, which is zero. Memory, the register files, the scratchpads and the MMIO registers are such stores. -/
namespace Sys2Proof.Machine

/-- The value at a number; an unlisted number reads zero. -/
def Sparse.get {w : Nat} : Sparse w → Nat → BitVec w
  | [], _ => 0
  | (k, v) :: rest, n => if k = n then v else Sparse.get rest n

/-- Puts a value at a number, in place. -/
def Sparse.put {w : Nat} : Sparse w → Nat → BitVec w → Sparse w
  | [], n, x => [(n, x)]
  | (k, v) :: rest, n, x =>
    if k = n then (n, x) :: rest else if n < k then (n, x) :: (k, v) :: rest else (k, v) :: Sparse.put rest n x

/-- Writes a value at a number; writing zero removes the entry. -/
def Sparse.set {w : Nat} (m : Sparse w) (n : Nat) (x : BitVec w) : Sparse w :=
  if x = 0 then m.filter (fun e => e.1 != n) else Sparse.put m n x

/-- The canonical form above a lower bound. -/
def Sparse.wfFrom {w : Nat} : Nat → Sparse w → Bool
  | _, [] => true
  | lo, (k, v) :: rest => decide (lo ≤ k) && v != 0 && Sparse.wfFrom (k + 1) rest

/-- The canonical form: numbers strictly rising, no zero entry. -/
def Sparse.wf {w : Nat} (m : Sparse w) : Bool := Sparse.wfFrom 0 m

/-- Writes a run of values at successive numbers. -/
def Sparse.setMany {w : Nat} (m : Sparse w) (n : Nat) : List (BitVec w) → Sparse w
  | [] => m
  | x :: rest => Sparse.setMany (Sparse.set m n x) (n + 1) rest

/-- Reads a run of values at successive numbers. -/
def Sparse.getMany {w : Nat} (m : Sparse w) (n : Nat) : Nat → List (BitVec w)
  | 0 => []
  | c + 1 => Sparse.get m n :: Sparse.getMany m (n + 1) c

/-- Zeroes the entries at and above `n`, and below `hi`. -/
def Sparse.clearRange {w : Nat} (m : Sparse w) (n hi : Nat) : Sparse w := m.filter (fun e => e.1 < n || hi ≤ e.1)

end Sys2Proof.Machine
end

