-- ==== Sys2Proof/Config.lean ====
section
/-! DEFINITION. What the spec leaves open and the model fixes nowhere: uninterpreted constants, applied to State.turn or to
operands, and the kind of a move. No proof can see a value of them. -/
namespace Sys2Proof

/-- What happens next in the machine (assumption 3): time passes (a count of ac for each die, and of fc), a quadrant of a core
issues one instruction or one pair (R235), an instruction that a slot is parked in goes on (R232), or an event of the opcode table
comes about, with its operands. -/
inductive Move where
  | pass (acs : List Nat) (fc : Nat)
  | quad (core q : Nat)
  | resume (gid : Nat) (slot : SlotName)
  | event (i : Instr) (args : List Nat)
  deriving DecidableEq, Repr

/-- The machine's next move where the agenda names none: the interleaving of its agents, the latencies, the outside
world (assumption 3). A free value. -/
opaque Config.freeMove (turn : Nat) : List Move

/-- A free choice by a step, among several a rule allows: the turn, what is chosen, and which of them (assumptions 3, 4).
A free value. -/
opaque Config.pick (turn what which : Nat) : Nat

/-- A free 64-bit value: an undefined result, by the turn and the place it goes to (assumption 8). A free value. -/
opaque Config.freeWord (turn place : Nat) : DWord

/-- The rounded approximations of R132 that the spec bounds and does not fix, by function number, format and operand bits
(assumption 7). A free value. -/
opaque Config.approx (fn fmt bits : Nat) : Nat

/-- How many sets the L1 has, as a power of two up to 2,048, and the set of a name's offset; the set of a physical line in its L2 slice
(R246, R249, R408; assumption 3). Free values. -/
opaque Config.l1Log : Nat
opaque Config.l1Index (off : Nat) : Nat
opaque Config.l2Index (line : Nat) : Nat

/-- The digest of a byte string: SHA3-256 and its standard lie outside the spec (R316, R406; assumption 11). -/
opaque Config.sha3 (bytes : List Byte) : List Byte

/-- Does an ML-DSA-44 signature of a message verify under a public key, as FIPS 204 gives (R316; assumption 11)? -/
opaque Config.verifies (key sig message : List Byte) : Bool

/-- The four key digests in the F-die's fuses, none where the revoke fuse is blown (R316; assumption 11). -/
opaque Config.fusedKey (i : Nat) : Option (List Byte)

/-- The fused minimum security version of a KIND (R316; assumption 11). -/
opaque Config.minSvn (kind : Nat) : Nat

/-- The ML-DSA signature of a byte string under the part's identity key (R406; assumption 11). -/
opaque Config.sign (bytes : List Byte) : List Byte

/-- The certificate chain of slot 0, provisioned at manufacture (R406; assumption 11). -/
opaque Config.certChain : List Byte

end Sys2Proof
end

