-- ==== Sys2Proof/Machine/State.lean ====
section
/-! DEFINITION. The whole state of an L9 module as plain data (R24, R86, R232, R233 and the register tables of the driver's
chapters), the reasons a step can stop, and the state right after reset. -/
namespace Sys2Proof.Machine

/-! ## The group -/

/-- A register cell that an instruction writes: one lane of a V register, an S or K register, one lane of P, a Q. -/
inductive Cell where
  | v (r lane : Nat)
  | s (r : Nat)
  | k (r : Nat)
  | p (r lane : Nat)
  | q (r : Nat)
  deriving DecidableEq, Repr

/-- A value a register cell held before a result that may still be pending: a read without a marker may return it (R14,
R59). `lanes` are the lanes the writing instruction was issued for; `paired`: the writer is the first of a pair whose second
instruction has yet to read its sources, which are the old values (R47). -/
structure Stale where
  cell : Cell
  lanes : Mask
  old : DWord
  paired : Bool
  deriving DecidableEq, Repr

/-- A spill-stack entry (R40): where the pushed side resumes, its join, its lanes, its FMT; whether the core caches it,
and its place in the order of pushes (R87). -/
structure Spill where
  rpc : Pc
  jpc : Pc
  mask : Mask
  fmt : Word
  cached : Bool
  stamp : Nat
  deriving DecidableEq, Repr

/-- The hidden state of a slot in trap mode (R96, R99, R100): the mask and the two depths at entry, the PC written to S180, the cause that is
being handled. -/
structure TrapMode where
  mask : Mask
  rets : Nat
  spills : Nat
  pc : Pc
  cause : Nat
  deriving DecidableEq, Repr

/-- R86: run, park (at the pair join) and free. -/
inductive SlotState where
  | run
  | park
  | free
  deriving DecidableEq, Repr

/-- What a parked slot waits for (R232). -/
inductive Cond where
  /-- WAITC: the counter of a path is at most `n` (R205). -/
  | counter (p : Path) (n : Nat)
  /-- FENCE and a release access: earlier loads written (`acq`), earlier stores performed at scope `scp` (`rel`), of
  the accesses issued before `turn` (R162, R265). -/
  | fence (acq rel : Bool) (scp : Nat) (turn : Nat)
  /-- SLEEP: until the die's ac count (R93). -/
  | clock (ac : Nat)
  /-- BAR, BARW, a second BARA: the level's phase is past `phase` (R195). -/
  | barrier (level phase : Nat)
  /-- BOWAIT: the object's phase differs from `phase`, or its FLT is set (R197). -/
  | object (core addr : Nat) (phase : Word)
  /-- QPUSH: the queue at this address has an allowance; QPOP: it holds a handle (R204). -/
  | queueRoom (core addr stamp : Nat)
  | queueItem (core addr stamp : Nat)
  /-- CPWAIT: at most `n` sealed batches unfinished; CPSEAL: fewer than 16; CPY: the engine's queue has room (R190, R193). -/
  | batches (n : Nat)
  | sealRoom
  | engineRoom
  /-- MXACQ granted; MXREL and MXWAIT: no operation outstanding; MXRDY: none pending; MMA: every slice pending (R168 to R178). -/
  | granted
  | matrixIdle
  | matrixWait
  | noReady
  | slices
  /-- MXTEST: the self-test has run (R182). -/
  | clockTest (ac : Nat)
  /-- RGROW granted (R207); RSHRINK: no result due above the slabs kept. -/
  | slabs (n : Nat)
  | settled (n : Nat)
  /-- LAUNCH: the queue has room for the new index (R208). -/
  | launchRoom (cid queue : Nat) (w : Word)
  /-- MCLEAVE: every fill sent toward the member is written (R200). -/
  | fills (mgroup : Nat)
  /-- An event sets the wait done: XCH, a spill move, a refetch, CCTL, WAITW's wake, a fetch verdict. -/
  | event
  deriving DecidableEq, Repr

/-- A slot parked in an instruction (R232): the instruction, the operands it captured at issue, what it waits for, whether
that has come, the turn and the fc at which it parked. -/
structure Wait where
  instr : Instr
  ops : List Nat
  cond : Cond
  done : Bool
  turn : Nat
  fc : Nat
  deriving DecidableEq, Repr

/-- One program-counter slot (R86). `check`: the next instruction was entered by a path that R45 lists and its target bit
is still to be checked. `moving`: a spill move is in progress; `refetching`: the line of the segment that is fetched again,
`refetched`: those whose second copy has come for the instruction about to issue (R43). -/
structure Slot where
  st : SlotState
  pc : Pc
  mask : Mask
  fmt : Word
  pj : Option Pc
  pf : Word
  rets : List Pc
  spill : List Spill
  trap : Option TrapMode
  age : Nat
  wait : Option Wait
  check : Bool
  moving : Bool
  refetching : Option Nat
  refetched : List Nat
  deriving DecidableEq, Repr

/-- A free slot. -/
def Slot.empty : Slot :=
  { st := .free, pc := 0, mask := 0, fmt := 0, pj := none, pf := 0, rets := [], spill := [], trap := none, age := 0,
    wait := none, check := false, moving := false, refetching := none, refetched := [] }

/-- An error of an access that its owner did not repair (R98): failed lanes, tier, label, reason, tag; `lost` for ATOMLOST. -/
structure Failure where
  lanes : Mask
  tier : Nat
  label : Nat
  reason : Nat
  tag : DWord
  lost : Bool
  deriving DecidableEq, Repr

/-- One instruction in flight on a path (R17, R38): its operand-log entry (R39), its order and scope, the register cells it
will write, whether every request of it is over, and the error it holds for its covering wait. -/
structure Access where
  id : Nat
  slot : SlotName
  pc : Pc
  path : Path
  turn : Nat
  log : Option Nat
  ord : Nat
  scp : Nat
  lanes : Mask
  loads : Bool
  stores : Bool
  dest : List Cell
  done : Bool
  fail : Option Failure
  deriving DecidableEq, Repr

/-- The stages of a group's life (R233). -/
inductive Life where
  | resident
  | saved
  | retired
  deriving DecidableEq, Repr

/-- A sealed batch (R193): number, the scope of its CPSEAL, its requests. -/
structure Batch where
  number : Nat
  scope : Nat
  requests : List Nat
  deriving DecidableEq, Repr

/-- A group (R8, R24, R86). S names 192 to 203 are the trap bank, S180 to S191 of a slot in trap mode (R31). `late` lists
the register writes issued while memory or matrix results were pending (R26); `wrote` every write of a V register while an MXRDY or a
matrix operation of the group is pending (R175, R178); `feeding`: an MXRDY is pending; `relTurn`: the turn of its last release FENCE
(R266). -/
structure Group where
  id : Nat
  core : Nat
  grp : Nat
  cid : Nat
  block : Nat
  index : Nat
  lvlIdx : List Nat
  lvlDim : List Nat
  life : Life
  slabs : Nat
  v : Sparse 32
  s : Sparse 64
  k : Sparse 64
  p : Sparse 1
  q : Sparse 1
  a : Slot
  b : Slot
  stale : List Stale
  late : List (Nat × Cell)
  wrote : List (Nat × Cell)
  accs : List Access
  copies : Nat
  openBatch : List Nat
  sealed : List Batch
  nextBatch : Nat
  arrivals : List (Nat × Nat × Bool)
  mxErrors : List (Failure × Pc)
  feeding : Bool
  relTurn : Nat
  deriving DecidableEq, Repr

/-! ## The matrix array -/

/-- A slice of A as the array holds it (R171, R175): the group, its first register, the format and K-steps recorded; the
rows' words once taken, none where a later write left them undefined; the turn from which a write of its registers races, 0 for
a copy in the latch; the access of the operation whose issue took it (R177). -/
structure ASlice where
  gid : Nat
  reg : Nat
  fmt : Nat
  ks : Nat
  words : List (List Word)
  turn : Nat
  op : Nat
  deriving DecidableEq, Repr

/-- A matrix operation issued on an array (R176 to R181); `acc` is the access that counts it. `touched`: the runs of scratchpad bytes
stored since a product issued (R176, R275). -/
inductive MxOp where
  | product (acc : Nat) (bank a b accf ks : Nat) (bsp za pair : Bool) (baddr : Nat) (slices : List (Nat × ASlice))
      (touched : List (Nat × Nat))
  | read (acc : Nat) (bank reg rb cb : Nat) (lanes : Mask)
  | write (acc : Nat) (bank reg rb cb : Nat) (lanes : Mask) (words : List (List Word))
  | zero (acc : Nat) (bank : Nat) (pair : Bool)
  | store (acc : Nat) (bank t addr : Nat) (pair : Bool)
  deriving DecidableEq, Repr

/-- A core's matrix array (R168 to R185). A bank word is at bank * 16,384 + 128 * row + column. `fifo`: the waiting groups, each with
whether it asks for the pair and its roster; `kind`: was a bank last written as s32; `bad`: the poisoned words. -/
structure Matrix where
  owner : Option Nat
  ownerCid : Nat
  pair : Bool
  roster : DWord
  fifo : List (Nat × Bool × DWord)
  reserved : Option Nat
  ready : List ASlice
  latch : Option (List (Nat × ASlice))
  ops : List MxOp
  acc : Sparse 32
  kind : List Bool
  bad : List Nat
  fenced : Byte
  count : Nat
  lastTestFc : Nat
  deriving DecidableEq, Repr

/-- An array that nobody owns, its banks zero. -/
def Matrix.empty : Matrix :=
  { owner := none, ownerCid := 0, pair := false, roster := 0, fifo := [], reserved := none, ready := [], latch := none,
    ops := [], acc := [], kind := [false, false], bad := [], fenced := 0, count := 0, lastTestFc := 0 }

/-! ## The launch hierarchy -/

/-- One declared level of a launch record (R334). -/
structure Level where
  window : Nat
  count : Nat
  gang : Bool
  scope : Nat
  domain : Nat
  deriving DecidableEq, Repr

/-- A launch record (R334). -/
structure Launch where
  fuse : Bool
  feat : BitVec 5
  slabs : Nat
  top : Nat
  codeK : DWord
  codeOff : Nat
  lines : Nat
  entry : Pc
  trapPc : Pc
  kload : BitVec 16
  spad : Nat
  levels : List Level
  ks : List DWord
  deriving DecidableEq, Repr

/-- Where a block stands (R233); `saving` while its save request runs (R338), `woken` while queued for relaunch (R238). -/
inductive BlockState where
  | resident
  | saving
  | saved
  | woken
  | retired
  | released
  deriving DecidableEq, Repr

/-- What a save image holds of a core's scratchpad (R339): the core of the cluster, the allotment's bytes and objects, by their
places in it. -/
structure SpImage where
  core : Nat
  bytes : Sparse 8
  objects : List Nat
  spoiled : List Nat
  poisoned : List (Nat × List Nat)
  deriving DecidableEq, Repr

/-- A block (R227): its grid, its place in the hierarchy from the top unit down, the cluster (numbered over the module),
the cores of the cluster it uses, its groups in index order; what its save image holds (R339): its scratchpads, its arrays, its place in the
save area, the logical count at the save; `waiting`: saved by R206 until a watch wakes it; `owed`: the arrays that it has yet to take back
once resumed (R184), `replays`: its requests that are replayed before any group of it issues (R165, R339). -/
structure Block where
  id : Nat
  grid : Nat
  cid : Nat
  path : List Nat
  cluster : Nat
  cores : List Nat
  groups : List Nat
  state : BlockState
  placedFc : Nat
  stalledFc : Option Nat
  images : List SpImage
  arrays : List (Nat × Matrix)
  savedBase : Nat
  savedSize : Nat
  savedLclk : DWord
  waiting : Bool
  owed : List (Nat × Matrix)
  replays : List Nat
  deriving DecidableEq, Repr

/-- A gang unit that waits for room (R337): since when it was placeable, and the instance it reserved. -/
structure Gang where
  grid : Nat
  path : List Nat
  sinceFc : Nat
  inst : Option Nat
  failed : Bool
  deriving DecidableEq, Repr

/-- A grid (R334, R336): a kernel's launch and its count, its band and source, the units placed so far. -/
structure Grid where
  id : Nat
  work : Nat
  cid : Nat
  band : Nat
  nopre : Bool
  launch : Launch
  count : Nat
  args : List DWord
  placed : List (List Nat)
  parent : Option Nat
  children : Nat
  faulted : Bool
  failed : Bool
  anyDie : Bool
  homeDie : Option Nat
  order : Nat
  readyFc : Option Nat
  affinityFc : Nat
  bound : List (List Nat × Nat)
  deriving DecidableEq, Repr

/-- The kinds of work a packet asks for (R331). -/
inductive WorkKind where
  | kernel
  | copy
  | marker
  | host
  deriving DecidableEq, Repr

/-- A node of the ready pool (R330 to R333): its packet, its queue (a hardware queue, or a context's device-side queue),
its predecessors, its grid once accepted, its status once it has run. -/
structure Work where
  id : Nat
  kind : WorkKind
  queue : Nat
  dsq : Bool
  index : Nat
  cid : Nat
  band : Nat
  ser : Bool
  k : DWord
  words : List DWord
  done : Nat
  node : Option Nat
  preds : List Nat
  home : Option Nat
  grid : Option Nat
  parent : Option Nat
  octet : Option Nat
  started : Bool
  copied : Nat
  result : Option Nat
  status : Option Nat
  deriving DecidableEq, Repr

/-- A die window (R230): the unit it serves, its die, its size and the label stack that reaches it. -/
structure Window where
  id : Nat
  grid : Nat
  path : List Nat
  cid : Nat
  die : Nat
  bytes : Nat
  k : DWord
  deriving DecidableEq, Repr

/-! ## Memory requests -/

/-- The atomic operations of R154. -/
inductive AtomOp where
  | add
  | and
  | or
  | xor
  | minS
  | maxS
  | minU
  | maxU
  | exch
  | cas
  | inc
  | dec
  | fadd
  deriving DecidableEq, Repr

/-- What a request does at its landing. -/
inductive ReqKind where
  | load (size : Nat) (sext : Bool)
  | store (size : Nat)
  | atom (op : AtomOp) (size : Nat)
  | red (op : AtomOp) (size : Nat)
  | upd (tag : Nat)
  | prf
  | mcast (group mask : Nat)
  | fetch
  | word (size : Nat)
  deriving DecidableEq, Repr

/-- One lane's access: its address (the offset of R142, or a scratchpad address), its operand or data, its second operand
(a swap value), the old value returned, the cells it writes, low register first. -/
structure LaneOp where
  lane : Nat
  addr : Nat
  data : Nat
  extra : Nat
  result : Option Nat
  cells : List Cell
  deriving DecidableEq, Repr

/-- The modes of a landing (R344). -/
inductive Mode where
  | coh
  | urm
  | ros
  deriving DecidableEq, Repr

/-- How far a request has come. `at`: to be looked up at this tier instance; `held`: waiting there at a held entry, in
order of arrival; `suspended`: failed, its record sent, awaiting a verdict; `missing`: landed, its line on an L2 miss list;
`ingress`: waiting there for
a miss-status register; `ready`: at its landing or at an L1 that serves it; `merged` into another request by a switch; `replied`: performed, its
reply or acknowledgement on the way; `entered`: in a held multicast entry; `egress`: waiting for a die under reset; `lost`: an
ATOMLOST message for it is on the way (R369), or FAIL has settled a lookup of the F-die or of a COPY packet; `kept`: the verdict of a
saved group's request (R366). -/
inductive Phase where
  | at (t : Tier) (inst : Nat)
  | held (t : Tier) (inst : Nat) (order : Nat)
  | suspended (f : Failure) (fq : Option Nat) (fc : Nat)
  | missing
  | ingress (order : Nat)
  | ready
  | merged (record : Nat)
  | replied
  | entered
  | egress (fc : Nat)
  | lost
  | kept (retry : Bool) (f : Failure)
  deriving DecidableEq, Repr

/-- A memory request: the lanes of one instruction that name one 128 B line (R365), or of an addition one word once it has left the core
(R23). `list`: its place on the miss list it came by, 0 for none (R249); `behind`: the turn before which loads of its group are
performed before it (R266); `transients`: its transient requests that failed (R278); `carriers`: the groups that acquired after a Span
egress accepted its store (R287). -/
structure Req where
  id : Nat
  acc : Nat
  gid : Nat
  core : Nat
  cid : Nat
  turn : Nat
  kind : ReqKind
  k0 : DWord
  off0 : Nat
  k : DWord
  off : Nat
  rights : BitVec 5
  need : BitVec 5
  phase : Phase
  lanes : List LaneOp
  left : Mask
  ord : Nat
  scp : Nat
  ch : Nat
  window : Bool
  seq : Word
  log : Nat
  passed : List (Nat × Nat × Nat)
  line : Nat
  mode : Mode
  noL1 : Bool
  fc : Nat
  contribs : Nat
  list : Nat
  behind : Nat
  transients : Nat
  carriers : List Nat
  deriving DecidableEq, Repr

/-- A scratchpad access in flight (R144, R251): the target core and the allotment it may touch; `behind` as in a request. -/
structure SpReq where
  id : Nat
  acc : Nat
  gid : Nat
  core : Nat
  target : Nat
  base : Nat
  allot : Nat
  turn : Nat
  kind : ReqKind
  ord : Nat
  lanes : List LaneOp
  left : Mask
  behind : Nat
  deriving DecidableEq, Repr

/-- A contributor of a combined request (R308): its request, its input port, its addend, its offset. -/
structure Contrib where
  req : Nat
  port : Nat
  addend : Nat
  offset : Nat
  deriving DecidableEq, Repr

/-- A decombining record of an output of a switch (R308, R368); `lost` once its value array cannot be read. -/
structure Record where
  id : Nat
  switch : Nat
  output : Nat
  merged : Nat
  contribs : List Contrib
  lost : Bool
  deriving DecidableEq, Repr

/-- An entry of a home slice's journal (R368): the merged request, its address, the old value, every contributor. -/
structure Journal where
  home : Nat
  merged : Nat
  addr : Nat
  old : Nat
  contribs : List (Nat × Contrib)
  deriving DecidableEq, Repr

/-- An L1 line of a core, or of a fused slice (R246, R248, R277): its name, its physical line, what its fill was granted,
its tokens, its dirty bytes, the groups that wrote them or acquired since, and the bytes it holds while an invalidation of it is on its way
or pending (R274); `sectors`: the 32 B sectors it holds, one bit each. -/
structure L1Line where
  core : Nat
  cid : Nat
  k : DWord
  off : Nat
  line : Nat
  rights : BitVec 5
  mode : Mode
  tokens : Nat
  dirty : List (Nat × Byte)
  writers : List Nat
  old : Option (List Byte)
  pending : Bool
  fc : Nat
  ch : Nat
  sectors : BitVec 4
  deriving DecidableEq, Repr

/-- A line of a die's L2, its sectors, and its record in the reverse map (R249, R351). -/
structure L2Line where
  die : Nat
  line : Nat
  cid : Nat
  k : DWord
  off : Nat
  ch : Nat
  sectors : BitVec 4
  deriving DecidableEq, Repr

/-- A copy of a line on a die other than its home that an invalidation has not reached yet (R282, R283), with the groups whose
stores the copy does not show, those that acquired since, and the copy requests that wrote it. -/
structure StaleCopy where
  die : Nat
  line : Nat
  bytes : List Byte
  writers : List Nat
  deriving DecidableEq, Repr

/-- A region directory entry (R358): the die that is home, first address, log2 of its size, the holders (dies 0 to 3, the
A-die 4), those granted alone, when it last saw a conflict. -/
structure Region where
  die : Nat
  base : Nat
  log : Nat
  holders : List Nat
  alone : Bool
  fc : Nat
  deriving DecidableEq, Repr

/-- A line OPEN under an update-only operator (R159): the U copies' partials by holder, and the partials that evictions
sent to the nodes of the merge tree, in arrival order (R259). A partial is one element per place of the line. -/
structure OpenLine where
  line : Nat
  tag : Nat
  cid : Nat
  parts : List (Nat × List Nat)
  fused : List (Nat × List Nat)
  evicted : List (Nat × List Nat)
  deriving DecidableEq, Repr

/-! ## Engines and shared objects -/

/-- One group's slice of a copy request (R189, R190), with its layout record once the engine has read it (R188). -/
structure Slice where
  gid : Nat
  store : Bool
  k : DWord
  regs : List DWord
  spad : DWord
  first : Nat
  rows : Nat
  record : List DWord
  deriving DecidableEq, Repr

/-- A copy request of a block (R190, R192): its number in the block, its slices in group order, how far it has come. `raced`: the
bytes that a group of it wrote before its batch finished (R191), by group, core for a scratchpad, place and length. -/
structure CopyReq where
  id : Nat
  block : Nat
  number : Nat
  slices : List Slice
  started : Bool
  progress : Nat
  suspended : Option (Failure × Nat)
  stopped : Option (Nat × Failure)
  finished : Bool
  told : List Nat
  raced : List (Nat × Option Nat × Nat × Nat)
  seq : Word
  deriving DecidableEq, Repr

/-- A member of a multicast group (R199). -/
structure Member where
  index : Nat
  gid : Nat
  object : Nat
  dest : Nat
  suspended : Bool
  leaving : Bool
  deriving DecidableEq, Repr

/-- A multicast group of a context on a die (R199). -/
structure MGroup where
  die : Nat
  cid : Nat
  number : Nat
  timer : Nat
  members : List Member
  deriving DecidableEq, Repr

/-- A held or spent entry of a home slice (R201, R303): its key (the die is that of the multicast group), the tier and the label its line
landed at, its requests (member index, group, destination); `waiting`: the indices a spent entry lists, or those whose
requests a save withdrew from a held one. -/
structure Held where
  id : Nat
  die : Nat
  tier : Nat
  label : Nat
  cid : Nat
  group : Nat
  mask : Nat
  line : Nat
  fc : Nat
  requests : List (Nat × Nat × Nat)
  spent : Bool
  waiting : List Nat
  deriving DecidableEq, Repr

/-- A fill line on its way to a member (R202): the bytes of its one reading, or the reason it failed. -/
structure Fill where
  id : Nat
  gid : Nat
  group : Nat
  core : Nat
  object : Nat
  dest : Nat
  bytes : List Byte
  reason : Nat
  tier : Nat
  deriving DecidableEq, Repr

/-- A watch of a home slice (R206). -/
structure Watch where
  id : Nat
  gid : Nat
  slot : SlotName
  addr : Nat
  size : Nat
  written : Bool
  deriving DecidableEq, Repr

/-- A barrier of one unit at one level (R195): phase and the groups that have arrived at it. -/
structure Barrier where
  grid : Nat
  level : Nat
  path : List Nat
  phase : Nat
  arrived : List Nat
  deriving DecidableEq, Repr

/-! ## Cores -/

/-- A core's own state. `room` lists the scratchpad allotments: block, base, size (R144); `objects` the barrier objects
initialised, `spoiled` the objects whose behaviour a store left undefined (R196, R204), by their places in the scratchpad. -/
structure Core where
  featm : BitVec 5
  lclk : DWord
  seq : Word
  spad : Sparse 8
  room : List (Nat × Nat × Nat)
  objects : List Nat
  spoiled : List Nat
  poisoned : List (Nat × List Nat)
  banks : List Nat
  mark : Option Nat
  corr : Nat
  matrix : Matrix
  deriving DecidableEq, Repr

/-- A core after reset: every feature present (R37). -/
def Core.reset : Core :=
  { featm := 31, lclk := 0, seq := 0, spad := [], room := [], objects := [], spoiled := [], poisoned := [], banks := [], mark := none, corr := 0,
    matrix := .empty }

/-! ## The rest of the module -/

/-- A cached tier entry (R346): the instance, the core for the CORE tier's label caches, the label, its four words. -/
structure CachedEntry where
  tier : Tier
  inst : Nat
  core : Nat
  label : Nat
  words : List DWord
  deriving DecidableEq, Repr

/-- A tier command that is running (R347, R348): since when, and its operation. -/
structure TierCmd where
  tier : Tier
  inst : Nat
  op : Nat
  cid : Nat
  label : Nat
  fc : Nat
  deriving DecidableEq, Repr

/-- The control-class messages of a sender-receiver pair (R371): the last number sent; since when the oldest unacknowledged one waits, and
how often it was sent again, 9 once it has been reported. -/
structure Control where
  sender : Nat
  receiver : Nat
  seq : Nat
  fc : Nat
  resends : Nat
  acted : Bool
  deriving DecidableEq, Repr

/-- The state of one C-die; `lclk` is the logical count of its own units (R288), `retraining` its links that retrain (R375), `scanFc`
when its scanner last began a scan since it was enabled (R354). -/
structure Die where
  clock : DWord
  lclk : DWord
  gated : Bool
  disabled : Bool
  lost : Bool
  point : Nat
  retraining : List Nat
  scanFc : Option Nat
  deriving DecidableEq, Repr

/-- A C-die after reset. -/
def Die.reset : Die := { clock := 0, lclk := 0, gated := false, disabled := false, lost := false, point := 0, retraining := [], scanFc := none }

/-- A commanded die reset (R374): the die, when it began, whether its evacuation is over. -/
structure DieReset where
  die : Nat
  fc : Nat
  evacuated : Bool
  deriving DecidableEq, Repr

/-- The boot controller and the power manager beside their registers (R313 to R327): NFAIL in boot flash, the hand-off, the measurement log,
the body of the configuration record, the ceiling. `busy` is the transition under way: 1 a module state; 2 a warm start, its failing step,
its links; 3 a point; 4 clusters, their die and bits; 5 a warm start after its evacuation. `evacFc` is when its evacuation began, `sensors` the
last readings, `stage` 1 once START has asked for a cold start, `interrupts` what the A-die was told. `identity` is 1 once the seed has been
regenerated, 2 once the identity key has been derived from it (R318). -/
structure Boot where
  powered : Bool
  nfail : Nat
  handed : Bool
  log : List (List Byte × Nat × Nat)
  config : List Nat
  ceiling : Nat
  busy : List Nat
  evacFc : Option Nat
  sensors : List Nat
  stage : Nat
  recovery : List Byte
  interrupts : List (Nat × Nat)
  identity : Nat
  deriving DecidableEq, Repr

/-- The Scorepad record of a context, sixteen words (R395), and the pJ remainder of its energy (R397). -/
structure Meter where
  cid : Nat
  words : List DWord
  pj : Nat
  read : Bool
  seq : Nat
  deriving DecidableEq, Repr

/-- Scorepad and the Fuash port (R395 to R406); `ctxPj`: energy charged to contexts and not yet in the totals, in pJ;
`closedFc`: when the last interval closed; `spdm`: how far the negotiation has come. -/
structure Fleet where
  live : List Meter
  retired : List Meter
  overflow : List Meter
  nextSeq : Nat
  totals : List DWord
  heldValid : List Nat
  calep : Nat
  mchk : List Nat
  outbox : List (List Byte)
  spdm : Nat
  transcript : List Byte
  ctxPj : Nat
  closedFc : Nat
  deriving DecidableEq, Repr

/-- A pool appliance or a remote module (R379 to R388): blocks now in its flash, its MHINT ranges (first address, length, hint),
the extents it lands for this module in staging, its versioned regions (control page, the last version reclaimed), revocations
under way (label, deadline in fc), labels revoked by force, its blocks by recent use with the CH of the last access. -/
structure Remote where
  id : Nat
  pool : Bool
  incarnation : Nat
  dead : Bool
  flash : List Nat
  hints : List (Nat × Nat × Nat)
  staging : List Nat
  regions : List (Nat × Nat)
  revokes : List (Nat × Nat)
  revoked : List Nat
  accessed : List (Nat × Nat)
  deriving DecidableEq, Repr

/-- The state of the module. `mem` holds every physical byte: a local address is its own number, byte `a` of remote module
m is at (m + 1) * 2^48 + a, byte `o` of die window w at 2^59 + w * 2^26 + o. `mmio` is keyed by node 6 offset. `published`: the packets
that a LAUNCH published and the distributor has not yet accepted (R208), by context, queue, index, grid of the issuing group;
`queueWait` and `dsqWait`: the hardware queues, and the device-side ones with the fc since, that stand at a packet whose V is 0;
`poolWait`: the queue engines that wait for an entry of the ready pool, in order, by the keys of Submit.lean. -/
structure State where
  turn : Nat
  agenda : List Move
  args : List Nat
  issuer : Option (Nat × SlotName)
  nextId : Nat
  fc : Nat
  dies : List Die
  groups : List Group
  blocks : List Block
  grids : List Grid
  works : List Work
  gangs : List Gang
  windows : List Window
  cores : List (Nat × Core)
  mem : List Host.Cell
  poison : List Nat
  mmio : Sparse 64
  reqs : List Req
  spReqs : List SpReq
  records : List Record
  journal : List Journal
  l1 : List L1Line
  l2 : List L2Line
  staleCopies : List StaleCopy
  regions : List Region
  persistent : List (Nat × Nat)
  opens : List OpenLine
  published : List (Nat × Nat × Nat × Nat)
  queueWait : List Nat
  dsqWait : List (Nat × Nat × Nat)
  poolWait : List Nat
  copyReqs : List CopyReq
  engineSeq : Sparse 32
  mgroups : List MGroup
  helds : List Held
  fills : List Fill
  watches : List Watch
  barriers : List Barrier
  cache : List CachedEntry
  cmds : List TierCmd
  controls : List Control
  incarnations : List Nat
  dieReset : Option DieReset
  storage : List (Nat × Nat × Nat)
  flclk : DWord
  boot : Boot
  fleet : Fleet
  remotes : List Remote
  deriving DecidableEq, Repr

/-- Why the machine stops. -/
inductive Fault where
  /-- Raised by an event's meaning where the event cannot come about in this state; step passes such an event over. Safe:
  nothing happens where the hardware has nothing to do. -/
  | eventNotDue
  /-- Raised by an instruction's meaning where no slot is named as its issuer (State.issuer). Safe: step always names one. -/
  | noIssuer
  deriving DecidableEq, Repr

/-- Why there is no meaning for an instruction. -/
inductive Refusal where
  /-- An arm of exec for an instruction that the model does not give its meaning yet. Safe: it stops. -/
  | notModelled (mnemonic : String)
  deriving DecidableEq, Repr

/-- The MMIO registers with a reset value other than zero: QSTAT.IDLE 1 (R329), FQRTO 10,000 (R360), TDTO 1,000 (R347),
MLOG 16, MINLOG 7, SLOG 16 (R359). -/
def mmioReset : Sparse 64 :=
  (List.range 16).map (fun q => (0x10028 + 0x100 * q, (1 : DWord))) ++ [(0x20040, 1000)] ++
    (List.range 3).map (fun q => (0x21038 + 0x100 * q, (10000 : DWord))) ++
    (List.range 4).flatMap (fun d =>
      let base := 0x1000000 + d * 0x1000000
      [(base + 0x40, (1000 : DWord))] ++ (List.range 3).map (fun p => (base + 0x10040 + 0x100 * p, (1000 : DWord))) ++
        (List.range 3).map (fun p => (base + 0x20040 + 0x100 * p, (1000 : DWord))) ++
        [(base + 0x30000, (0x100710 : DWord))])

/-- The module right after reset: every field at the value the spec gives, and at zero or empty where it gives none
(assumption 2). No group exists until the distributor places one (R231). -/
def State.reset : State :=
  { turn := 0, agenda := [], args := [], issuer := none, nextId := 1, fc := 0, dies := [.reset, .reset, .reset, .reset],
    groups := [], blocks := [], grids := [], works := [], gangs := [], windows := [], cores := [], mem := [], poison := [],
    mmio := mmioReset, reqs := [], spReqs := [], records := [], journal := [], l1 := [], l2 := [], staleCopies := [],
    regions := [], persistent := [], opens := [], published := [], queueWait := [], dsqWait := [], poolWait := [], copyReqs := [], engineSeq := [], mgroups := [], helds := [], fills := [], watches := [],
    barriers := [], cache := [], cmds := [], controls := [], incarnations := [0, 0, 0, 0, 0], dieReset := none,
    storage := [], flclk := 0,
    boot := { powered := false, nfail := 0, handed := false, log := [], config := [], ceiling := 2000,
              busy := [], evacFc := none, sensors := [], stage := 0, recovery := [], interrupts := [],
              identity := 0 },
    fleet := { live := [], retired := [], overflow := [], nextSeq := 1, totals := [0, 0, 0, 0, 0, 0, 0, 0],
               heldValid := [], calep := 0, mchk := [0, 0, 0, 0, 0, 0, 0, 0, 0, 0], outbox := [], spdm := 0,
               transcript := [], ctxPj := 0, closedFc := 0 },
    remotes := [] }

end Sys2Proof.Machine
end

