-- ==== Sys2Proof/Machine/Regs.lean ====
section
/-! DEFINITION. The accessors of State: groups, slots, cores, blocks; and the register files with the results that may still
be pending (R14, R24 to R33, R59). Every register is read and written through the operations here. -/
namespace Sys2Proof.Machine

/-! ## Groups, slots, cores -/

/-- The group of this number. -/
def State.group? (s : State) (gid : Nat) : Option Group := s.groups.find? (fun g => g.id == gid)

/-- Replaces the group of the same number. -/
def State.setGroup (s : State) (g : Group) : State :=
  { s with groups := s.groups.map (fun x => if x.id = g.id then g else x) }

/-- A slot of a group. -/
def Group.slot (g : Group) : SlotName → Slot
  | .a => g.a
  | .b => g.b

/-- Replaces a slot of a group. -/
def Group.setSlot (g : Group) (n : SlotName) (x : Slot) : Group :=
  match n with
  | .a => { g with a := x }
  | .b => { g with b := x }

/-- A core's state; a core not listed is as after reset. -/
def State.core (s : State) (n : Nat) : Core :=
  match s.cores.find? (fun e => e.1 == n) with
  | some e => e.2
  | none => Core.reset

/-- Inserts a core's state in core order. -/
def putCore (n : Nat) (c : Core) : List (Nat × Core) → List (Nat × Core)
  | [] => [(n, c)]
  | (m, d) :: rest => if m = n then (n, c) :: rest else if n < m then (n, c) :: (m, d) :: rest else (m, d) :: putCore n c rest

/-- Replaces a core's state. -/
def State.setCore (s : State) (n : Nat) (c : Core) : State := { s with cores := putCore n c s.cores }

/-- The block of this number. -/
def State.block? (s : State) (id : Nat) : Option Block := s.blocks.find? (fun b => b.id == id)

/-- Replaces the block of the same number. -/
def State.setBlock (s : State) (b : Block) : State :=
  { s with blocks := s.blocks.map (fun x => if x.id = b.id then b else x) }

/-- The grid of this number. -/
def State.grid? (s : State) (id : Nat) : Option Grid := s.grids.find? (fun g => g.id == id)

/-- Replaces the grid of the same number. -/
def State.setGrid (s : State) (g : Grid) : State :=
  { s with grids := s.grids.map (fun x => if x.id = g.id then g else x) }

/-- The grid a group belongs to. -/
def State.gridOf (s : State) (g : Group) : Option Grid := (s.block? g.block).bind (fun b => s.grid? b.grid)

/-- The launch record a group runs under. -/
def State.launchOf (s : State) (g : Group) : Option Launch := (s.gridOf g).map (·.launch)

/-- The C-die of a core (R4: 128 cores a die). -/
def coreDie (core : Nat) : Nat := core / 128
/-- The octet of a core in its die. -/
def coreOct (core : Nat) : Nat := core / 32 % 4
/-- The cluster of a core in its octet. -/
def coreClus (core : Nat) : Nat := core / 4 % 8
/-- The index of a core in its cluster. -/
def coreIdx (core : Nat) : Nat := core % 4
/-- The core of the same cluster with this index. -/
def clusterCore (core idx : Nat) : Nat := core - core % 4 + idx % 4
/-- The quadrant of a group position (R35: quadrant × 24 + position). -/
def grpQuad (grp : Nat) : Nat := grp / 24

/-- A die's state. -/
def State.die (s : State) (d : Nat) : Die := s.dies.getD d Die.reset

/-- Replaces a die's state. -/
def State.setDie (s : State) (d : Nat) (x : Die) : State := { s with dies := s.dies.set d x }

/-- A fresh number. -/
def State.fresh (s : State) : Nat × State := (s.nextId, { s with nextId := s.nextId + 1 })

/-- An operand of the event under way (State.args); a missing one reads zero. -/
def State.arg (s : State) (i : Nat) : Nat := s.args.getD i 0

/-! ## Register cells -/

/-- The number of lane `l` of V or P register `r` in its store. -/
def laneKey (r l : Nat) : Nat := 32 * r + l

/-- A distinct number for each register cell. -/
def Cell.code : Cell → Nat
  | .v r l => 5 * laneKey r l
  | .s r => 5 * r + 1
  | .k r => 5 * r + 2
  | .p r l => 5 * laneKey r l + 3
  | .q r => 5 * r + 4

/-- The value a register cell holds: the last one written to it, pending or not. P7 reads true (R32). -/
def Group.peek (g : Group) : Cell → DWord
  | .v r l => (Sparse.get g.v (laneKey r l)).setWidth 64
  | .s r => Sparse.get g.s r
  | .k r => Sparse.get g.k r
  | .p r l => if r = 7 then 1 else (Sparse.get g.p (laneKey r l)).setWidth 64
  | .q r => (Sparse.get g.q r).setWidth 64

/-- Sets a register cell. P7 is never written (R32). -/
def Group.poke (g : Group) (c : Cell) (x : DWord) : Group :=
  match c with
  | .v r l => { g with v := Sparse.set g.v (laneKey r l) (x.setWidth 32) }
  | .s r => { g with s := Sparse.set g.s r x }
  | .k r => { g with k := Sparse.set g.k r x }
  | .p r l => if r = 7 then g else { g with p := Sparse.set g.p (laneKey r l) (x.setWidth 1) }
  | .q r => { g with q := Sparse.set g.q r (x.setWidth 1) }

/-- The old values a read may return, of those a cell held before results that may still be pending: none after the one that the
first of a pair replaced (R47). -/
def oldValues : List Stale → List DWord
  | [] => []
  | e :: rest => if e.paired then [e.old] else e.old :: oldValues rest

/-- A read of a register cell: the value it holds, or, while results for it may still be pending, any one of the values it
held before them (R14). `turn` and `port` make each read's choice free (assumption 4). The second of a pair reads no value that
the first one writes (R47). -/
def Group.read (g : Group) (turn port : Nat) (c : Cell) : DWord :=
  match g.stale.filter (fun e => e.cell == c) with
  | [] => g.peek c
  | e :: rest =>
    let olds := oldValues (e :: rest)
    let choices := olds ++ (if (e :: rest).any (·.paired) then [] else [g.peek c])
    choices.getD (Config.pick turn c.code port % choices.length) (g.peek c)

/-- Does the group have memory or matrix results outstanding, against which a later register write races (R26, R175)? -/
def Group.racing (g : Group) : Bool := !g.accs.isEmpty || g.feeding

/-- The writes of V registers that a slice or a tile of the group may race with (R175, R178): one more, while an MXRDY or a matrix
operation of it is pending. -/
def Group.noteWrite (g : Group) (turn : Nat) (c : Cell) : List (Nat × Cell) :=
  if g.feeding || g.accs.any (fun a => a.path == .mx) then
    (match c with
      | .v _ _ => g.wrote ++ [(turn, c)]
      | _ => g.wrote)
  else []

/-- A result of an instruction that a later marker waits for (R14, R59): the cell takes the value, and the old one may still
be read. -/
def Group.write (g : Group) (turn : Nat) (lanes : Mask) (c : Cell) (x : DWord) : Group :=
  { g.poke c x with
    stale := g.stale ++ [{ cell := c, lanes := lanes, old := g.peek c, paired := false }]
    late := if g.racing then g.late ++ [(turn, c)] else []
    wrote := g.noteWrite turn c }

/-- A result written before the slot issues again (R59, opcodes 0xC0 to 0xEF): nothing of it is pending. -/
def Group.writeNow (g : Group) (turn : Nat) (c : Cell) (x : DWord) : Group :=
  { g.poke c x with
    stale := g.stale.filter (fun e => e.cell != c)
    late := if g.racing then g.late ++ [(turn, c)] else []
    wrote := g.noteWrite turn c }

/-- All the results of one instruction, in order. -/
def Group.writeAll (g : Group) (turn : Nat) (lanes : Mask) : List (Cell × DWord) → Group
  | [] => g
  | (c, x) :: rest => Group.writeAll (g.write turn lanes c x) turn lanes rest

/-- The switch marker (R59): every pending result issued for some lane of the slot is written. -/
def Group.mark (g : Group) (lanes : Mask) : Group := { g with stale := g.stale.filter (fun e => (e.lanes &&& lanes) == 0) }

/-- The lanes of a group that have not retired: those of its slots and of its spill entries (R87, R88). -/
def Group.lanes (g : Group) : Mask :=
  (g.a.spill ++ g.b.spill).foldl (fun m e => m ||| e.mask) (g.a.mask ||| g.b.mask)

/-- Is the cell one that a result may still be written to: a lane's registers are not once the lane has retired (R88)? -/
def Group.takes (g : Group) : Cell → Bool
  | .v _ l => g.lanes.getLsbD l
  | .p _ l => g.lanes.getLsbD l
  | _ => true

/-- A memory or matrix result for a request issued at `since`: written, unless the lane has retired (R88), or a later non-memory write to
the cell was issued, when the cell ends with either (R26). -/
def Group.deliver (g : Group) (turn since : Nat) (c : Cell) (x : DWord) : Group :=
  let raced := g.late.any (fun e => since < e.1 && e.2 == c)
  if !g.takes c || (raced && Config.pick turn c.code 0 % 2 == 1) then g
  else { g.poke c x with wrote := g.noteWrite turn c }

/-! ## Named registers -/

/-- The name an S field selects: S180 to S191 of a slot in trap mode are the trap bank (R31). -/
def sName (x : Slot) (n : Nat) : Nat := if x.trap.isSome && decide (180 ≤ n) then n + 12 else n

/-- Is a lane in a set of lanes? -/
def laneIn (m : Mask) (l : Nat) : Bool := m.getLsbD l

/-- The set of lanes for which a test holds. -/
def maskOf (f : Nat → Bool) : Mask :=
  laneList.foldl (fun m l => if f l then m ||| (1#32 <<< l) else m) 0

/-- The lanes of a set, ascending. -/
def lanesOf (m : Mask) : List Nat := laneList.filter (laneIn m)

/-- How many lanes a set has. -/
def popCount (m : Mask) : Nat := (lanesOf m).length

/-- The lowest lane of a set. -/
def lowestLane (m : Mask) : Nat := (lanesOf m).headD 0

/-- Reads an S register of a slot. -/
def Group.rdS (g : Group) (x : Slot) (turn port n : Nat) : DWord := g.read turn port (.s (sName x n))
/-- Reads a K register. -/
def Group.rdK (g : Group) (turn port n : Nat) : DWord := g.read turn port (.k n)
/-- Reads a lane of a V register. -/
def Group.rdV (g : Group) (turn port r l : Nat) : Word := (g.read turn port (.v r l)).setWidth 32
/-- Reads a lane of a pair of V registers as 64 bits, the even register low (R27). -/
def Group.rdV2 (g : Group) (turn port r l : Nat) : DWord := g.rdV turn port (r + 1) l ++ g.rdV turn port r l
/-- Reads a lane of a P register. -/
def Group.rdP (g : Group) (turn port i l : Nat) : Bool := (g.read turn port (.p i l)) == 1
/-- Reads a Q register. -/
def Group.rdQ (g : Group) (turn port i : Nat) : Bool := (g.read turn port (.q i)) == 1

/-- The cells of a lane's value `n` registers wide at V register `d`, low register first, with their parts (R27). -/
def vCells (d n l : Nat) (x : Nat) : List (Cell × DWord) :=
  match n with
  | 0 => []
  | k + 1 => (.v d l, BitVec.ofNat 64 (x % 2 ^ 32)) :: vCells (d + 1) k l (x / 2 ^ 32)

/-- Reads a lane's value `n` registers wide (R27). -/
def Group.rdWide (g : Group) (turn port d l : Nat) : Nat → Nat
  | 0 => 0
  | k + 1 => (g.rdV turn port d l).toNat + 2 ^ 32 * Group.rdWide g turn port (d + 1) l k

/-- The uniform guard of an instruction (R32): Q0 to Q3, or always, negated by PN. -/
def Group.uniformGuard (g : Group) (turn : Nat) (f : Common) : Bool :=
  (if f.pg == 7 then true else g.rdQ turn 90 f.pg.toNat) != f.pn

/-- The participating lanes (R81): active lanes of the slot whose guard holds (R13). -/
def Group.participating (g : Group) (x : Slot) (turn : Nat) (f : Common) : Mask :=
  maskOf (fun l => laneIn x.mask l && (g.rdP turn 91 f.pg.toNat l != f.pn))

/-! ## Path counters -/

/-- A path counter (R17, R38): the accesses of the path that have not fallen. -/
def Group.counter (g : Group) (p : Path) : Nat := (g.accs.filter (fun a => a.path == p)).length

/-- Counters fall in issue order (R38): a finished access leaves once no older one of its path is unfinished. -/
def fallInOrder : List Path → List Access → List Access
  | _, [] => []
  | held, a :: rest =>
    if a.done && a.fail.isNone && !held.contains a.path then fallInOrder held rest
    else a :: fallInOrder (a.path :: held) rest

/-- Lets the counters of a group fall. -/
def Group.fall (g : Group) : Group := { g with accs := fallInOrder [] g.accs }

/-- The access of this number. -/
def Group.access? (g : Group) (id : Nat) : Option Access := g.accs.find? (fun a => a.id == id)

/-- Replaces an access of a group. -/
def Group.setAccess (g : Group) (a : Access) : Group :=
  { g with accs := g.accs.map (fun x => if x.id = a.id then a else x) }

/-! ## The issuing slot -/

/-- The slot that issues, its group, and which slot it is. -/
structure Issuer where
  g : Group
  name : SlotName
  deriving DecidableEq, Repr

/-- The issuing slot. -/
def Issuer.slot (u : Issuer) : Slot := u.g.slot u.name

/-- The slot that exec issues for (State.issuer). -/
def State.issuer? (s : State) : Option Issuer :=
  match s.issuer with
  | some (gid, n) => (s.group? gid).map (fun g => { g := g, name := n })
  | none => none

/-- Runs an instruction's effect for the issuing slot; with no slot named it is a fault. -/
def State.issue (s : State) (k : Issuer → State) : Host.Outcome State Fault Refusal :=
  match s.issuer? with
  | some u => .next (k u)
  | none => .fault .noIssuer

/-- The issuing slot with its PC at the next instruction (R44), entered by sequential flow. -/
def Slot.advance (x : Slot) : Slot := { x with pc := x.pc + 1, wait := none, check := false }

/-- Stores the group with the issuing slot advanced. -/
def State.advance (s : State) (g : Group) (n : SlotName) : State := s.setGroup (g.setSlot n (g.slot n).advance)

/-- Parks the issuing slot in its instruction (R232). -/
def State.park (s : State) (g : Group) (n : SlotName) (i : Instr) (ops : List Nat) (c : Cond) : State :=
  s.setGroup (g.setSlot n { (g.slot n) with
    wait := some { instr := i, ops := ops, cond := c, done := false, turn := s.turn, fc := s.fc } })

end Sys2Proof.Machine
end

