-- ==== Sys2Proof/Machine/Merge.lean ====
section
/-! DEFINITION. MergeTree (R160, R259): the value of a line that was OPEN under an update-only operator, from the partials of the
caches and those that evictions sent up the tree. -/
namespace Sys2Proof.Machine

/-- The nodes of the merge tree, one number each: pair p of cluster c (numbered over the module), cluster c, octet o, die d,
the two pairs of dies. -/
def pairNode (c p : Nat) : Nat := 1000 + 2 * c + p
/-- The cluster node. -/
def clusterNode (c : Nat) : Nat := 2000 + c
/-- The octet node, o numbered over the module. -/
def octetNode (o : Nat) : Nat := 3000 + o
/-- The die node. -/
def dieNode (d : Nat) : Nat := 4000 + d
/-- The node of dies 0 and 1, and of dies 2 and 3. -/
def topNode (t : Nat) : Nat := 5000 + t

/-- The element at place `e` of the partial kept under a number, or the identity when there is none (R259). -/
def partAt (tag : Nat) (l : List (Nat × List Nat)) (n e : Nat) : Nat :=
  match l.find? (fun x => x.1 == n) with
  | some x => x.2.getD e (updIdentity tag)
  | none => updIdentity tag

/-- Node of R259: the evicted partials a node received, folded in arrival order, ahead of its children's value. -/
def mergeNode (o : OpenLine) (node e x : Nat) : Nat :=
  let ev := (o.evicted.filter (fun y => y.1 == node)).map (fun y => y.2.getD e (updIdentity o.tag))
  updOp o.tag (ev.foldl (updOp o.tag) (updIdentity o.tag)) x

/-- Has any partial reached the cluster's part of the tree? -/
def clusterTouched (o : OpenLine) (c : Nat) : Bool :=
  o.parts.any (fun x => x.1 / 4 == c) || o.fused.any (fun x => x.1 == c) ||
    o.evicted.any (fun x => x.1 == clusterNode c || x.1 == pairNode c 0 || x.1 == pairNode c 1)

/-- A cluster's value: the fused partial, then the two pairs (R259). A cluster without partials gives the identity. -/
def mergeCluster (o : OpenLine) (c e : Nat) : Nat :=
  if clusterTouched o c then
    let q := fun i => partAt o.tag o.parts (4 * c + i) e
    let p01 := mergeNode o (pairNode c 0) e (updOp o.tag (q 0) (q 1))
    let p23 := mergeNode o (pairNode c 1) e (updOp o.tag (q 2) (q 3))
    mergeNode o (clusterNode c) e (updOp o.tag (updOp o.tag (partAt o.tag o.fused c e) p01) p23)
  else updIdentity o.tag

/-- An octet's value, its clusters by binary tree in index order (R160). -/
def mergeOctet (o : OpenLine) (oc e : Nat) : Nat :=
  let cl := fun i => mergeCluster o (8 * oc + i) e
  let op := updOp o.tag
  mergeNode o (octetNode oc) e (op (op (op (cl 0) (cl 1)) (op (cl 2) (cl 3))) (op (op (cl 4) (cl 5)) (op (cl 6) (cl 7))))

/-- A die's value. -/
def mergeDie (o : OpenLine) (d e : Nat) : Nat :=
  let oc := fun i => mergeOctet o (4 * d + i) e
  let op := updOp o.tag
  mergeNode o (dieNode d) e (op (op (oc 0) (oc 1)) (op (oc 2) (oc 3)))

/-- The new value of the element at place `e`: the base last of all (R259). -/
def mergeTree (o : OpenLine) (base e : Nat) : Nat :=
  let op := updOp o.tag
  let di := fun i => mergeDie o i e
  op base (op (mergeNode o (topNode 0) e (op (di 0) (di 1))) (mergeNode o (topNode 1) e (op (di 2) (di 3))))

end Sys2Proof.Machine
end

