-- ==== Sys2Proof/Machine/Memory.lean ====
section
/-! DEFINITION. Physical memory, the MMIO registers, poison, the close of an update-only line, and the records sent to the
fault queues (R141 to R149 at the bytes, R257, R311, R312, R360 to R364). -/
namespace Sys2Proof.Machine

/-- What a byte of memory that nothing has written reads as: zero (assumption 1). -/
def unlistedByte : Byte := 0

/-- Memory in its one canonical form: addresses rising, no entry equal to `unlistedByte`. -/
def Memory.wf (m : List Host.Cell) : Bool := Sparse.wf m

/-- One byte of memory. -/
def State.byte (s : State) (a : Nat) : Byte := Sparse.get s.mem a

/-- `n` bytes at ascending addresses. -/
def State.bytes (s : State) (a n : Nat) : List Byte := Sparse.getMany s.mem a n

/-- A little-endian number of `n` bytes (R147). -/
def State.loadN (s : State) (a n : Nat) : Nat := leNat (s.bytes a n)

/-- The 128 B line an address lies in. -/
def lineOf (a : Nat) : Nat := a / 128

/-- Does a run of bytes touch the watched word? -/
def Watch.touched (w : Watch) (a n : Nat) : Bool := a < w.addr + w.size && w.addr < a + n

/-- Writes bytes at ascending addresses; a watch over one of them re-reads its word (R206). -/
def State.storeBytes (s : State) (a : Nat) (bs : List Byte) : State :=
  { s with
    mem := Sparse.setMany s.mem a bs
    watches := s.watches.map (fun w => if w.touched a bs.length then { w with written := true } else w) }

/-- Writes the low `n` bytes of a number, little-endian (R147). -/
def State.storeN (s : State) (a n v : Nat) : State := s.storeBytes a (leBytes n v)

/-- The base of the memory of remote module or appliance `m`. -/
def remoteBase (m : Nat) : Nat := (m + 1) * 2 ^ 48

/-- The base of a die window's bytes (R230). -/
def windowBase (w : Nat) : Nat := 2 ^ 59 + w * 2 ^ 26

/-- The node of a local physical address, PA[47:45] (R311). -/
def paNode (pa : Nat) : Nat := pa / 2 ^ 45 % 8

/-- Does an address lie in a remote module's memory, and whose? -/
def remoteOf (a : Nat) : Option Nat := if 2 ^ 48 ≤ a ∧ a < 2 ^ 59 then some (a / 2 ^ 48 - 1) else none

/-- Is a local physical address populated and its die there (R311, R314, R373)? -/
def State.populated (s : State) (pa : Nat) : Bool :=
  let n := paNode pa
  let o := pa % 2 ^ 45
  if n < 4 then decide (o < 2 ^ 37) && !(s.die n).disabled && !(s.die n).lost
  else n == 4 && decide (o < 2 ^ 26)

/-- Is the line of an address poisoned (R257)? -/
def State.isPoisoned (s : State) (a : Nat) : Bool := s.poison.contains (lineOf a)

/-- Poisons a line (R258). -/
def State.poisonLine (s : State) (line : Nat) : State :=
  if s.poison.contains line then s else { s with poison := line :: s.poison }

/-! ## MMIO registers -/

/-- A register of node 6 by its offset (R312). -/
def State.reg (s : State) (off : Nat) : DWord := Sparse.get s.mmio off

/-- Sets a register of node 6. -/
def State.setReg (s : State) (off : Nat) (v : DWord) : State := { s with mmio := Sparse.set s.mmio off v }

/-- A field of a register: `w` bits from bit `lo`. -/
def State.field (s : State) (off lo w : Nat) : Nat := (s.reg off).toNat / 2 ^ lo % 2 ^ w

/-- A word with `w` bits from bit `lo` replaced. -/
def putField (v : DWord) (lo w x : Nat) : DWord :=
  BitVec.ofNat 64 (v.toNat / 2 ^ (lo + w) * 2 ^ (lo + w) + x % 2 ^ w * 2 ^ lo + v.toNat % 2 ^ lo)

/-- Replaces a field of a register. -/
def State.setField (s : State) (off lo w x : Nat) : State := s.setReg off (putField (s.reg off) lo w x)

/-- A field of a number. -/
def bitsAt (v lo w : Nat) : Nat := v / 2 ^ lo % 2 ^ w

/-- The MMIO block of C-die `d` (R312). -/
def dieBlock (d : Nat) : Nat := 0x1000000 + d * 0x1000000

/-- The registers of hardware queue `q` (R329). -/
def queueBlock (q : Nat) : Nat := 0x10000 + 0x100 * q

/-- The registers of fault queue `q` (R360). -/
def faultBlock (q : Nat) : Nat := 0x21000 + 0x100 * q

/-- BOOTSTAT (R315), PMMODE (R321), PMSTAT (R324), PDIE (R322), CLGATEd (R323), DIERST (R374), MODID (R379). -/
def bootstat : Nat := 0x100
/-- PMMODE. -/
def pmmode : Nat := 0x1000
/-- PMSTAT. -/
def pmstat : Nat := 0x1008
/-- PDIE. -/
def pdieReg : Nat := 0x1010
/-- CLGATEd. -/
def clgateReg (d : Nat) : Nat := 0x1020 + 8 * d
/-- DIERST. -/
def dierst : Nat := 0x1040
/-- MODID. -/
def modid : Nat := 0x2000

/-- Does the distributor dispatch: in M0, with no warm start and no change of the module state under way, and the last start not failed
(R319, R320)? -/
def State.dispatches (s : State) : Bool :=
  s.field pmstat 12 2 == 0 && s.field bootstat 16 4 == 0 && (match s.boot.busy with
    | 1 :: _ => false
    | 2 :: _ => false
    | _ => true)

/-! ## Contexts -/

/-- The context table's entry of a CID (R328). -/
def ctxBase (cid : Nat) : Nat := 0x800001000000 + 128 * cid

/-- A word of a context's entry. -/
def State.ctxWord (s : State) (cid i : Nat) : Nat := s.loadN (ctxBase cid + 8 * i) 8

/-- Is the context live (R328)? -/
def State.ctxValid (s : State) (cid : Nat) : Bool := s.ctxWord cid 0 % 2 == 1

/-! ## Update-only lines -/

/-- The elements of a line under a tag, from its bytes. -/
def elementsOf (tag : Nat) (bs : List Byte) : List Nat :=
  let n := updWidth tag / 8
  (List.range (128 / n)).map (fun i => leNat ((bs.drop (n * i)).take n))

/-- The bytes of a line's elements. -/
def elementBytes (tag : Nat) (es : List Nat) : List Byte := es.flatMap (leBytes (updWidth tag / 8))

/-- The update-only state of a line, when it is OPEN (R159). -/
def State.open? (s : State) (line : Nat) : Option OpenLine := s.opens.find? (fun o => o.line == line)

/-- Does a core hold a U copy of the line, its own or its cluster's fused one? -/
def OpenLine.heldBy (o : OpenLine) (core : Nat) : Bool :=
  o.parts.any (fun p => p.1 == core) || o.fused.any (fun p => p.1 == core / 4)

/-- Closes an OPEN line: recalls every U copy, merges in the order of MergeTree, writes the line (R160). -/
def State.closeLine (s : State) (line : Nat) : State :=
  match s.open? line with
  | none => s
  | some o =>
    let base := elementsOf o.tag (s.bytes (128 * line) 128)
    let new := (List.range base.length).map (fun e => mergeTree o (base.getD e 0) e)
    { s.storeBytes (128 * line) (elementBytes o.tag new) with
      opens := s.opens.filter (fun x => x.line != line)
      l1 := s.l1.filter (fun l => !(l.line == line && o.heldBy l.core)) }

/-- Reads bytes as an access that closes the lines it reads (R160). The bytes lie in one line. -/
def State.readClosing (s : State) (a n : Nat) : State × List Byte :=
  let s := s.closeLine (lineOf a)
  (s, s.bytes a n)

/-! ## Metering -/

/-- Adds to a counter of a live context's record, modulo 2^64; with no live record it counts for the module alone (R395, R396). -/
def State.charge (s : State) (cid word n : Nat) : State :=
  if n = 0 then s
  else
    { s with fleet := { s.fleet with live := s.fleet.live.map (fun m =>
        if m.cid = cid then { m with words := m.words.set word (m.words.getD word 0 + BitVec.ofNat 64 n) } else m) } }

/-! ## Fault records -/

/-- A receiver's count: the larger of two, plus one (R288). -/
def mergeCount (a b : DWord) : DWord := (if a.toNat < b.toNat then b else a) + 1

/-- The F-die's logical count after it merges a message's count (R288). -/
def State.mergeClock (s : State) (c : DWord) : State :=
  { s with flclk := mergeCount s.flclk c }

/-- The driver is interrupted: a source and a detail (R326, R330, R331, R360). -/
def State.interrupt (s : State) (src detail : Nat) : State :=
  { s with boot := { s.boot with interrupts := s.boot.interrupts ++ [(src, detail)] } }

/-- Eight words as bytes. -/
def wordBytes (ws : List Nat) : List Byte := ws.flatMap (leBytes 8)

/-- Sends a record to a fault queue (R360 to R362): words 1 to 7; word 0 is the F-die's count after it merges the sender's (R288). Whether the queue took it:
a queue that is full or not enabled drops it and counts the drop. -/
def State.sendRecord (s : State) (q : Nat) (count : DWord) (words : List Nat) : State × Bool :=
  let s := s.mergeClock count
  let b := faultBlock q
  let log := s.field (b + 8) 48 5
  let wr := s.field (b + 0x10) 0 32
  let rd := s.field (b + 0x18) 0 32
  if s.field (b + 8) 63 1 == 0 || (wr + 2 ^ 32 - rd) % 2 ^ 32 == 2 ^ log then
    let d := s.field (b + 0x20) 0 32
    (s.setField (b + 0x20) 0 32 (if d = 2 ^ 32 - 1 then d else d + 1), false)
  else
    let s := s.storeBytes (s.field b 6 42 * 64 + 64 * (wr % 2 ^ log)) (wordBytes (s.flclk.toNat :: words))
    let s := s.setField (b + 0x10) 0 32 (wr + 1)
    (if s.field (b + 8) 0 1 == 1 then s.interrupt 0 q else s, true)

/-- Word 2 of a record (R362). -/
def recordWord2 (kind rsn tier label need cid : Nat) : Nat :=
  kind * 2 ^ 60 + rsn * 2 ^ 56 + tier * 2 ^ 54 + label * 2 ^ 39 + need * 2 ^ 34 + cid

/-- A machine-check record (R364): its class is counted for HEALTH (R405). Events of links and remote domains go to queue 1 (R360). -/
def State.machineCheckTo (s : State) (q : Nat) (count : DWord) (cls detail4 detail5 : Nat) : State :=
  let n := s.fleet.mchk.getD (cls - 1) 0
  let s := { s with fleet := { s.fleet with mchk := s.fleet.mchk.set (cls - 1) (min 63 (n + 1)) } }
  (s.sendRecord q count [0, recordWord2 4 0 0 0 0 0, cls, detail4, detail5, 0, 0]).1

/-- A machine-check record of its usual queue, by the F-die. -/
def State.machineCheck (s : State) (cls detail4 detail5 : Nat) : State := s.machineCheckTo (if cls == 9 then 1 else 0) 0 cls detail4 detail5

/-- A GROUP record (R363): the cause, the cause being handled, the PC, the group's place. -/
def State.groupRecord (s : State) (g : Group) (cause handled : Nat) (pc : Pc) (efault : DWord) : State :=
  let place := g.grp + coreIdx g.core * 2 ^ 7 + coreClus g.core * 2 ^ 9 + coreOct g.core * 2 ^ 12 + coreDie g.core * 2 ^ 14
  (s.sendRecord 0 (s.core g.core).lclk [0, recordWord2 3 0 0 0 0 g.cid, cause + handled * 256, pc.toNat, place, 0, efault.toNat]).1

end Sys2Proof.Machine
end

