-- ==== Sys2Proof/Machine/Scratch.lean ====
section
/-! DEFINITION. The scratchpad of a core: a block's allotment (R144), poisoned rows (R254), and the objects named by object
words (R187): the 16-byte headers of barrier objects (R196) and queues (R203). -/
namespace Sys2Proof.Machine

/-- The allotment of a block on a core: base and size; zero bytes where it has none (R144). -/
def State.allot (s : State) (core block : Nat) : Nat × Nat :=
  match (s.core core).room.find? (fun e => e.1 == block) with
  | some e => (e.2.1, e.2.2)
  | none => (0, 0)

/-- The words of a run of bytes, one number for each 4-byte word. -/
def wordsOf (a n : Nat) : List Nat := (List.range ((a + n + 3) / 4 - a / 4)).map (· + a / 4)

/-- Does a read of these bytes meet a poisoned row at a word not stored since (R254)? -/
def Core.spBad (c : Core) (a n : Nat) : Bool :=
  (wordsOf a n).any (fun w => c.poisoned.any (fun p => p.1 == w / 32 && !p.2.contains w))

/-- The poisoned rows after a store of these bytes: whole words count as stored, and a row all of whose words are stored is
sound again (R254). -/
def Core.spStored (c : Core) (a n : Nat) : List (Nat × List Nat) :=
  let whole := (wordsOf a n).filter (fun w => a ≤ 4 * w && 4 * w + 4 ≤ a + n)
  (c.poisoned.map (fun p => (p.1, p.2 ++ whole.filter (fun w => w / 32 == p.1 && !p.2.contains w)))).filter
    (fun p => p.2.length < 32)

/-- A product outstanding on the core's array remembers a run of bytes stored meanwhile (R176, R275). -/
def MxOp.touch (a n : Nat) : MxOp → MxOp
  | .product acc bank fa fb f ks bsp za pair baddr slices t => .product acc bank fa fb f ks bsp za pair baddr slices ((a, n) :: t)
  | o => o

/-- Writes bytes of a core's scratchpad, at places in it. An object that the bytes touch has its behaviour left undefined
when `spoil` (R196). -/
def Core.spPut (c : Core) (spoil : Bool) (a : Nat) (bs : List Byte) : Core :=
  let hit := fun (o : Nat) => a < o + 16 && o < a + bs.length
  { c with
    spad := Sparse.setMany c.spad a bs
    poisoned := c.spStored a bs.length
    matrix := if c.matrix.ops.isEmpty then c.matrix else { c.matrix with ops := c.matrix.ops.map (MxOp.touch a bs.length) }
    spoiled := if spoil then c.spoiled ++ c.objects.filter (fun o => hit o && !c.spoiled.contains o) else c.spoiled }

/-- Reads `n` bytes of a block's allotment from address `x` on; a byte outside it reads zero (R144, R172). -/
def State.spRead (s : State) (core block x n : Nat) : List Byte :=
  let (base, size) := s.allot core block
  (List.range n).map (fun i => if x + i < size then Sparse.get (s.core core).spad (base + x + i) else 0)

/-- Writes bytes of a block's allotment; bytes outside it are not written (R144, R181, R202). -/
def State.spWrite (s : State) (core block x : Nat) (bs : List Byte) : State :=
  let (base, size) := s.allot core block
  s.setCore core ((s.core core).spPut true (base + x) (bs.take (size - x)))

/-- Is the run of bytes in the allotment? -/
def State.spIn (s : State) (core block : Nat) (x n : Nat) : Bool := decide (x + n ≤ (s.allot core block).2)

/-- The swizzle of R172. -/
def swizzle (n o : Nat) : Nat := o / 128 * 128 + ((o / 16 % 8) ^^^ (o / 128 % 2 ^ n)) * 16 + o % 16

/-! ## Objects -/

/-- The core an object word names and the object's address (R187). -/
def objectPlace (core : Nat) (w : DWord) : Nat × Nat :=
  (clusterCore core (coreIdx core + bitsAt w.toNat 22 2), bitsAt w.toNat 0 22)

/-- Is an object word one that R187 accepts, for an object of `n` bytes? -/
def State.objectOk (s : State) (g : Group) (w : DWord) (n : Nat) : Bool :=
  let (core, a) := objectPlace g.core w
  bitsAt w.toNat 24 40 == 0 && a % 16 == 0 && s.spIn core g.block a n

/-- An object's header as one number, at its place in the scratchpad. -/
def State.header (s : State) (core place : Nat) : Nat := leNat (Sparse.getMany (s.core core).spad place 16)

/-- Writes an object's header: no store of a program, so the object stays sound. -/
def State.setHeader (s : State) (core place v : Nat) : State :=
  s.setCore core ((s.core core).spPut false place (leBytes 16 v))

/-- Does any part of the object lie in a poisoned row, its own words stored since or not (R254)? -/
def State.objectBad (s : State) (core place n : Nat) : Bool :=
  (wordsOf place n).any (fun w => (s.core core).poisoned.any (fun p => p.1 == w / 32))

/-- Reads of these bytes meet an uncorrectable row, which poisons every row they lie in (R254). -/
def Core.poisonRows (c : Core) (a n : Nat) : Core :=
  let rows := ((wordsOf a n).map (· / 32)).eraseDups
  { c with poisoned := c.poisoned.filter (fun p => !rows.contains p.1) ++ rows.map (fun r => (r, [])) }

/-- Is the behaviour of the object undefined (R196, R204)? -/
def State.isSpoiled (s : State) (core place : Nat) : Bool := (s.core core).spoiled.contains place

/-- Does a wait on such an object go on: a free choice (assumption 9)? -/
def State.spoiledGoes (s : State) (core place : Nat) : Bool := s.isSpoiled core place && Config.pick s.turn 36 place % 2 == 1

/-- An object whose behaviour a store left undefined: its header holds free values from now on (R196, assumption 9). -/
def State.freeHeader (s : State) (core place : Nat) : State :=
  if (s.core core).spoiled.contains place then
    s.setHeader core place ((Config.freeWord s.turn (2 * place)).toNat + 2 ^ 64 * (Config.freeWord s.turn (2 * place + 1)).toNat)
  else s

/-- Initialises an object: it is sound, and its header is as given. -/
def State.initHeader (s : State) (core place v : Nat) (barrier : Bool) : State :=
  let c := s.core core
  let c := { c with
    objects := if barrier && !c.objects.contains place then place :: c.objects else c.objects
    spoiled := c.spoiled.filter (· != place) }
  (s.setCore core c).setHeader core place v

/-! ## Barrier objects -/

/-- The fields of a barrier object (R196). -/
structure BObj where
  count : Nat
  init : Nat
  phase : Nat
  level : Nat
  frsn : Nat
  ftier : Nat
  ovr : Bool
  flt : Bool
  deriving DecidableEq, Repr

/-- Reads a header as a barrier object. -/
def BObj.of (v : Nat) : BObj :=
  { count := bitsAt v 96 32, init := bitsAt v 64 32, phase := bitsAt v 32 32, level := bitsAt v 8 3, frsn := bitsAt v 4 4,
    ftier := bitsAt v 2 2, ovr := bitsAt v 1 1 == 1, flt := bitsAt v 0 1 == 1 }

/-- A barrier object's header. -/
def BObj.pack (o : BObj) : Nat :=
  o.count % 2 ^ 32 * 2 ^ 96 + o.init % 2 ^ 32 * 2 ^ 64 + o.phase % 2 ^ 32 * 2 ^ 32 + o.level % 8 * 2 ^ 8 +
    o.frsn % 16 * 2 ^ 4 + o.ftier % 4 * 4 + (if o.ovr then 2 else 0) + (if o.flt then 1 else 0)

/-- BOARR's effect on an object (R197). -/
def BObj.arrive (o : BObj) (amount : Nat) : BObj :=
  if o.count ≤ amount then
    { o with ovr := o.ovr || decide (o.count < amount), phase := (o.phase + 1) % 2 ^ 32, count := o.init }
  else { o with count := o.count - amount }

/-- The object at a place. -/
def State.bobj (s : State) (core place : Nat) : BObj := BObj.of (s.header core place)

/-- BOARR at a bank: the phase arrived at, and the state after (R197). -/
def State.boArrive (s : State) (core place amount : Nat) : State × Nat :=
  let s := s.freeHeader core place
  let o := s.bobj core place
  (s.setHeader core place (o.arrive amount).pack, o.phase)

/-- A failed fill marks a member's object (R202). -/
def State.boFail (s : State) (core place reason tier : Nat) : State :=
  let o := s.bobj core place
  s.setHeader core place { o with flt := true, frsn := reason, ftier := tier }.pack

/-! ## Queues -/

/-- The fields of a queue's header (R203). -/
structure QObj where
  head : Nat
  tail : Nat
  allow : Nat
  cap : Nat
  deriving DecidableEq, Repr

/-- Reads a header as a queue. -/
def QObj.of (v : Nat) : QObj :=
  { head := bitsAt v 96 32, tail := bitsAt v 64 32, allow := bitsAt v 32 32, cap := bitsAt v 0 13 }

/-- A queue's header. -/
def QObj.pack (q : QObj) : Nat :=
  q.head % 2 ^ 32 * 2 ^ 96 + q.tail % 2 ^ 32 * 2 ^ 64 + q.allow % 2 ^ 32 * 2 ^ 32 + q.cap % 2 ^ 13

/-- The queue at a place. -/
def State.qobj (s : State) (core place : Nat) : QObj := QObj.of (s.header core place)

/-- The place of slot `i` of a queue (R203). -/
def QObj.slotPlace (q : QObj) (place i : Nat) : Nat := place + 16 + 4 * (i % q.cap)

/-- A push at the bank (R204). -/
def State.qPush (s : State) (core place handle : Nat) : State :=
  let q := s.qobj core place
  let s := s.setCore core ((s.core core).spPut false (q.slotPlace place q.tail) (leBytes 4 handle))
  s.setHeader core place { q with tail := (q.tail + 1) % 2 ^ 32, allow := (q.allow + 2 ^ 32 - 1) % 2 ^ 32 }.pack

/-- A pop at the bank: the handle (R204). -/
def State.qPop (s : State) (core place : Nat) : State × Nat :=
  let q := s.qobj core place
  let h := leNat (Sparse.getMany (s.core core).spad (q.slotPlace place q.head) 4)
  (s.setHeader core place { q with head := (q.head + 1) % 2 ^ 32, allow := (q.allow + 1) % 2 ^ 32 }.pack, h)

end Sys2Proof.Machine
end

