-- ==== Sys2Proof/Machine/Tiers.lean ====
section
/-! DEFINITION. The four tiers of translation: table entries (R343 to R345), cached entries (R346), one tier of TierLookup and
PageWalk (R245, R352, R353), and the whole chain at once for the units that do not wait at a tier. -/
namespace Sys2Proof.Machine

/-! ## Table entries -/

/-- A tier table entry: its four words (R344). -/
structure Entry where
  w0 : Nat
  w1 : Nat
  w2 : Nat
  w3 : Nat
  deriving DecidableEq, Repr

/-- ACT: 0 BLOCK, 1 SWAP, 2 POP, 3 LAND. -/
def Entry.act (e : Entry) : Nat := bitsAt e.w0 0 2
/-- HOLD. -/
def Entry.hold (e : Entry) : Bool := bitsAt e.w0 2 1 == 1
/-- RIGHTS: bit 0 R, 1 W, 2 X, 3 A, 4 U. -/
def Entry.rights (e : Entry) : BitVec 5 := BitVec.ofNat 5 (bitsAt e.w0 3 5)
/-- RAP. -/
def Entry.rap (e : Entry) : Bool := bitsAt e.w0 8 1 == 1
/-- MODE. -/
def Entry.mode (e : Entry) : Nat := bitsAt e.w0 9 2
/-- NEWL. -/
def Entry.newl (e : Entry) : Nat := bitsAt e.w0 12 15
/-- TGT. -/
def Entry.tgt (e : Entry) : Nat := bitsAt e.w0 27 10
/-- GEN. -/
def Entry.gen (e : Entry) : Nat := bitsAt e.w0 37 27
/-- DISP, signed, in 4 KiB units. -/
def Entry.disp (e : Entry) : Int := readInt 64 true e.w1
/-- BOUND, in 4 KiB units. -/
def Entry.bound (e : Entry) : Nat := bitsAt e.w2 0 36
/-- ROOT, a physical address. -/
def Entry.root (e : Entry) : Nat := bitsAt e.w3 12 36 * 4096

/-- The entry with HOLD set or cleared. -/
def Entry.withHold (e : Entry) (h : Bool) : Entry :=
  { e with w0 := (putField (BitVec.ofNat 64 e.w0) 2 1 (if h then 1 else 0)).toNat }

/-- Does TGT lie in the range of the tier (R344, R345)? -/
def Entry.tgtInRange (e : Entry) : Tier → Bool
  | .core => e.tgt < 4
  | .die => e.tgt < 12
  | _ => true

/-- R345: a malformed entry, which behaves as BLOCK. -/
def Entry.malformed (e : Entry) (t : Tier) : Bool :=
  bitsAt e.w0 11 1 != 0 || e.mode == 3 || e.w2 / 2 ^ 36 != 0 || e.w3 / 2 ^ 48 != 0 || e.w3 % 4096 != 0 ||
  (match e.act with
    | 0 => e.tgt != 0 || e.newl != 0 || e.mode != 0 || e.root != 0
    | 1 => e.mode != 0 || e.root != 0
    | 2 => e.newl != 0 || e.mode != 0 || e.root != 0
    | _ => e.tgt != 0 || e.newl != 0) ||
  !e.tgtInRange t || (t == .remote && (e.act == 1 || e.act == 2 || (e.act == 3 && e.mode == 0)))

/-- Where the tables of a tier instance begin (R343): CORETBL of a context, TBASE of a die's or a port's block; a far module's
REMOTE table for this module stands at the model's own place in that module's memory (assumption 6). The module's own table at
the ingress of port p is instance 1,024 + p. -/
def State.tableBase (s : State) (t : Tier) (inst : Nat) : Nat :=
  match t with
  | .core => bitsAt (s.ctxWord inst 2) 0 48
  | .die => s.field (dieBlock inst + 0x50) 12 36 * 4096
  | .port => s.field (dieBlock (inst / 3) + 0x10050 + 0x100 * (inst % 3)) 12 36 * 4096
  | .remote => if inst < 1024 then remoteBase inst + 2 ^ 47
      else s.field (dieBlock ((inst - 1024) / 3) + 0x20050 + 0x100 * ((inst - 1024) % 3)) 12 36 * 4096

/-- How many entries the table of an instance has (R328, R343). -/
def State.tableSize (s : State) (t : Tier) (inst : Nat) : Nat :=
  match t with
  | .core => bitsAt (s.ctxWord inst 2) 48 16
  | _ => 32768

/-- The address of a label's entry. -/
def State.entryAddr (s : State) (t : Tier) (inst label : Nat) : Nat := s.tableBase t inst + 32 * label

/-- The entry in memory. -/
def State.entryInMem (s : State) (t : Tier) (inst label : Nat) : Entry :=
  let a := s.entryAddr t inst label
  { w0 := s.loadN a 8, w1 := s.loadN (a + 8) 8, w2 := s.loadN (a + 16) 8, w3 := s.loadN (a + 24) 8 }

/-- Writes an entry to memory. -/
def State.putEntry (s : State) (t : Tier) (inst label : Nat) (e : Entry) : State :=
  let a := s.entryAddr t inst label
  (((s.storeN a 8 e.w0).storeN (a + 8) 8 e.w1).storeN (a + 16) 8 e.w2).storeN (a + 24) 8 e.w3

/-- The core whose cache holds copies of a tier's entries: the requesting core at the CORE tier, none below (R343). -/
def cacheCore (t : Tier) (core : Nat) : Nat := if t == .core then core else 0

/-- Is this the cached copy of that entry? -/
def CachedEntry.isFor (c : CachedEntry) (t : Tier) (inst core label : Nat) : Bool :=
  c.tier == t && c.inst == inst && c.core == cacheCore t core && c.label == label

/-- The capacity of a tier's cache (R343). -/
def cacheSize : Tier → Nat
  | .core => 64
  | .die => 1024
  | _ => 256

/-- A cached copy as an entry. -/
def CachedEntry.entry (c : CachedEntry) : Entry :=
  { w0 := (c.words.getD 0 0).toNat, w1 := (c.words.getD 1 0).toNat, w2 := (c.words.getD 2 0).toNat,
    w3 := (c.words.getD 3 0).toNat }

/-- An entry's words. -/
def Entry.words (e : Entry) : List DWord := [e.w0, e.w1, e.w2, e.w3].map (BitVec.ofNat 64)

/-- Drops the cached copies of an entry at its tier (R346). -/
def State.dropCached (s : State) (t : Tier) (inst label : Nat) : State :=
  { s with cache := s.cache.filter (fun c => !(c.tier == t && c.inst == inst && c.label == label)) }

/-- Keeps a copy of an entry, the oldest of the cache leaving when it is full (R343). -/
def State.keepCached (s : State) (t : Tier) (inst core label : Nat) (e : Entry) : State :=
  let mine := fun (c : CachedEntry) => c.tier == t && c.core == cacheCore t core && (t == .core || c.inst == inst)
  let full := decide (cacheSize t ≤ (s.cache.filter mine).length)
  let rest := if full then (match s.cache.find? mine with
    | some old => s.cache.erase old
    | none => s.cache) else s.cache
  { s with cache := rest ++ [{ tier := t, inst := inst, core := cacheCore t core, label := label, words := e.words }] }

/-- The entry a lookup finds: a cached copy, which the cache may have dropped before (R346, R408), or the one in memory,
which closes an OPEN line it lies in (R160) and is then kept. -/
def State.findEntry (s : State) (t : Tier) (inst core label : Nat) : State × Option Entry :=
  if s.tableSize t inst ≤ label then (s, none)
  else
    match s.cache.find? (fun c => c.isFor t inst core label) with
    | some c =>
      if Config.pick s.turn 1 label % 2 = 0 then (s, some c.entry)
      else
        let s := (s.dropCached t inst label).closeLine (lineOf (s.entryAddr t inst label))
        let e := s.entryInMem t inst label
        (s.keepCached t inst core label e, some e)
    | none =>
      let s := s.closeLine (lineOf (s.entryAddr t inst label))
      let e := s.entryInMem t inst label
      (s.keepCached t inst core label e, some e)

/-! ## K values -/

/-- DEPTH of a K value (R33). -/
def kDepth (k : DWord) : Nat := bitsAt k.toNat 60 3

/-- A K value a memory access may use (R33). -/
def kLegal (k : DWord) : Bool := kDepth k ≤ 4 && bitsAt k.toNat 63 1 == 0

/-- The label a tier looks up (R245). -/
def kLabel (k : DWord) : Nat := if kDepth k = 0 then 0 else bitsAt k.toNat 0 15

/-- R33: the pop of a K value; one of DEPTH 0 stays zero (R245). -/
def kPop (k : DWord) : DWord :=
  if kDepth k = 0 then 0 else BitVec.ofNat 64 ((kDepth k - 1) * 2 ^ 60 + bitsAt k.toNat 15 45)

/-- SWAP: the top label replaced, or pushed on an empty stack (R245). -/
def kSwap (k : DWord) (newl : Nat) : DWord :=
  if kDepth k = 0 then BitVec.ofNat 64 (2 ^ 60 + newl) else putField k 0 15 newl

/-- A label stack from its labels, the top first. -/
def kOf (labels : List Nat) : DWord :=
  BitVec.ofNat 64 (labels.length * 2 ^ 60 + labels.foldr (fun l acc => acc * 2 ^ 15 + l) 0)

/-! ## The page walk -/

/-- What a walk found (R352): a leaf, or the entry where it stopped; the entry's address and level, its value, the page. -/
structure Walked where
  found : Bool
  addr : Nat
  level : Nat
  value : Nat
  pa : Nat
  deriving DecidableEq, Repr

/-- Is a present leaf of the given page size (in 4 KiB pages, as a power of two) unbroken (R352)? -/
def leafOk (v log : Nat) (c : Bool) : Bool :=
  bitsAt v 0 2 == 3 && bitsAt v 63 1 == 0 && bitsAt v 12 2 == 0 && (bitsAt v 2 1 == 1) == c && bitsAt v 14 2 < 2 &&
    bitsAt v 16 36 % 2 ^ log == 0 && (bitsAt v 14 2 == 0 || bitsAt v 16 36 / 2 ^ 33 == 6)

/-- Is a present entry an unbroken pointer to the next table (R352)? -/
def nodeOk (v : Nat) : Bool :=
  bitsAt v 0 2 == 1 && bitsAt v 63 1 == 0 && bitsAt v 2 14 == 0

/-- Reads one 64-bit table entry, closing an OPEN line it lies in (R160). -/
def State.readEntry (s : State) (a : Nat) : State × Nat :=
  let s := s.closeLine (lineOf a)
  (s, s.loadN a 8)

/-- A leaf's page at an offset; `log` as in `leafOk`. -/
def leafPage (v off log : Nat) : Nat := bitsAt v 16 36 * 4096 + off % 2 ^ (12 + log)

/-- The walk of the radix table (R352), `n` levels still to go, in the memory that begins at `mb`. -/
def State.walk (s : State) (mb table off : Nat) : Nat → State × Walked
  | 0 => (s, { found := false, addr := table, level := 4, value := 0, pa := 0 })
  | n + 1 =>
    let level := 4 - n
    let idx := off / 2 ^ (12 + 9 * n) % 512
    if n = 0 then
      let ga := table + 8 * (idx - idx % 16)
      let (s, g) := s.readEntry (mb + ga)
      if bitsAt g 0 3 == 7 then
        (s, { found := leafOk g 4 true, addr := ga, level := level, value := g, pa := leafPage g off 4 })
      else
        let a := table + 8 * idx
        let (s, v) := s.readEntry (mb + a)
        (s, { found := leafOk v 0 false, addr := a, level := level, value := v, pa := leafPage v off 0 })
    else
      let a := table + 8 * idx
      let (s, v) := s.readEntry (mb + a)
      if nodeOk v then State.walk s mb (bitsAt v 16 36 * 4096) off n
      else
        (s, { found := decide (n < 3) && leafOk v (9 * n) false, addr := a, level := level, value := v,
              pa := leafPage v off (9 * n) })

/-! ## One tier -/

/-- A failure at a tier (R245), with what its owner's record says of it (R362, R363). -/
structure LookFail where
  tier : Nat
  label : Nat
  reason : Nat
  page : Bool
  k : DWord
  inst : Nat
  off : Nat
  w5 : Nat
  gen : Nat
  malformed : Bool
  w7 : Nat
  deriving DecidableEq, Repr

/-- Where a request lands: the byte's address in the model's memory, the mode, the rights granted, a device register or not,
the leaf's address, how many bytes the landing entry's bound leaves from here on. -/
structure Landing where
  addr : Nat
  mode : Mode
  rights : BitVec 5
  device : Bool
  leaf : Nat
  room : Nat
  deriving DecidableEq, Repr

/-- What one tier answers. -/
inductive Looked where
  | failed (f : LookFail)
  | waits
  | onward (k : DWord) (off : Nat) (rights : BitVec 5) (t : Tier) (inst : Nat)
  | lands (l : Landing)
  deriving DecidableEq, Repr

/-- The rights as bits (R344). -/
def rightR : BitVec 5 := 1
/-- Write. -/
def rightW : BitVec 5 := 2
/-- Execute. -/
def rightX : BitVec 5 := 4
/-- Atomic. -/
def rightA : BitVec 5 := 8
/-- Update-only. -/
def rightU : BitVec 5 := 16

/-- Are the rights asked within those held? -/
def within (need have_ : BitVec 5) : Bool := need &&& ~~~have_ == 0

/-- The next tier in the chain (R8). -/
def nextTier : Tier → Tier
  | .core => .die
  | .die => .port
  | _ => .remote

/-- The mode of a code (R344). -/
def Mode.ofCode : Nat → Mode
  | 0 => .coh
  | 1 => .urm
  | _ => .ros

/-- R146, R161: the page modes an access may use, by the rights it asks; `here`: the landing is on the issuing die. -/
def modeAllowed (need : BitVec 5) (m : Mode) (here remote : Bool) : Bool :=
  if need &&& rightU != 0 then !remote && (m == .coh || (m == .urm && here))
  else if need &&& (rightW ||| rightA) != 0 then m != .ros
  else true

/-- The link register of Span port `p` of a die (R375). -/
def spanLink (port : Nat) : Nat := dieBlock (port / 3) + 0x60000 + 8 * (3 + port % 3)

/-- The register of link `n` of a die (R375). -/
def linkReg (die n : Nat) : Nat := dieBlock die + 0x60000 + 8 * n

/-- Is a link up? -/
def State.linkUp (s : State) (die n : Nat) : Bool := s.field (linkReg die n) 63 1 == 1

/-- The far ends of a die's links 1 and 2, the lower- and the higher-numbered neighbour in the square (R310, R375). -/
def neighbours (d : Nat) : Nat × Nat :=
  match d with
  | 0 => (1, 3)
  | 1 => (0, 2)
  | 2 => (1, 3)
  | _ => (0, 2)

/-- Is the square link between two neighbouring dies up, at both its ends? -/
def State.joined (s : State) (a b : Nat) : Bool :=
  s.linkUp a (if (neighbours a).1 = b then 1 else 2) && s.linkUp b (if (neighbours b).1 = a then 1 else 2)

/-- The route of messages between two C-dies (R310): the dies that it crosses, 4 for the F-die; none while no link serves. Diagonal dies use
the lower-numbered common neighbour, else the other, else the F-die; neighbours whose link is down, the F-die, else the rest of the square
(assumption 20). The F-die's own messages are not asked here: a die that it does not reach is disabled (R314). -/
def State.route (s : State) (a b : Nat) : Option (List Nat) :=
  let (lo, hi) := neighbours a
  let through := fun (n : Nat) => s.joined a n && s.joined n b
  let fdie : Option (List Nat) := if s.linkUp a 0 && s.linkUp b 0 then some [4] else none
  if a = b ∨ 4 ≤ a ∨ 4 ≤ b then some []
  else if b = lo ∨ b = hi then
    let (x, y) := (if b = lo then hi else lo, (a + 2) % 4)
    if s.joined a b then some []
    else if fdie.isSome then fdie
    else if s.joined a x && s.joined x y && s.joined y b then some [x, y]
    else none
  else if through lo then some [lo]
  else if through hi then some [hi]
  else fdie

/-- SPCTL of a port (R380). -/
def spctl (port : Nat) : Nat := dieBlock (port / 3) + 0x80000 + 0x40 * (port % 3)

/-- The far module of this number. -/
def State.remote? (s : State) (m : Nat) : Option Remote := s.remotes.find? (fun r => r.id == m)

/-- Does the next instance answer (R245, R373, R380)? -/
def State.answers (s : State) (t : Tier) (inst : Nat) : Bool :=
  match t with
  | .core => true
  | .die => !(s.die inst).disabled && !(s.die inst).lost
  | .port => s.field (spctl inst) 0 1 == 1 && s.field (spanLink inst) 63 1 == 1 && !(s.die (inst / 3)).disabled &&
      !(s.die (inst / 3)).lost
  | .remote => inst != s.field modid 0 10 && (match s.remote? inst with
      | some r => !r.dead
      | none => false)

/-- How many requests wait at held entries of a tier instance (R245). -/
def State.waiting (s : State) (t : Tier) (inst : Nat) : Nat :=
  (s.reqs.filter (fun r => match r.phase with
    | .held t' i' _ => t' == t && i' == inst
    | _ => false)).length

/-- Is a landing address populated (R311)? A far module's memory is taken as populated in whole (assumption 6). -/
def State.reachable (s : State) (l : Landing) : Bool :=
  match remoteOf l.addr with
  | some _ => true
  | none => if l.device then true else paNode l.addr != 5 && paNode l.addr != 6 && paNode l.addr != 7 && s.populated l.addr

/-- Does a route lead from a die to a landing on another (R310)? -/
def State.routed (s : State) (die a : Nat) : Bool := !(decide (a < 2 ^ 48 ∧ paNode a < 4)) || (s.route die (paNode a)).isSome

/-- The rights a line records of its fill (R246): those granted, less what the page mode, the RAP bit or a clear D bit would refuse, so
that a hit never passes over a fault or a D bit that R146, R161, R245 and R353 ask for. -/
def recorded (got : BitVec 5) (m : Mode) (here remote rap dirty : Bool) : BitVec 5 :=
  let drop := fun (b : Bool) (r : BitVec 5) => if b then 0 else r
  got &&& ~~~(drop (dirty && modeAllowed rightW m here remote) rightW |||
    drop (modeAllowed rightA m here remote && (!remote || rap)) rightA ||| drop (dirty && modeAllowed rightU m here remote) rightU)

/-- PageWalk of R245: the leaf, its rights, the dirty bit of a file-backed page, the mode; then the A and D bits, by one
atomic update. Afterwards the populated offsets (R311) and poison (R257). -/
def State.pageWalk (s : State) (t : Tier) (inst lbl : Nat) (e : Entry) (k : DWord) (off0 off : Nat)
    (need rights : BitVec 5) (die : Nat) : State × Looked :=
  let remote := t == .remote
  let mb := if remote then remoteBase inst else 0
  let (s, w) := s.walk mb e.root off 4
  let fail := fun (reason : Nat) => Looked.failed
    { tier := t.num, label := lbl, reason := reason, page := true, k := k, inst := inst, off := off0,
      w5 := (w.addr / 8 * 8) % 2 ^ 48 + w.level, gen := e.gen, malformed := false, w7 := w.value }
  let leafRights := BitVec.ofNat 5 (bitsAt w.value 3 5)
  let got := rights &&& leafRights
  let here := !remote && paNode w.pa == die
  if !w.found then (s, fail 5)
  else if !within need got then (s, fail 6)
  else if remote && need &&& rightA != 0 && bitsAt w.value 8 1 == 0 then (s, fail 6)
  else if need &&& rightW != 0 && bitsAt w.value 11 1 == 1 && bitsAt w.value 10 1 == 0 then (s, fail 6)
  else if !modeAllowed need (Mode.ofCode e.mode) here remote then (s, fail 7)
  else
    let dirty := need &&& (rightW ||| rightU) != 0
    let v := w.value / 2 ^ 11 * 2 ^ 11 + (if dirty || bitsAt w.value 10 1 == 1 then 2 ^ 10 else 0) + 2 ^ 9 + w.value % 2 ^ 9
    let s := if v = w.value then s else s.storeN (mb + w.addr) 8 v
    let kept := recorded got (Mode.ofCode e.mode) here remote (bitsAt w.value 8 1 == 1) (bitsAt v 10 1 == 1)
    let l : Landing := { addr := mb + w.pa, mode := Mode.ofCode e.mode, rights := kept, device := bitsAt w.value 14 2 == 1,
                         leaf := mb + w.addr, room := e.bound * 4096 - off }
    if !s.reachable l || !s.routed die l.addr then (s, fail 9)
    else if s.isPoisoned l.addr then (s, fail 10)
    else (s, .lands l)

/-- Has the appliance taken an extent back by force, and landed nothing there since (R388)? -/
def State.revokedAt (s : State) (t : Tier) (inst label : Nat) : Bool :=
  t == .remote && (match s.remote? inst with
    | some x => x.revoked.contains label
    | none => false)

/-- One turn of the loop of TierLookup (R245) at a tier instance. `core` is the requesting core, `die` its C-die. -/
def State.lookAt (s : State) (t : Tier) (inst core : Nat) (k : DWord) (off : Nat) (need rights : BitVec 5) (die : Nat) :
    State × Looked :=
  let lbl := kLabel k
  let (s, found) := s.findEntry t inst core lbl
  let e := found.getD { w0 := 0, w1 := 0, w2 := 0, w3 := 0 }
  let bad := found.isSome && e.malformed t
  let fail := fun (reason : Nat) => Looked.failed
    { tier := t.num, label := lbl, reason := reason, page := false, k := k,
      inst := inst, off := off, w5 := 0, gen := e.gen, malformed := bad, w7 := 0 }
  let have_ := rights &&& e.rights
  let off' : Int := (off : Int) + e.disp * 4096
  if found.isNone || e.act == 0 || bad then (s, fail (if s.revokedAt t inst lbl then 8 else 1))
  else if e.hold then (s, if s.waiting t inst < 256 then .waits else fail 4)
  else if !within need have_ then (s, fail 2)
  else if t == .remote && need &&& rightA != 0 && !e.rap then (s, fail 2)
  else if off' < 0 ∨ (e.bound * 4096 : Nat) ≤ off' then (s, fail 3)
  else if e.act == 3 then s.pageWalk t inst lbl e k off off'.toNat need have_ die
  else
    let k' := if e.act == 1 then kSwap k e.newl else kPop k
    if t == .remote || !s.answers (nextTier t) e.tgt || (nextTier t == .die && (s.route die e.tgt).isNone) then (s, fail 9)
    else (s, .onward k' off'.toNat have_ (nextTier t) e.tgt)

/-! ## Die windows -/

/-- The K value that reaches a die window (R230): a label stack of four, by the model's own choice (assumption 6). -/
def windowK (id : Nat) : DWord := kOf [id % 2 ^ 15, id / 2 ^ 15, 0x7FFF, 0x7FFF]

/-- The die window a K value reaches, among those of the context on this die. -/
def State.window? (s : State) (cid : Nat) (k : DWord) : Option Window := s.windows.find? (fun w => w.k == k && w.cid == cid)

/-- A window access at its landing: within its size, else LBL_BOUND at tier 1 (R230). A window grants R, W and A, as a URM page of its die
would, and refuses U (assumption 22). -/
def State.lookWindow (s : State) (w : Window) (off : Nat) (need : BitVec 5) : Looked :=
  let fail := fun (reason : Nat) => Looked.failed
    { tier := 1, label := kLabel w.k, reason := reason, page := false, k := w.k,
      inst := w.die, off := off, w5 := 0, gen := 0, malformed := false, w7 := 0 }
  if w.bytes ≤ off then fail 3
  else if !within need (rightR ||| rightW ||| rightA) then fail 2
  else if s.isPoisoned (windowBase w.id + off) then fail 10
  else .lands { addr := windowBase w.id + off, mode := .urm, rights := rightR ||| rightW ||| rightA, device := false, leaf := 0, room := w.bytes - off }

/-! ## The whole chain at once -/

/-- TierLookup from one tier on, `fuel` tiers at most. -/
def State.lookFrom (s : State) (core : Nat) (need : BitVec 5) (die : Nat) :
    Nat → Tier → Nat → DWord → Nat → BitVec 5 → State × Looked
  | 0, _, _, _, _, _ => (s, .waits)
  | fuel + 1, t, inst, k, off, rights =>
    match s.lookAt t inst core k off need rights die with
    | (s', .onward k' off' r' t' i') => State.lookFrom s' core need die fuel t' i' k' off' r'
    | other => other

/-- TierLookup of a context's name, for a unit on a die: the copy engines, the distributor, the F-die, instruction fetch. -/
def State.resolve (s : State) (cid core die : Nat) (k : DWord) (off : Nat) (need : BitVec 5) : State × Looked :=
  match s.window? cid k with
  | some w => (s, s.lookWindow w off need)
  | none => s.lookFrom core need die 4 .core cid k (off % 2 ^ 48) 31

/-- The record of a tier or page failure (R362, R363), words 1 to 7, for the request with this tag; the requester's
incarnation is that of its die. -/
def LookFail.record (f : LookFail) (tag : DWord) (need : BitVec 5) (cid inc : Nat) : List Nat :=
  [tag.toNat, recordWord2 (if f.page then 2 else 1) f.reason f.tier f.label need.toNat cid, f.k.toNat,
   f.inst * 2 ^ 48 + f.off % 2 ^ 48, f.w5, inc * 2 ^ 48 + (if f.malformed then 2 ^ 27 else 0) + f.gen, f.w7]

/-- The queue of a tier's owner (R360); 3 stands for the far owner of a REMOTE tier, whose queue is not in this module (R382). -/
def tierQueue (tier : Nat) : Nat := if tier ≤ 1 then 0 else if tier = 2 then 1 else 3

/-- Sends the record of a failure to its owner (R361, R366): the queue that will answer, or none when it was dropped, or when the extent
was revoked, which completes the request at once (R388). -/
def State.reportFailure (s : State) (f : LookFail) (tag : DWord) (need : BitVec 5) (cid die : Nat) : State × Option Nat :=
  if f.tier = 3 then (s, if f.reason = 8 then none else some 3)
  else
    let q := tierQueue f.tier
    let (s, taken) := s.sendRecord q (s.die die).lclk (f.record tag need cid (s.incarnations.getD die 0))
    (s, if taken then some q else none)

end Sys2Proof.Machine
end

