-- ==== Sys2Proof/Machine/Shared.lean ====
section
/-! DEFINITION. The shared objects a group leaves when it retires: barriers (R195), matrix arrays (R168, R169), multicast
groups with their held entries (R199 to R203, R302, R303), copy requests and batches (R190 to R193). -/
namespace Sys2Proof.Machine

/-! ## Levels -/

/-- The declaration of level `n` (R334). -/
def Launch.level (l : Launch) (n : Nat) : Level :=
  l.levels.getD (n - 2) { window := 0, count := 1, gang := false, scope := 0, domain := 7 }

/-- The block level: the highest declared level bound to CORE or CLUSTER (R227). -/
def Launch.blockLevel (l : Launch) : Nat := (l.levels.filter (fun x => x.domain ≤ 3)).length + 1

/-- The product of the counts of levels `lo + 1` to `hi`: how many level-lo units a level-hi unit has (R36). -/
def Launch.unitsIn (l : Launch) (lo hi : Nat) : Nat :=
  (List.range (hi - lo)).foldl (fun n i => n * (l.level (lo + 1 + i)).count) 1

/-- The levels above the block level declared gang (R242). -/
def Launch.gangLevels (l : Launch) : List Nat :=
  (List.range (l.top - l.blockLevel)).filterMap (fun i =>
    let n := l.blockLevel + 1 + i
    if (l.level n).gang then some n else none)

/-- The part of a block's path that names its level-n unit. -/
def Launch.unitPrefix (l : Launch) (path : List Nat) (n : Nat) : List Nat := path.take (l.top + 1 - n)

/-- Is every block placed of each gang unit that holds this block (R242)? -/
def Grid.gangPlaced (x : Grid) (path : List Nat) : Bool :=
  x.launch.gangLevels.all (fun n =>
    let p := x.launch.unitPrefix path n
    (x.placed.filter (fun q => x.launch.unitPrefix q n == p)).length == x.launch.unitsIn x.launch.blockLevel n)

/-- The level whose units are placed and saved whole: the highest gang level, else the block level (R242). -/
def Launch.wholeLevel (l : Launch) : Nat := l.gangLevels.foldl max l.blockLevel

/-- The blocks of the unit that is placed and saved whole with a block, itself among them (R242). -/
def State.mates (s : State) (b : Block) : List Block :=
  match s.grid? b.grid with
  | none => [b]
  | some x =>
    let p := x.launch.unitPrefix b.path x.launch.wholeLevel
    s.blocks.filter (fun y => y.id == b.id || (y.grid == b.grid && x.launch.unitPrefix y.path x.launch.wholeLevel == p))

/-! ## Barriers -/

/-- Is the group live: not retired (R233)? -/
def Group.live (g : Group) : Bool := g.life != .retired

/-- The place of a group's level-n unit in a grid whose top level is `t`: its indices from level t down to level n (R36). -/
def Group.unitPath (g : Group) (t n : Nat) : List Nat := (List.range (t + 1 - n)).map (fun i => g.lvlIdx.getD (t - i) 0)

/-- The grid number of a group. -/
def State.gridId (s : State) (g : Group) : Nat :=
  match s.block? g.block with
  | some b => b.grid
  | none => 0

/-- The live groups of a unit. -/
def State.unitGroups (s : State) (grid t n : Nat) (path : List Nat) : List Group :=
  s.groups.filter (fun g => g.live && s.gridId g == grid && g.unitPath t n == path)

/-- The barrier of a unit at a level; one not listed is in phase 0 with nobody arrived. -/
def State.barrier (s : State) (grid level : Nat) (path : List Nat) : Barrier :=
  (s.barriers.find? (fun b => b.grid == grid && b.level == level && b.path == path)).getD
    { grid := grid, level := level, path := path, phase := 0, arrived := [] }

/-- Replaces a barrier. -/
def State.setBarrier (s : State) (b : Barrier) : State :=
  { s with barriers := b :: s.barriers.filter (fun x => !(x.grid == b.grid && x.level == b.level && x.path == b.path)) }

/-- Has every slot of the group in the run state issued its arrival for this phase (R195)? -/
def Group.arrivedAt (g : Group) (level phase : Nat) : Bool :=
  g.arrivals.any (fun e => e.1 == level && e.2.1 == phase) &&
    (g.a.st != .run || g.arrivals.contains (level, phase, false)) &&
    (g.b.st != .run || g.arrivals.contains (level, phase, true))

/-- The arrivals of a barrier taken anew, and its phase completed when every live group has arrived (R195). -/
def State.settleBarrier (s : State) (b : Barrier) : State :=
  let t := match s.grid? b.grid with
    | some x => x.launch.top
    | none => 0
  let gs := s.unitGroups b.grid t b.level b.path
  let here := (gs.filter (fun g => b.arrived.contains g.id || g.arrivedAt b.level b.phase)).map (·.id)
  if !gs.isEmpty && here.length == gs.length then s.setBarrier { b with phase := b.phase + 1, arrived := [] }
  else s.setBarrier { b with arrived := here }

/-- Every barrier settled: after an arrival, a retirement, or a slot that parks or is freed (R195). -/
def State.settleBarriers (s : State) : State := s.barriers.foldl State.settleBarrier s

/-! ## Matrix arrays -/

/-- A core's array. -/
def State.matrix (s : State) (core : Nat) : Matrix := (s.core core).matrix

/-- Replaces a core's array. -/
def State.setMatrix (s : State) (core : Nat) (m : Matrix) : State := s.setCore core { s.core core with matrix := m }

/-- The even core of a core's pair (R169). -/
def pairEven (core : Nat) : Nat := core - core % 2

/-- The other core of the pair. -/
def pairOther (core : Nat) : Nat := if core % 2 = 0 then core + 1 else core - 1

/-- An array granted to a group with its roster; a group of another context finds both banks zeroed (R168, R170). -/
def Matrix.granted (m : Matrix) (gid cid : Nat) (pair : Bool) (roster : DWord) : Matrix :=
  let same := m.ownerCid == cid
  { m with
    owner := some gid, ownerCid := cid, pair := pair, roster := roster, reserved := none, latch := none
    acc := if same then m.acc else [], kind := if same then m.kind else [false, false], bad := if same then m.bad else [] }

/-- An array given up: the latch emptied, every pending MXRDY on it cancelled (R168). -/
def Matrix.freed (m : Matrix) : Matrix := { m with owner := none, pair := false, roster := 0, latch := none, ready := [] }

/-- The context of a group. -/
def State.cidOf (s : State) (gid : Nat) : Nat :=
  match s.group? gid with
  | some g => g.cid
  | none => 0

/-- Grants at a core pair, by its even core: the head of the even FIFO, a pair request reserving the odd array until both
are free (R168, R169). -/
def State.grantEven (s : State) (e : Nat) : State :=
  let me := s.matrix e
  let mo := s.matrix (e + 1)
  match me.owner, me.fifo with
  | none, (gid, false, r) :: rest => s.setMatrix e ({ me with fifo := rest }.granted gid (s.cidOf gid) false r)
  | none, (gid, true, r) :: rest =>
    match mo.owner with
    | none => (s.setMatrix e ({ me with fifo := rest }.granted gid (s.cidOf gid) true r)).setMatrix (e + 1)
        (mo.granted gid (s.cidOf gid) true r)
    | some _ => s.setMatrix (e + 1) { mo with reserved := some gid }
  | _, _ => s

/-- Grants of the odd array: the head of its FIFO, unless a pair request has reserved it (R169). -/
def State.grantOdd (s : State) (o : Nat) : State :=
  let m := s.matrix o
  match m.owner, m.reserved, m.fifo with
  | none, none, (gid, _, r) :: rest => s.setMatrix o ({ m with fifo := rest }.granted gid (s.cidOf gid) false r)
  | _, _, _ => s

/-- An array re-acquired, its banks, latch and pending MXRDYs restored; what the array itself counts stays (R184). -/
def State.loadArray (s : State) (core : Nat) (x : Matrix) : State :=
  let m := s.matrix core
  s.setMatrix core { x with fifo := m.fifo, reserved := m.reserved, ready := m.ready ++ x.ready, fenced := m.fenced, count := m.count,
                            lastTestFc := m.lastTestFc, ops := [] }

/-- A free array goes first to a resumed block that owned it, ahead of its FIFO (R184). -/
def State.grantOwed (s : State) (core : Nat) : State :=
  if (s.matrix core).owner.isSome then s
  else
    match s.blocks.find? (fun b => b.owed.any (fun e => e.1 == core)) with
    | none => s
    | some b =>
      match b.owed.find? (fun e => e.1 == core) with
      | none => s
      | some e => (s.loadArray core e.2).setBlock { b with owed := b.owed.filter (fun y => y.1 != core) }

/-- All grants due at the pair of a core. -/
def State.grantArrays (s : State) (core : Nat) : State :=
  let e := pairEven core
  (((s.grantOwed e).grantOwed (e + 1)).grantEven e).grantOdd (e + 1)

/-- Does the group own the array of this core? -/
def State.owns (s : State) (g : Group) (core : Nat) : Bool := (s.matrix core).owner == some g.id

/-- Does the group own both arrays of its pair (R169)? -/
def State.ownsPair (s : State) (g : Group) : Bool := s.owns g g.core && (s.matrix g.core).pair

/-- MXREL's release: the array, or both of a pair owner, freed and granted on (R168). -/
def State.releaseArrays (s : State) (g : Group) : State :=
  let free := fun (s : State) (c : Nat) => if s.owns g c then s.setMatrix c (s.matrix c).freed else s
  (free (free s g.core) (pairOther g.core)).grantArrays g.core

/-- Takes a group out of the FIFOs of its pair, and lifts its reservation. -/
def State.leaveFifo (s : State) (g : Group) : State :=
  let drop := fun (s : State) (c : Nat) =>
    let m := s.matrix c
    s.setMatrix c { m with fifo := m.fifo.filter (fun e => e.1 != g.id),
                           reserved := if m.reserved == some g.id then none else m.reserved }
  (drop (drop s (pairEven g.core)) (pairEven g.core + 1)).grantArrays g.core

/-- A retired group's arrays, released once its last operation has retired (R89, R168). -/
def State.releaseRetired (s : State) (g : Group) : State :=
  if g.live || !(s.matrix g.core).ops.isEmpty then s else s.releaseArrays g

/-! ## Multicast -/

/-- The multicast group of a number for a context on a die (R199). -/
def State.mgroup? (s : State) (die cid n : Nat) : Option MGroup :=
  s.mgroups.find? (fun m => m.die == die && m.cid == cid && m.number == n)

/-- Replaces or adds a multicast group; one left with no member ceases to exist (R200). -/
def State.setMGroup (s : State) (m : MGroup) : State :=
  let rest := s.mgroups.filter (fun x => !(x.die == m.die && x.cid == m.cid && x.number == m.number))
  { s with mgroups := if m.members.isEmpty then rest else m :: rest }

/-- The indices a held entry waits for: the masked ones that hold a member, not suspended and not leaving (R302). -/
def State.waitedFor (s : State) (h : Held) : List Nat :=
  match s.mgroup? h.die h.cid h.group with
  | some m => ((m.members.filter (fun x => h.mask.testBit x.index && !x.suspended && !x.leaving)).map (·.index))
  | none => []

/-- Sends a fill of a line to a member: its bytes, or the reason why there are none (R202). -/
def State.sendFill (s : State) (gid mg core object dest : Nat) (bs : List Byte) (reason tier : Nat) : State :=
  let (id, s) := s.fresh
  { s with fills := s.fills ++ [{ id := id, gid := gid, group := mg, core := core, object := object, dest := dest,
                                  bytes := bs, reason := reason, tier := tier }] }

/-- Reads a line for a fill: once, closing it if it is OPEN; POISON when it is poisoned, REVOKED when the extent under the label that landed
it has been revoked (R160, R202, R257, R388). -/
def State.readFill (s : State) (line label : Nat) : State × List Byte × Nat :=
  if s.poison.contains line then (s, [], 10)
  else if (match remoteOf (128 * line) with
      | some m => s.revokedAt .remote m label
      | none => false) then (s, [], 8)
  else
    let (s, bs) := s.readClosing (128 * line) 128
    (s, bs, 0)

/-- The fills of one reading to the requests of an entry (R202). -/
def State.castTo (s : State) (h : Held) (bs : List Byte) (reason : Nat) : List (Nat × Nat × Nat) → State
  | [] => s
  | (idx, gid, dest) :: rest =>
    let s := match s.mgroup? h.die h.cid h.group, s.group? gid with
      | some m, some g =>
        (match m.members.find? (fun x => x.index == idx && x.gid == gid) with
          | some x => s.sendFill gid h.group g.core x.object (x.dest + dest) bs reason h.tier
          | none => s)
      | _, _ => s
    State.castTo s h bs reason rest

/-- An entry fires (R202, R303): one reading, a fill for each request in it; the waited-for indices without one, and those
that a save withdrew, stay on the spent entry's list. -/
def State.fire (s : State) (h : Held) : State :=
  let asked := h.requests.map (·.1)
  let left := (s.waitedFor h).filter (fun i => !asked.contains i) ++ h.waiting
  let (s, bs, reason) := s.readFill h.line h.label
  let s := s.castTo h bs reason h.requests
  let rest := s.helds.filter (fun x => x.id != h.id)
  { s with helds := if left.isEmpty then rest else { h with spent := true, requests := [], waiting := left } :: rest }

/-- Is every waited-for index of a held entry in it (R202, R302)? -/
def State.fullHeld (s : State) (h : Held) : Bool :=
  !h.spent && (s.waitedFor h).all (fun i => h.requests.any (fun r => r.1 == i))

/-- Fires every held entry that a change of its set has filled (R302), and ends the spent ones that wait for nobody (R303). -/
def State.settleHelds (s : State) : State :=
  let s := (s.helds.filter s.fullHeld).foldl State.fire s
  let someLeft := fun (h : Held) => match s.mgroup? h.die h.cid h.group with
    | some m => h.waiting.any (fun i => m.members.any (fun x => x.index == i))
    | none => false
  { s with helds := s.helds.filter (fun h => !h.spent || someLeft h) }

/-- Withdraws a member's requests from every held entry of its multicast group; a save lists the index for the spent entry
(R200, R209, R303). -/
def State.withdraw (s : State) (die cid mg idx gid : Nat) (save : Bool) : State :=
  { s with helds := s.helds.map (fun h =>
      if h.die == die && h.cid == cid && h.group == mg && !h.spent && h.requests.any (fun r => r.2.1 == gid) then
        { h with requests := h.requests.filter (fun r => r.2.1 != gid)
                 waiting := if save && !h.waiting.contains idx then idx :: h.waiting else h.waiting }
      else h) }

/-- A leaving member whose fills are all written ends its membership (R200). -/
def State.finishLeave (s : State) (m : MGroup) : State :=
  let gone := fun (x : Member) => x.leaving && !s.fills.any (fun f => f.gid == x.gid && f.group == m.number)
  s.setMGroup { m with members := m.members.filter (fun x => !gone x) }

/-- MCLEAVE of one multicast group (R200): requests withdrawn, the entries settled, the membership ended once no fill is
under way. -/
def State.mcLeave (s : State) (g : Group) (n : Nat) : State :=
  match s.mgroup? (coreDie g.core) g.cid n with
  | none => s
  | some m =>
    match m.members.find? (fun x => x.gid == g.id) with
    | none => s
    | some x =>
      let m' := { m with members := m.members.map (fun y => if y.gid = g.id then { y with leaving := true } else y) }
      let s := ((s.setMGroup m').withdraw m.die m.cid n x.index g.id false).settleHelds
      (match s.mgroup? m.die m.cid n with
        | some m'' => s.finishLeave m''
        | none => s).settleHelds

/-- A retiring group leaves every multicast group (R89). -/
def State.mcLeaveAll (s : State) (g : Group) : State :=
  ((s.mgroups.filter (fun m => m.die == coreDie g.core && m.cid == g.cid &&
      m.members.any (fun x => x.gid == g.id))).map (·.number)).foldl (fun s n => s.mcLeave g n) s

/-! ## Copy requests -/

/-- The copy request `k` of a block. -/
def State.copyReq? (s : State) (block k : Nat) : Option CopyReq :=
  s.copyReqs.find? (fun r => r.block == block && r.number == k)

/-- Replaces the copy request of the same number. -/
def State.setCopyReq (s : State) (r : CopyReq) : State :=
  { s with copyReqs := s.copyReqs.map (fun x => if x.id = r.id then r else x) }

/-- The groups of a block. -/
def State.blockGroups (s : State) (block : Nat) : List Group := s.groups.filter (fun g => g.block == block)

/-- The octet a block runs on, numbered over the module: that of its copy engine (R188, R190). -/
def State.blockOctet (s : State) (block : Nat) : Nat :=
  match s.block? block with
  | some b => b.cluster / 8
  | none => 0

/-- The rights-R read of `n` bytes of a context's name by an engine, as a weak load; or the failure (R191). -/
def State.engineRead (s : State) (cid core die : Nat) (k : DWord) (off n : Nat) : State × Except LookFail (List Byte) :=
  match s.resolve cid core die k off rightR with
  | (s, .lands l) => let (s, bs) := s.readClosing l.addr n; (s, .ok bs)
  | (s, .failed f) => (s, .error f)
  | (s, _) => (s, .error { tier := 0, label := 0, reason := 0, page := false, k := k, inst := 0, off := off, w5 := 0, gen := 0, malformed := false, w7 := 0 })

/-- Eight words of a 64-byte object. -/
def eightWords (bs : List Byte) : List DWord :=
  (List.range 8).map (fun i => BitVec.ofNat 64 (leNat ((bs.drop (8 * i)).take 8)))

/-- Reads the layout records that a started request still needs (R188): those of its slices that are not empty and whose
record lies at a multiple of 64. A lookup that fails leaves the rest unread, for the engine to report. -/
def State.readRecords (s : State) (cid core die : Nat) : List Slice → State × List Slice
  | [] => (s, [])
  | x :: rest =>
    let off := bitsAt (x.regs.getD 1 0).toNat 0 48
    let skip := x.rows == 0 || !x.record.isEmpty || off % 64 != 0
    let (s, x) := if skip then (s, x) else
      (match s.engineRead cid core die x.k off 64 with
        | (s, .ok bs) => (s, { x with record := eightWords bs })
        | (s, .error _) => (s, x))
    let (s, rest) := State.readRecords s cid core die rest
    (s, x :: rest)

/-- COPY_REQUEST_START: a request starts once every live group of its block has supplied its slice (R190); the engine then
reads each record. -/
def State.startCopies (s : State) (block : Nat) : State :=
  let ready := fun (r : CopyReq) => r.block == block && !r.started &&
    (s.blockGroups block).all (fun g => !g.live || decide (r.number < g.copies))
  (s.copyReqs.filter ready).foldl (fun s r =>
    let core := match (s.blockGroups block) with
      | g :: _ => g.core
      | [] => 0
    let cid := match s.block? block with
      | some b => b.cid
      | none => 0
    let (s, slices) := s.readRecords cid core (coreDie core) r.slices
    s.setCopyReq { r with started := true, slices := slices }) s

/-- Is a request over: completed or stopped (R192)? One no longer listed is. -/
def State.copyOver (s : State) (id : Nat) : Bool :=
  match s.copyReqs.find? (fun r => r.id == id) with
  | some r => r.stopped.isSome || r.finished
  | none => true

/-- Has a batch finished: every request over, and at mod and pod scope no copy on another die that does not show a write of it, unless
one of them stopped (R193, R291)? -/
def State.batchOver (s : State) (b : Batch) : Bool :=
  b.requests.all s.copyOver &&
    (b.scope < 5 || s.copyReqs.any (fun r => b.requests.contains r.id && r.stopped.isSome) ||
      !s.staleCopies.any (fun c => c.writers.any b.requests.contains))

/-- The sealed batches of a group that are not finished: a batch finishes after every one sealed before it (R193). -/
def State.unfinished (s : State) (g : Group) : List Batch := g.sealed.dropWhile s.batchOver

/-- Seals the open batch (R193). -/
def Group.seal (g : Group) (scope : Nat) : Group :=
  { g with sealed := g.sealed ++ [{ number := g.nextBatch, scope := scope, requests := g.openBatch }], openBatch := [],
           nextBatch := (g.nextBatch + 1) % 2 ^ 32 }

end Sys2Proof.Machine
end

