-- ==== Sys2Proof/Machine/Ops.lean ====
section
/-! DEFINITION. The operations of control that instructions share: the code segment and its fetch lines (R41 to R46), target
checks (R82), Split and Arrive (R86), the spill area (R40, R87), the end of a group (R88, R89), taking a trap (R96, R100) and
returning from one (R99), and instruction fetch faults (R334). -/
namespace Sys2Proof.Machine

/-! ## Fetch lines -/

/-- How many of the low `n` bits of a number are ones. -/
def onesIn : Nat → Nat → Nat
  | 0, _ => 0
  | n + 1, v => v % 2 + onesIn n (v / 2)

/-- The line word of a fetch line (R41). -/
def lineWord (bs : List Byte) : Nat := leNat ((bs.drop 60).take 4)

/-- Slot `i` of a fetch line (R41). -/
def lineSlot (bs : List Byte) (i : Nat) : Nat := leNat ((bs.drop (12 * i)).take 12)

/-- KIND of a line word (R42). -/
def lineKind (w : Nat) : Nat := bitsAt w 14 2
/-- Is slot `i` marked in TMASK (R42)? -/
def lineMarked (w i : Nat) : Bool := bitsAt w (6 + i) 1 == 1
/-- Is the line word's own parity right (R43)? -/
def lwpOk (w : Nat) : Bool := onesIn 27 (w / 32) % 2 == 0
/-- Is the parity of slot `i` right (R43)? -/
def slotOk (bs : List Byte) (i : Nat) : Bool := (onesIn 96 (lineSlot bs i) + bitsAt (lineWord bs) i 1) % 2 == 0

/-- Does a PC lie in the code segment (R44)? -/
def Launch.inSegment (l : Launch) (pc : Nat) : Bool := decide (pc < 5 * l.lines)

/-- The launch a group runs; a group without one runs an empty segment. -/
def State.launch (s : State) (g : Group) : Launch :=
  (s.launchOf g).getD { fuse := false, feat := 0, slabs := 1, top := 2, codeK := 0, codeOff := 0, lines := 0, entry := 0,
                        trapPc := 0xFFFFFFFFFF, kload := 0, spad := 0, levels := [], ks := [] }

/-- What a fetch of a line gives. -/
inductive Fetched where
  | line (bs : List Byte)
  | held
  | failed (f : LookFail)
  deriving DecidableEq, Repr

/-- Fetches the line of a PC through CODEK with right X (R334), whole (R41). -/
def State.fetchLine (s : State) (g : Group) (pc : Nat) : State × Fetched :=
  let l := s.launch g
  match s.resolve g.cid g.core (coreDie g.core) l.codeK (l.codeOff + 64 * (pc / 5)) rightX with
  | (s, .lands a) => let (s, bs) := s.readClosing a.addr 64; (s, .line bs)
  | (s, .failed f) => (s, .failed f)
  | (s, _) => (s, .held)

/-- What a target check finds (R82). -/
inductive Checked where
  | ok
  | bad (efault : DWord)
  | stall
  | failed (f : LookFail)
  deriving DecidableEq, Repr

/-- $efault of BADTARGET: the target PC and why (R97). -/
def badTarget (pc code : Nat) : DWord := BitVec.ofNat 64 (pc % 2 ^ 40 + code * 2 ^ 40)

/-- A PC plus a signed offset. -/
def offsetPc (pc : Pc) (off : BitVec 24) : Int := (pc.toNat : Int) + off.toInt

/-- A join against the segment alone (R82). -/
def Launch.joinOk (l : Launch) (pc : Int) : Checked :=
  if 0 ≤ pc && l.inSegment pc.toNat then .ok else .bad (badTarget (modBits 40 pc) 1)

/-- A target that is taken, against the segment, the line's KIND and TMASK (R44, R45, R82). -/
def State.checkTarget (s : State) (g : Group) (pc : Int) : State × Checked :=
  if 0 ≤ pc && (s.launch g).inSegment pc.toNat then
    match s.fetchLine g pc.toNat with
    | (s, .failed f) => (s, .failed f)
    | (s, .held) => (s, .stall)
    | (s, .line bs) =>
      let w := lineWord bs
      if lineKind w == 1 || lineKind w == 2 then (s, .bad (badTarget pc.toNat 3))
      else if lineMarked w (pc.toNat % 5) then (s, .ok)
      else (s, .bad (badTarget pc.toNat 2))
  else (s, .bad (badTarget (modBits 40 pc) 1))

/-! ## The spill area -/

/-- The place of entry `e` of a group's spill stacks (R87, R328). -/
def State.spillAddr (s : State) (g : Group) (e : Nat) : Nat :=
  bitsAt (s.ctxWord g.cid 3) 0 48 + 4096 * (96 * g.core + g.grp) + 32 * e

/-- The entry number of the `j`-th entry from the bottom of a slot's stack: A grows upward, B downward (R87). -/
def spillIndex (n : SlotName) (j : Nat) : Nat := match n with
  | .a => j
  | .b => 127 - j

/-- A spill entry's 32 bytes (R40). -/
def Spill.bytes (e : Spill) : List Byte :=
  leBytes 4 e.rpc.toNat ++ leBytes 4 e.jpc.toNat ++ leBytes 4 e.mask.toNat ++ leBytes 4 e.fmt.toNat ++ leBytes 16 0

/-- A spill entry read back from memory (R40). -/
def Spill.ofBytes (bs : List Byte) (stamp : Nat) : Spill :=
  let w := fun (i : Nat) => leNat ((bs.drop (4 * i)).take 4)
  { rpc := BitVec.ofNat 40 (w 0), jpc := BitVec.ofNat 40 (w 1), mask := BitVec.ofNat 32 (w 2), fmt := BitVec.ofNat 32 (w 3),
    cached := true, stamp := stamp }

/-- The stamps of the entries that the core caches. -/
def Group.cachedStamps (g : Group) : List Nat := ((g.a.spill ++ g.b.spill).filter (·.cached)).map (·.stamp)

/-- Writes a slot's entry with this stamp to the spill area and drops it from the cache. -/
def State.evictSpill (s : State) (g : Group) (n : SlotName) (stamp : Nat) : State × Group :=
  let x := g.slot n
  let len := x.spill.length
  let s := (List.range len).foldl (fun s i => match x.spill[i]? with
    | some e => if e.stamp == stamp then s.storeBytes (s.spillAddr g (spillIndex n (len - 1 - i))) e.bytes else s
    | none => s) s
  (s, g.setSlot n { x with spill := x.spill.map (fun e => if e.stamp = stamp then { e with cached := false } else e) })

/-- Moves to the spill area every cached entry that is not among the two most recently pushed of those on either stack (R87). -/
def State.trimCache (s : State) (g : Group) : State × Group :=
  let all := (g.a.spill ++ g.b.spill).map (·.stamp)
  let older := g.cachedStamps.filter (fun t => decide (2 ≤ (all.filter (fun u => decide (t < u))).length))
  older.foldl (fun (p : State × Group) t =>
    let (s, g) := p.1.evictSpill p.2 .a t
    s.evictSpill g .b t) (s, g)

/-- Pushes an entry. The core keeps the two most recently pushed; an older one moves to the spill area, and the slot waits
for that move (R40, R87). -/
def State.pushSpill (s : State) (g : Group) (n : SlotName) (e : Spill) : State × Group :=
  let x := g.slot n
  let g := g.setSlot n { x with spill := e :: x.spill }
  if g.cachedStamps.length ≤ 2 then (s, g)
  else
    let (s, g) := s.trimCache g
    (s, g.setSlot n { g.slot n with moving := true })

/-- The cache of a group trimmed after an entry has come back and its slot has arrived (R87). -/
def State.trimSpill (s : State) (gid : Nat) : State :=
  match s.group? gid with
  | none => s
  | some g =>
    let (s, g) := s.trimCache g
    s.setGroup g

/-! ## Split and Arrive -/

/-- Split of R86 for the taken and the other lanes. None: SPILLFULL, nothing changed. `swap`: which slot now holds the
taken lanes. -/
def State.split (s : State) (g : Group) (n : SlotName) (taken rest : Mask) (tpc rpc jpc : Pc) :
    Option (State × Group × SlotName) :=
  let x := g.slot n
  let y := g.slot n.other
  if taken = 0 then some (s, g.setSlot n { x with pc := rpc, check := false }, n)
  else if rest = 0 then some (s, g.setSlot n { x with pc := tpc, check := false }, n)
  else if y.st = .free then
    let y := { Slot.empty with st := .run, pc := tpc, mask := taken, fmt := x.fmt, pj := some jpc, pf := x.fmt,
                               rets := x.rets }
    some (s, (g.setSlot n { x with pc := rpc, mask := rest, pj := some jpc, pf := x.fmt, check := false }).setSlot n.other y,
      n.other)
  else if g.a.spill.length + g.b.spill.length = 128 then none
  else
    let (s, g) := s.pushSpill (g.setSlot n { x with pc := tpc, mask := taken, check := false }) n
      { rpc := rpc, jpc := jpc, mask := rest, fmt := x.fmt, cached := true, stamp := s.turn }
    some (s, g, n)

/-- Inner(x) of R86. -/
def Slot.inner (x : Slot) : Option Pc :=
  match x.spill with
  | e :: _ => some e.jpc
  | [] => x.pj

/-- Is the request a slot's own, which counts on no path: an instruction fetch or the read of a WAITW? -/
def ReqKind.ofSlot : ReqKind → Bool
  | .fetch => true
  | .word _ => true
  | _ => false

/-- Discards the windows of units whose last block has retired (R230). -/
def State.dropWindows (s : State) : State :=
  { s with windows := s.windows.filter (fun w =>
      match s.grid? w.grid with
      | none => false
      | some x =>
        let n := x.launch.top + 1 - w.path.length
        let whole := x.launch.unitsIn x.launch.blockLevel n
        let mine := s.blocks.filter (fun b => b.grid == w.grid && b.path.take w.path.length == w.path)
        !(mine.length == whole && mine.all (fun b => b.state == .retired || b.state == .released))) }

/-- The group stops: its slots hold nothing, it departs from barriers, arrays and multicast groups, its block's copies and
its own end are settled (R88, R89). -/
def State.retire (s : State) (g : Group) : State :=
  let g := { g.seal 0 with life := .retired, a := { Slot.empty with age := g.a.age }, b := { Slot.empty with age := g.b.age },
                           stale := [], late := [] }
  let s := { s.setGroup g with watches := s.watches.filter (fun w => w.gid != g.id),
                               reqs := s.reqs.filter (fun r => !(r.gid == g.id && r.kind.ofSlot)) }
  let s : State := { s with blocks := s.blocks.map (fun (b : Block) => { b with owed := b.owed.filter (fun e => e.2.owner != some g.id) }) }
  let s := (((s.settleBarriers).mcLeaveAll g).leaveFifo g).releaseRetired g
  let s := s.startCopies g.block
  match s.block? g.block with
  | some b => if (s.blockGroups g.block).all (fun x => !x.live) then (s.setBlock { b with state := .retired }).dropWindows else s
  | none => s

/-- Arrive of R86 for a slot that stands at its innermost join or holds no lane. An entry in the spill area is fetched
first, and the slot waits for that (R87). -/
def State.arrive (s : State) (g : Group) (n : SlotName) : State :=
  let x := g.slot n
  let y := g.slot n.other
  match x.spill with
  | e :: rest =>
    if !e.cached then s.setGroup (g.setSlot n { x with moving := true })
    else if e.rpc = e.jpc then
      s.setGroup (g.setSlot n { x with spill := rest, mask := x.mask ||| e.mask, fmt := e.fmt, pc := e.jpc, check := true })
    else
      s.setGroup (g.setSlot n { x with spill := { e with rpc := e.jpc, mask := x.mask } :: rest, pc := e.rpc, mask := e.mask,
                                       fmt := e.fmt, check := false })
  | [] =>
    match x.pj with
    | some j =>
      if y.st = .park then
        (s.setGroup { g with
          a := { g.a with st := .run, mask := x.mask ||| y.mask, fmt := x.pf, pc := j, pj := none, check := true, wait := none }
          b := { Slot.empty with age := g.b.age } }).settleBarriers
      else (s.setGroup (g.setSlot n { x with st := .park })).settleBarriers
    | none =>
      let g := g.setSlot n { Slot.empty with age := x.age }
      if y.st = .free then s.retire g else (s.setGroup g).settleBarriers

/-- Must the slot run Arrive before it issues (R86)? -/
def Slot.arriving (x : Slot) : Bool :=
  x.st == .run && x.wait.isNone && !x.moving && (x.mask == 0 || some x.pc == x.inner)

/-- Arrive, repeated until the slot may issue, parks or is freed (R86). Each turn pops, exchanges or parks: `fuel` turns. -/
def State.settleSlot (s : State) (gid : Nat) (n : SlotName) : Nat → State
  | 0 => s
  | fuel + 1 =>
    match s.group? gid with
    | some g => if (g.slot n).arriving then State.settleSlot (s.arrive g n) gid n fuel else s
    | none => s

/-- Both slots of a group settled. A stack of 128 entries takes at most two turns for each. -/
def State.settleSlots (s : State) (gid : Nat) : State := (s.settleSlot gid .a 260).settleSlot gid .b 260

/-! ## Traps -/

/-- The trap entry cause codes of R97. -/
def causeUndef : Nat := 1
/-- PARITY. -/
def causeParity : Nat := 2
/-- BADTARGET. -/
def causeBadTarget : Nat := 3
/-- REGBOUND. -/
def causeRegBound : Nat := 4
/-- UNSUPPORTED. -/
def causeUnsupported : Nat := 5
/-- TRAP. -/
def causeTrap : Nat := 6
/-- BREAK. -/
def causeBreak : Nat := 7
/-- MISALIGN. -/
def causeMisalign : Nat := 8
/-- TIERFAULT. -/
def causeTierFault : Nat := 9
/-- ATOMLOST. -/
def causeAtomLost : Nat := 10
/-- SPILLFULL. -/
def causeSpillFull : Nat := 11
/-- CALLDEPTH. -/
def causeCallDepth : Nat := 12
/-- GROWSTALL. -/
def causeGrowStall : Nat := 13
/-- BARSTALL. -/
def causeBarStall : Nat := 14
/-- COPYFAULT. -/
def causeCopyFault : Nat := 15
/-- LAUNCHFAIL. -/
def causeLaunchFail : Nat := 16

/-- The number of the trap bank's register for S180 + i (R31). -/
def trapBank (i : Nat) : Nat := 192 + i

/-- Q0 to Q3 as four bits. -/
def Group.qBits (g : Group) : Nat := ((List.range 4).map (fun i => (g.peek (.q i)).toNat * 2 ^ i)).foldl (· + ·) 0

/-- The trap frame of R31. -/
def Group.frame (g : Group) (n : SlotName) (cause : Nat) (efault : DWord) (lanes : Mask) (tag lclk : DWord) : List DWord :=
  let x := g.slot n
  [x.pc.setWidth 64, BitVec.ofNat 64 cause, efault, x.mask ++ lanes, x.fmt.setWidth 64,
   BitVec.ofNat 64 (g.qBits + (if n = .b then 256 else 0)), lclk, tag, 0, 0, 0, 0]

/-- Fills the trap bank (R31). -/
def Group.fillFrame (g : Group) (ws : List DWord) : Group :=
  (List.range 12).foldl (fun g i => { g.poke (.s (trapBank i)) (ws.getD i 0) with
    stale := g.stale.filter (fun e => e.cell != .s (trapBank i)) }) g

/-- Ends a group with a GROUP record, as KILL does (R100). -/
def State.endGroup (s : State) (g : Group) (cause handled : Nat) (pc : Pc) (efault : DWord) : State :=
  let s := (s.groupRecord g cause handled pc efault).retire g
  match s.grid? (s.gridId g) with
  | some x => s.setGrid { x with faulted := true }
  | none => s

/-- Trap entry (R96): every non-memory result of the slot is written, the frame filled, the slot enters trap mode and jumps
to the trap entry PC, which counts as a branch target. A trap in trap mode, or with no trap entry PC, ends the group (R100). -/
def State.trap (s : State) (g : Group) (n : SlotName) (cause : Nat) (efault : DWord) (lanes : Mask) (tag : DWord) : State :=
  let x := g.slot n
  let entry := (s.launch g).trapPc
  match x.trap with
  | some t => s.endGroup g cause t.cause x.pc efault
  | none =>
    if entry = 0xFFFFFFFFFF then s.endGroup g cause 0 x.pc efault
    else
      let g := (g.mark x.mask).fillFrame (g.frame n cause efault lanes tag (s.core g.core).lclk)
      s.setGroup (g.setSlot n { x with
        pc := entry, wait := none, check := true, refetched := []
        trap := some { mask := x.mask, rets := x.rets.length, spills := x.spill.length, pc := x.pc, cause := cause } })

/-- A precise trap of the issuing instruction, for all its slot's lanes, with no request. -/
def State.raise (s : State) (u : Issuer) (cause : Nat) (efault : DWord) : State :=
  s.trap u.g u.name cause efault u.slot.mask 0

/-- The last `n` entries of a stack whose top is its head. -/
def keepDepth {α : Type} (l : List α) (n : Nat) : List α := l.drop (l.length - n)

/-- The return of R99 to a PC already checked: depths, mask, FMT, Q registers and PC restored, trap mode left. FMT takes the word in S184 as it
stands, without the check that R34 makes of FMTSET and WRSR, and the PC is the low 40 bits of S180 (assumption 22). -/
def Group.eret (g : Group) (n : SlotName) (t : TrapMode) : Group :=
  let x := g.slot n
  let q := (g.peek (.s (trapBank 5))).toNat
  let g := (List.range 4).foldl (fun g i => { g.poke (.q i) (BitVec.ofNat 64 (bitsAt q i 1)) with
    stale := g.stale.filter (fun e => e.cell != .q i) }) g
  g.setSlot n { x with
    trap := none, mask := t.mask, rets := keepDepth x.rets t.rets, spill := keepDepth x.spill t.spills
    fmt := (g.peek (.s (trapBank 4))).setWidth 32, pc := (g.peek (.s (trapBank 0))).setWidth 40, check := false, wait := none }

/-! ## Request tags and fetch faults -/

/-- A core's request tag (R365). -/
def requestTag (core grp log lane seq : Nat) : DWord :=
  BitVec.ofNat 64 (coreDie core * 2 ^ 60 + coreOct core * 2 ^ 58 + coreClus core * 2 ^ 55 + coreIdx core * 2 ^ 53 +
    grp * 2 ^ 46 + log * 2 ^ 40 + lane * 2 ^ 32 + seq % 2 ^ 32)

/-- The next issue sequence number of a core (R365). -/
def State.nextSeq (s : State) (core : Nat) : State × Word :=
  let c := s.core core
  (s.setCore core { c with seq := c.seq + 1 }, c.seq)

/-- $efault of TIERFAULT (R97). -/
def tierEfault (tier label reason : Nat) (pc : Pc) : DWord :=
  BitVec.ofNat 64 (tier + label * 4 + reason * 2 ^ 20 + pc.toNat * 2 ^ 24)

/-- A request of a group with nothing asked yet. -/
def Req.blank (id : Nat) (g : Group) (kind : ReqKind) (fc : Nat) : Req :=
  { id := id, acc := 0, gid := g.id, core := g.core, cid := g.cid, turn := 0, kind := kind, k0 := 0, off0 := 0, k := 0, off := 0,
    rights := 31, need := 0, phase := .at .core g.cid, lanes := [], left := 0, ord := 0, scp := 0, ch := 0, window := false,
    seq := 0, log := 0, passed := [], line := 0, mode := .coh, noL1 := false, fc := fc, contribs := 1,
    list := 0, behind := 0, transients := 0, carriers := [] }

/-- A lookup of the slot's own, by instruction fetch or by WAITW, that failed: its record goes to the owner and the slot
waits for the verdict; a record that is dropped settles it at once (R334, R361, R366). `acc` names the slot. -/
def State.slotFault (s : State) (g : Group) (n : SlotName) (kind : ReqKind) (need : BitVec 5) (f : LookFail) : State :=
  let (s, seq) := s.nextSeq g.core
  let x := g.slot n
  let tag := requestTag g.core g.grp 0 (lowestLane x.mask) seq.toNat
  let (s, fq) := s.reportFailure f tag need g.cid (coreDie g.core)
  match fq with
  | none => s.trap g n causeTierFault (tierEfault f.tier f.label f.reason x.pc) x.mask tag
  | some _ =>
    let (id, s) := s.fresh
    let e : Failure := { lanes := x.mask, tier := f.tier, label := f.label, reason := f.reason, tag := tag, lost := false }
    { s with reqs := s.reqs ++ [{ Req.blank id g kind s.fc with
        acc := (if n = .a then 0 else 1), seq := seq, need := need, phase := .suspended e fq s.fc }] }

/-- Does the slot wait for a verdict on a lookup of its own? -/
def State.slotSuspended (s : State) (g : Group) (n : SlotName) : Bool :=
  s.reqs.any (fun r => r.gid == g.id && r.acc == (if n = .a then 0 else 1) &&
    r.kind.ofSlot)

end Sys2Proof.Machine
end

