-- ==== Sys2Proof/Machine/Ready.lean ====
section
/-! DEFINITION. When a parked slot may go on (R232): what each wait asks for, and what a covering wait has to deliver (R98). -/
namespace Sys2Proof.Machine

/-! ## Covering waits -/

/-- The accesses of a path that a wait for a count of at most `n` covers: all but the `n` youngest (R38, R205). -/
def Group.covered (g : Group) (p : Path) (n : Nat) : List Access :=
  let l := g.accs.filter (fun a => a.path == p)
  l.take (l.length - n)

/-- The oldest access among some that is over with an error (R98). -/
def oldestFailed (l : List Access) : Option Access := l.find? (fun a => a.done && a.fail.isSome)

/-- The accesses a FENCE waits for (R162): the loads (`acq`) and the stores (`rel`) issued before a turn. -/
def Group.fenced (g : Group) (acq rel : Bool) (turn : Nat) : List Access :=
  g.accs.filter (fun a => a.turn < turn && ((acq && a.loads) || (rel && a.stores)))

/-- Are a group's earlier stores, already accepted, and those it has acquired, performed at a scope: no dirty bytes of them left in the L1
for a scope beyond the core, no copy on another die that does not show them for a scope beyond the die, no store that a Span egress
has accepted and its home not yet acknowledged for pod scope (R265, R266, R277, R283, R287)? -/
def State.performedAt (s : State) (g : Group) (scp : Nat) : Bool :=
  (scp < 2 || !s.l1.any (fun l => l.writers.contains g.id)) &&
  (scp < 5 || !s.staleCopies.any (fun c => c.writers.contains g.id)) &&
  (scp < 6 || !s.reqs.any (fun r => (r.gid == g.id || r.carriers.contains g.id) && r.phase == .replied && r.left != 0 && (remoteOf (128 * r.line)).isSome))

/-- Is a FENCE's condition met (R162)? -/
def State.fenceHolds (s : State) (g : Group) (acq rel : Bool) (scp turn : Nat) : Bool :=
  (g.fenced acq rel turn).all (·.done) && (!rel || s.performedAt g scp)

/-- The stopped requests that a CPWAIT for `n` covers and has not told the group of, the oldest first (R193, R194): those of the
batches that have finished. -/
def State.stoppedCopies (s : State) (g : Group) (n : Nat) : List CopyReq :=
  let finished := g.sealed.length - (s.unfinished g).length
  let ids := (g.sealed.take (min finished (g.sealed.length - n))).flatMap (·.requests)
  s.copyReqs.filter (fun r => ids.contains r.id && r.stopped.isSome && !r.told.contains g.id)

/-! ## Matrix positions -/

/-- The $grp that a roster names for position `p`, 1 to 7 (R170). -/
def rosterGrp (r : DWord) (p : Nat) : Nat := bitsAt r.toNat (7 * (p - 1)) 7

/-- Is position `p` in use (R170)? -/
def rosterUses (r : DWord) (p : Nat) : Bool := bitsAt r.toNat (49 + (p - 1)) 1 == 1

/-- The core that holds the groups of position `p`: the owner's for 0 to 3, the follower for 4 to 7 (R170). -/
def positionCore (owner : Nat) (p : Nat) : Nat := if p < 4 then owner else pairOther owner

/-- The group present at position `p` of the owner's array (R170). -/
def State.presentAt (s : State) (g : Group) (p : Nat) : Option Group :=
  if p = 0 then some g
  else
    let r := (s.matrix g.core).roster
    if rosterUses r p then
      s.groups.find? (fun x => x.core == positionCore g.core p && x.grp == rosterGrp r p && x.block == g.block &&
        x.life == .resident)
    else none

/-- The pending slice of a group at its core's array (R175). -/
def State.pendingSlice (s : State) (g : Group) : Option ASlice := (s.matrix g.core).ready.find? (fun a => a.gid == g.id)

/-- The positions of an operation, 0 to 3, or 0 to 7 when paired (R176). -/
def positions (pair : Bool) : List Nat := if pair then List.range 8 else List.range 4

/-- Has every present position but the owner's a pending slice, or is the latch full (R176)? -/
def State.slicesReady (s : State) (g : Group) (pair : Bool) : Bool :=
  (s.matrix g.core).latch.isSome ||
    (positions pair).all (fun p => p == 0 || (match s.presentAt g p with
      | some x => (s.pendingSlice x).isSome
      | none => true))

/-! ## Registers on demand -/

/-- Does the group still hold its slabs (R89, R233)? -/
def Group.holdsRoom (g : Group) : Bool := g.life == .resident || (g.life == .retired && !g.accs.isEmpty)

/-- The free slabs of a quadrant (R29). -/
def State.freeSlabs (s : State) (core quad : Nat) : Nat :=
  32 - ((s.groups.filter (fun g => g.core == core && grpQuad g.grp == quad && g.holdsRoom)).map (·.slabs)).foldl (· + ·) 0

/-- The slabs a slot parked in RGROW asks for, and since when (R207). -/
def Slot.growing (x : Slot) : Option (Nat × Nat) :=
  match x.wait with
  | some w => (match w.cond with
    | .slabs n => some (n, w.turn)
    | _ => none)
  | none => none

/-- The slots of a quadrant's live groups that are busy. -/
def State.busySlots (s : State) (core quad : Nat) : List Slot :=
  ((s.groups.filter (fun g => g.core == core && grpQuad g.grp == quad && g.life == .resident)).flatMap
    (fun g => [g.a, g.b])).filter (fun x => x.st != .free)

/-- Is a request for slabs granted: at the head of the quadrant's queue, with room (R207)? -/
def State.growGranted (s : State) (g : Group) (n turn : Nat) : Bool :=
  n ≤ g.slabs || ((s.busySlots g.core (grpQuad g.grp)).all (fun x => match x.growing with
    | some (_, t) => turn ≤ t
    | none => true) && decide (n - g.slabs ≤ s.freeSlabs g.core (grpQuad g.grp)))

/-- The youngest placed group with a slot parked in RGROW. -/
def State.youngestGrowing (s : State) (core quad : Nat) : Option Nat :=
  (((s.groups.filter (fun g => g.core == core && grpQuad g.grp == quad && g.life == .resident &&
    (g.a.growing.isSome || g.b.growing.isSome))).map (·.id)).foldl (fun m i => max m (i + 1)) 0) |> fun m =>
    if m = 0 then none else some (m - 1)

/-- Does GROWSTALL fall on this group: every busy slot of the quadrant parked in RGROW, none of them granted, and it the
youngest placed (R207)? -/
def State.growStalled (s : State) (g : Group) : Bool :=
  (s.busySlots g.core (grpQuad g.grp)).all (fun x => x.growing.isSome) &&
    s.youngestGrowing g.core (grpQuad g.grp) == some g.id &&
    (s.groups.filter (fun x => x.core == g.core && grpQuad x.grp == grpQuad g.grp && x.life == .resident)).all (fun x =>
      [x.a, x.b].all (fun y => match y.growing with
        | some (n, t) => !s.growGranted x n t
        | none => true))

/-- Is nothing due to a register at or above V(32n) (R207)? -/
def State.shrinkSettled (s : State) (g : Group) (n : Nat) : Bool :=
  let high := fun (c : Cell) => match c with
    | .v r _ => decide (32 * n ≤ r)
    | _ => false
  g.accs.all (fun a => a.done || !a.dest.any high) &&
    (s.matrix g.core).ops.all (fun o => match o with
      | .read acc _ reg _ _ _ => (g.access? acc).isNone || decide (reg + 32 ≤ 32 * n)
      | _ => true) &&
    (s.matrix g.core).ready.all (fun a => a.gid != g.id || decide (a.reg + (if a.fmt = 15 then 18 else 16) * a.ks ≤ 32 * n))

/-! ## Stalled barrier objects -/

/-- The barrier-object wait of a slot: core, place, phase. -/
def Slot.objectWait (x : Slot) : Option (Nat × Nat × Word) :=
  match x.wait with
  | some w => (match w.cond with
    | .object c a p => some (c, a, p)
    | _ => none)
  | none => none

/-- R198: every live group of the unit parked at this object and phase, no fill for it pending. BOARR acts at once, so none
is in flight. -/
def State.objectStalled (s : State) (g : Group) (core place : Nat) (phase : Word) : Bool :=
  let o := s.bobj core place
  let top := (s.launch g).top
  let waits := fun (x : Group) => [x.a, x.b].any (fun y => y.objectWait == some (core, place, phase))
  let members := s.mgroups.flatMap (fun m => (m.members.filter (fun x => x.object == place &&
    (match s.group? x.gid with
      | some y => y.core == core
      | none => false))).map (fun x => (m, x)))
  o.phase == phase.toNat && !o.flt &&
    (s.unitGroups (s.gridId g) top o.level (g.unitPath top o.level)).all waits &&
    !s.fills.any (fun f => f.core == core && f.object == place) &&
    !members.any (fun e => s.helds.any (fun h => h.cid == e.1.cid && h.die == e.1.die && h.group == e.1.number &&
      !h.spent && h.requests.any (fun r => r.2.1 == e.2.gid))) &&
    !members.any (fun e => s.reqs.any (fun r => r.gid == e.2.gid && (match r.kind with
      | .mcast n _ => n == e.1.number
      | _ => false)))

/-! ## Device-side queues -/

/-- The address of a device-side queue's entry (R341). -/
def State.dsqAddr (s : State) (cid q : Nat) : Nat := bitsAt (s.ctxWord cid 8) 0 48 + 32 * q

/-- A word of a device-side queue's entry. -/
def State.dsqWord (s : State) (cid q i : Nat) : Nat := s.loadN (s.dsqAddr cid q + 8 * i) 8

/-- Is the queue configured (R341)? -/
def State.dsqEnabled (s : State) (cid q : Nat) : Bool := bitsAt (s.dsqWord cid q 1) 63 1 == 1
/-- Its capacity. -/
def State.dsqCap (s : State) (cid q : Nat) : Nat := 2 ^ bitsAt (s.dsqWord cid q 1) 48 5
/-- Its read index. -/
def State.dsqRd (s : State) (cid q : Nat) : Nat := bitsAt (s.dsqWord cid q 2) 32 32
/-- Its write index. -/
def State.dsqW (s : State) (cid q : Nat) : Nat := bitsAt (s.dsqWord cid q 2) 0 32

/-- The distance from one index to another modulo 2^32. -/
def indexDist (w r : Nat) : Nat := (w + 2 ^ 32 - r % 2 ^ 32) % 2 ^ 32

/-! ## Partners of XCH -/

/-- The group of this context, resident and another, at a position an XCH names (R122). -/
def State.xchPartner (s : State) (g : Group) (core grp : Nat) : Option Group :=
  s.groups.find? (fun x => x.core == core && x.grp == grp && x.cid == g.cid && x.life == .resident && x.id != g.id)

/-! ## Waits -/

/-- Is another slot parked on the same queue, on the same side, before this turn (R204)? -/
def State.queuedBefore (s : State) (core place turn : Nat) (push : Bool) : Bool :=
  s.groups.any (fun g => g.life == .resident && [g.a, g.b].any (fun x => match x.wait with
    | some w => (match w.cond with
      | .queueRoom c a t => push && c == core && a == place && decide (t < turn)
      | .queueItem c a t => !push && c == core && a == place && decide (t < turn)
      | _ => false)
    | none => false))

/-- How many requests the copy engine of a block's octet has queued (R190). -/
def State.engineQueue (s : State) (octet : Nat) : Nat :=
  (s.copyReqs.filter (fun r => r.stopped.isNone && !r.finished && s.blockOctet r.block == octet)).length

/-- Does what the slot waits for hold, or has a covering wait something to deliver (R98, R232)? -/
def State.condHolds (s : State) (g : Group) (w : Wait) : Bool :=
  w.done || (match w.cond with
    | .counter p n => g.counter p ≤ n || (oldestFailed (g.covered p n)).isSome
    | .fence acq rel scp turn =>
      s.fenceHolds g acq rel scp turn || (oldestFailed (g.fenced acq rel turn)).isSome
    | .clock _ => false
    | .barrier level phase =>
      phase < (s.barrier (s.gridId g) level (g.unitPath (s.launch g).top level)).phase
    | .object core place phase => s.spoiledGoes core place ||
      (!s.isSpoiled core place && ((s.bobj core place).phase != phase.toNat || (s.bobj core place).flt || s.objectStalled g core place phase))
    | .queueRoom core place stamp => s.spoiledGoes core place ||
      (!s.isSpoiled core place && 0 < (s.qobj core place).allow && !s.queuedBefore core place stamp true)
    | .queueItem core place stamp => s.spoiledGoes core place ||
      (!s.isSpoiled core place && (s.qobj core place).head != (s.qobj core place).tail && !s.queuedBefore core place stamp false)
    | .batches n => (s.unfinished g).length ≤ n || !(s.stoppedCopies g n).isEmpty
    | .sealRoom => decide ((s.unfinished g).length ≤ 15)
    | .engineRoom => (s.copyReq? g.block g.copies).isSome || decide (s.engineQueue (s.blockOctet g.block) < 256)
    | .granted => s.owns g g.core
    | .matrixIdle => (s.matrix g.core).ops.isEmpty
    | .matrixWait => (g.counter .mx == 0 && (s.pendingSlice g).isNone) || !g.mxErrors.isEmpty
    | .noReady => (s.pendingSlice g).isNone
    | .slices => s.slicesReady g (match w.instr with
        | .mma f => f.pair
        | .mmab f => f.pair
        | _ => false)
    | .clockTest ac => ac ≤ (s.die (coreDie g.core)).clock.toNat
    | .slabs n => s.growGranted g n w.turn || s.growStalled g
    | .settled n => s.shrinkSettled g n
    | .launchRoom cid q x => indexDist x.toNat (s.dsqRd cid q) ≤ s.dsqCap cid q
    | .fills n =>
      (match s.mgroup? (coreDie g.core) g.cid n with
        | some m => !m.members.any (fun x => x.gid == g.id)
        | none => true)
    | .event => (match w.instr with
        | .xch _ => (s.xchPartner g (w.ops.getD 0 0) (w.ops.getD 1 0)).isNone
        | _ => false))

/-- A blocking instruction: it takes its operands as it issues (R187) and goes on at once where what it waits for holds; otherwise the
slot parks, and goes on with the operands it took (R232). -/
def State.await (s : State) (u : Issuer) (i : Instr) (ops : List Nat) (c : Cond) (k : List Nat → State) : State :=
  match u.slot.wait with
  | some w => if s.condHolds u.g w then k w.ops else s
  | none =>
    if s.condHolds u.g { instr := i, ops := ops, cond := c, done := false, turn := s.turn, fc := s.fc } then k ops
    else s.park u.g u.name i ops c

end Sys2Proof.Machine
end

