-- ==== Sys2Proof/Machine/Uses.lean ====
section
/-! DEFINITION. The registers that an instruction reads and those it names as destinations, off its row of legal values (R50 to R56):
what a marked instruction may need (R98), and what the two of a pair may not share (R47). -/
namespace Sys2Proof.Machine
open Sys2Proof

/-- The registers that an operand names: V registers from one on, or one S, K, P or Q register, by its own number. -/
inductive RegUse where
  | v (r n : Nat)
  | s (r : Nat)
  | k (r : Nat)
  | p (r : Nat)
  | q (r : Nat)
  deriving DecidableEq, Repr

/-- Does an operand name the register of a cell? A P or V register is named in every lane. -/
def RegUse.covers (u : RegUse) : Cell → Bool
  | .v r _ => (match u with
    | .v a n => decide (a ≤ r ∧ r < a + n)
    | _ => false)
  | .s r => u == .s r
  | .k r => u == .k r
  | .p r _ => u == .p r
  | .q r => u == .q r

/-- Do two operands share a register? -/
def RegUse.meets : RegUse → RegUse → Bool
  | .v a n, .v b m => decide (a < b + m ∧ b < a + n)
  | x, y => x == y

/-- A span of V registers as an operand. -/
def spanUse (v : VSpan) : RegUse := .v v.reg v.count

/-- The predicate of a lane guard; 7 is always true (R32). -/
def laneGuardUse (f : Common) : List RegUse := if f.pg = 7 then [] else [.p f.pg.toNat]

/-- The Q register of a uniform guard; 7 is always (R32). -/
def uniformGuardUse (f : Common) : List RegUse := if f.pg = 7 then [] else [.q f.pg.toNat]

/-- What a guard reads, by the kind of it. -/
def guardUse (k : GuardUse) (f : Common) : List RegUse :=
  match k with
  | .lane => laneGuardUse f
  | .uniform => uniformGuardUse f
  | .none => []

/-- What a source field of a VR instruction reads; the random bits only when the rounding is stochastic, by RM or by FMT (R71). -/
def opReads (use : Use) (field : Nat) (sel : Bool) (t u rm : Nat) (random : Bool) : List RegUse :=
  match use with
  | .zero => []
  | .reg n => [spanUse (n.span t u field)]
  | .pred => [.p field]
  | .regU n => if sel then [.s u] else [spanUse (n.span t u field)]
  | .uOnly => [.s u]
  | .srBits => if rm = 5 ∨ (rm = 6 ∧ random) then (if sel then [.s u] else [.v field 1]) else []
  | .srReg => if rm = 5 ∨ (rm = 6 ∧ random) then [.v field 1] else []

/-- What a field of an SR instruction names. -/
def sUse (use : SUse) (field : Nat) : List RegUse :=
  match use with
  | .s => [.s field]
  | .k => [.k (field - 192)]
  | .q => [.q field]
  | _ => []

/-- What a data field of an M instruction names. -/
def dataUse (use : DataUse) (field sz : Nat) : List RegUse :=
  match use with
  | .s => [.s field]
  | _ => (use.spans field sz).map spanUse

/-- What a field of an E instruction names. -/
def eUse (use : EUse) (field : Nat) : List RegUse :=
  match use with
  | .zero => []
  | .s => [.s field]
  | .v => [.v field 1]
  | .k => [.k (field - 192)]

/-- Is D of the instruction a source: the data of a store, the destination address of a multicast load (R147, R201)? -/
def readsD : Instr → Bool
  | .st _ => true
  | .stu _ => true
  | .sts _ => true
  | .mcld _ => true
  | _ => false

/-- Does a copy instruction name seven S registers by A (R189)? -/
def aRegs : Instr → Nat
  | .cpyLd _ => 7
  | .cpySt _ => 7
  | _ => 1

/-- The registers an instruction reads. `random`: FMT selects stochastic rounding (R71); `spans` are its V registers where FMT gives
a slice its size (R171). -/
def instrReads (i : Instr) (random : Bool) (spans : List VSpan) : List RegUse :=
  match i.row with
  | .vr s f =>
    let t := f.t.toNat
    let u := f.u.toNat
    let rm := f.rm.toNat
    laneGuardUse f.toCommon ++ opReads s.a f.a.toNat false t u rm random ++ opReads s.b f.b.toNat f.bu t u rm random ++
      opReads s.c f.c.toNat f.cu t u rm random ++ (if s.u = .sreg then [.s u] else [])
  | .vi s f => laneGuardUse f.toCommon ++ (if s.useA then [spanUse (RegN.byT.span f.t.toNat 0 f.a.toNat)] else [])
  | .sr s f => uniformGuardUse f.toCommon ++ sUse s.sa f.sa.toNat ++ sUse s.sb f.sb.toNat ++ sUse s.sc f.sc.toNat
  | .m s f =>
    guardUse s.guard f.toCommon ++
      (if s.noAddr then [] else if s.offV then [.v f.a.toNat (if f.ow then 2 else 1)] else [.s f.a.toNat]) ++
      (if 192 ≤ f.u.toNat then [.k (f.u.toNat - 192)] else []) ++
      (if readsD i then dataUse s.d f.d.toNat f.sz.toNat else []) ++ dataUse s.c f.c.toNat f.sz.toNat
  | .b s f =>
    (if f.uq then uniformGuardUse f.toCommon else laneGuardUse f.toCommon) ++
      (if s.aV then [.v f.a.toNat 1] else if s.aS then [.s f.a.toNat] else [])
  | .mx s f =>
    guardUse s.guard f.toCommon ++ (match i with
      | .mxrd _ => []
      | _ => spans.map spanUse) ++ (match i with
      | .mxtest _ => []
      | _ => if s.u then [.s f.u.toNat] else [])
  | .e s f _ =>
    guardUse s.guard f.toCommon ++ (if readsD i then eUse s.d f.d.toNat else []) ++
      (if s.immOrReg then (if f.ea = 1 then [.s f.a.toNat] else [])
        else (eUse s.a f.a.toNat).flatMap (fun x => match x with
          | .s r => (List.range (aRegs i)).map (fun j => .s (r + j))
          | y => [y])) ++ eUse s.b f.b.toNat ++ (if s.uParam.isSome then [] else eUse s.u f.u.toNat)
  | .nop f => laneGuardUse f.toCommon
  | .event => []

/-- The registers an instruction names as its destinations: D, PD, QD, the count of LOOPS, the result of MXTEST. -/
def instrDests (i : Instr) : List RegUse :=
  match i.row with
  | .vr s f => (match s.d with
    | .reg n => [spanUse (n.span f.t.toNat f.u.toNat f.d.toNat)]
    | _ => []) ++ (if f.pd = 7 then [] else [.p f.pd.toNat])
  | .vi _ f => [spanUse (RegN.byT.span f.t.toNat 0 f.d.toNat)]
  | .sr s f => sUse s.sd f.sd.toNat ++ (if f.qd.toNat < 4 then [.q f.qd.toNat] else [])
  | .m s f => if readsD i then [] else dataUse s.d f.d.toNat f.sz.toNat
  | .b s f => if s.aS then [.s f.a.toNat] else []
  | .mx _ f => (match i with
    | .mxrd _ => [.v f.a.toNat 32]
    | .mxtest _ => [.s f.u.toNat]
    | _ => [])
  | .e s f _ => if readsD i then [] else eUse s.d f.d.toNat
  | _ => []

/-! ## The register classes of a pair -/

/-- The classes that R47 pairs: V, S and M, by opcode. -/
inductive PairClass where
  | v
  | s
  | m
  deriving DecidableEq, Repr

/-- The class of an opcode, if R47 names one. -/
def pairClass (op : Nat) : Option PairClass :=
  if 0x40 ≤ op ∧ op < 0x80 then some .v
  else if 0x20 ≤ op ∧ op < 0x40 then some .s
  else if 0x80 ≤ op ∧ op < 0xB0 then some .m
  else none

/-- The first slots of the pairs that a template names (R47). -/
def pairFirsts : Nat → List Nat
  | 1 => [0]
  | 2 => [1]
  | 3 => [2]
  | 4 => [3]
  | 5 => [0, 2]
  | 6 => [0, 3]
  | 7 => [1, 3]
  | _ => []

/-- May two instructions issue as a pair: one of class V and the other of class S or M, or one S and the other M; the second without a
marker; no common destination (R47)? -/
def mayPair (i j : Instr) (c d : Code) : Bool :=
  (match pairClass (Code.op c), pairClass (Code.op d) with
    | some x, some y => x != y
    | _, _ => false) && !Code.bit d 0 && !(instrDests i).any (fun x => (instrDests j).any x.meets)

end Sys2Proof.Machine
end

