-- ==== Sys2Proof/Machine/Fetch.lean ====
section
/-! DEFINITION. From a slot's PC to the instruction it issues, by the checks of R62 in their order; what holds a slot back
(R17, R39, R96); the results a marker waits for (R59) and delivers (R98); pairs (R47); and where step's own program is laid (assumption
6). -/
namespace Sys2Proof.Machine

/-! ## What an instruction needs -/

/-- The features an instruction needs, by its code (R37, R167): bit numbers of the feature mask. -/
def featuresOf (c : Code) : List Nat :=
  let op := Code.op c
  let fn := Code.fn c
  let t := (Code.bits c 61 5).toNat
  (if op = 0xB0 then [0] ++ (if Code.bit c 70 then [1] else []) else []) ++
  (if (op = 0x60 ∨ op = 0x61 ∨ op = 0x63) ∧ (t = 10 ∨ (op = 0x63 ∧ fn = 0 ∧ (Code.bits c 53 8).toNat = 10)) then [2] else []) ++
  (if op = 0x62 ∧ (Code.bits c 35 5).toNat = 10 then [2] else []) ++
  (if (op = 0xB0 ∧ fn = 4) ∨ (op = 0x63 ∧ (fn = 2 ∨ fn = 3)) then [3] else []) ++
  (if op = 0x44 ∧ fn = 5 then [4] else [])

/-- The path an instruction raises, by its code (R38). -/
def pathOf (c : Code) : Option Path :=
  let fn := Code.fn c
  match Code.op c with
  | 0x80 => if fn = 2 ∨ fn = 5 then some .st else if fn = 7 ∨ fn = 8 then none else some .ld
  | 0x81 => some .sp
  | 0xA0 => some .atom
  | 0xA1 => some .atom
  | 0xA2 => some .atom
  | 0xA3 => some .atom
  | 0xB0 => if fn = 3 ∨ fn = 4 ∨ (6 ≤ fn ∧ fn ≤ 9) then some .mx else none
  | 0xC1 => if fn = 2 then some .mc else none
  | _ => none

/-- The operand-log entries of a quadrant in use (R39). -/
def State.logUsed (s : State) (core quad : Nat) : List Nat :=
  (s.groups.filter (fun g => g.core == core && grpQuad g.grp == quad && g.life != .saved)).flatMap
    (fun g => g.accs.filterMap (·.log))

/-- The lowest free operand-log entry of a group's quadrant, if any (R39). -/
def State.freeLog (s : State) (g : Group) : Option Nat :=
  (List.range 64).find? (fun e => !(s.logUsed g.core (grpQuad g.grp)).contains e)

/-- Is a slot parked in an instruction that holds its group's later memory instructions: a QPOP, a FENCE (R162, R204)? -/
def Slot.fencing (x : Slot) : Bool := match x.wait with
  | some w => (match w.instr with
    | .qpop _ => true
    | .fence _ => true
    | _ => false)
  | none => false

/-- Is a memory instruction held by an earlier acquire access of its group that has not written its result (R265), or by a QPOP or a
FENCE that has not completed (R162, R204)? -/
def Group.acquireHeld (g : Group) (c : Code) : Bool :=
  (decide (0x80 ≤ Code.op c ∧ Code.op c ≤ 0xA4) || (Code.op c == 0xC1 && Code.fn c == 2)) &&
    (g.a.fencing || g.b.fencing || g.accs.any (fun a => a.loads && (a.ord == 2 || a.ord == 4 || a.ord == 5) && !a.done))

/-- Is the instruction held at issue: by an acquire (R265), its path counter at 63 (R17), or its quadrant's operand log full
(R39)? -/
def State.pathHeld (s : State) (g : Group) (c : Code) : Bool :=
  g.acquireHeld c || match pathOf c with
  | none => false
  | some p => g.counter p == 63 || (p != .sp && p != .mx && (s.freeLog g).isNone)

/-! ## The checks of R62 -/

/-- The second instruction that the line's template pairs with the one that issues (R47), with the PC of the first. -/
structure Partner where
  pc : Pc
  instr : Instr
  code : Code
  deriving DecidableEq, Repr

/-- What issuing from a slot's PC comes to; an instruction may have a partner. -/
inductive NextInstr where
  | wait
  | refetch
  | trap (cause : Nat) (efault : DWord)
  | fault (f : LookFail)
  | run (i : Instr) (c : Code) (p : Option Partner)
  deriving DecidableEq, Repr

/-- The lowest register out of a group's allotment among the spans an instruction names (R28, R97). -/
def outOfBound (slabs : Nat) (spans : List VSpan) : Option Nat :=
  (spans.filter (fun v => 32 * slabs < v.reg + v.count)).foldl (fun m v =>
    let r := max v.reg (32 * slabs)
    match m with
    | none => some r
    | some q => some (min q r)) none

/-- Does an instruction that reads or writes memory through a K register name a value that R33 forbids? -/
def Group.badK (g : Group) (turn : Nat) (c : Code) : Bool :=
  let op := Code.op c
  let u := (Code.bits c 53 8).toNat
  let fn := Code.fn c
  (op == 0x80 || op == 0xA0 || op == 0xA2 || op == 0xA3 || (op == 0xC0 && fn == 0) || (op == 0xC1 && fn == 2) ||
    (op == 0xD3 && fn == 1)) && 192 ≤ u && u < 208 && !kLegal (g.rdK turn 3 (u - 192))

/-- The lowest feature an instruction needs that the core lacks (R37). -/
def missingFeature (featm : BitVec 5) (c : Code) : Option Nat := (featuresOf c).find? (fun b => !featm.getLsbD b)

/-- The V register spans an instruction names in a slot: a slice whose format FMT gives has its size by it (R171, R174). -/
def spansAt (i : Instr) (fmt : Word) : List VSpan :=
  match i with
  | .mxrdy f => if f.t = 0 then [⟨f.a.toNat, sliceRegs (fmt.toNat % 32) f.ks.toNat, false⟩] else i.spans
  | .mmab f => [⟨f.a.toNat, sliceRegs 15 f.ks.toNat, false⟩]
  | _ => i.spans

/-- The partner of the instruction in slot `i` of a line (R47): the next slot, named by the template, its parity right, of a class that
pairs. -/
def partnerOf (bs : List Byte) (pc : Pc) (i : Instr) (c : Code) : Option Partner :=
  let k := pc.toNat % 5
  if (pairFirsts (bitsAt (lineWord bs) 11 3)).contains k && slotOk bs (k + 1) then
    match decodeBytes ((bs.drop (12 * (k + 1))).take 12) with
    | .error _ => none
    | .ok j =>
      let d : Code := BitVec.ofNat 96 (lineSlot bs (k + 1))
      if mayPair i j c d then some { pc := pc, instr := j, code := d } else none
  else none

/-- The checks of R62 after decode: the K value, a slice past V511 (R166), the allotment, the features. -/
def State.lateChecks (s : State) (g : Group) (fmt : Word) (i : Instr) (c : Code) (p : Option Partner) : NextInstr :=
  if g.badK s.turn c || (Code.op c == 0xB0 && (spansAt i fmt).any (fun v => 512 < v.reg + v.count)) then .trap causeUndef 0
  else
    match outOfBound g.slabs (spansAt i fmt) with
    | some r => .trap causeRegBound (BitVec.ofNat 64 r)
    | none =>
      match missingFeature (s.core g.core).featm c with
      | some b => .trap causeUnsupported (BitVec.ofNat 64 b)
      | none => .run i c p

/-- The checks of R62 on the line and the slot, in order, then decode. -/
def State.lineChecks (s : State) (g : Group) (x : Slot) (bs : List Byte) : NextInstr :=
  let w := lineWord bs
  let i := x.pc.toNat % 5
  let parity := fun (line : Nat) =>
    if x.refetched.contains (x.pc.toNat / 5) then NextInstr.trap causeParity (BitVec.ofNat 64 (i + 8 * line)) else .refetch
  if !lwpOk w then parity 1
  else if lineKind w = 1 ∨ lineKind w = 2 then .trap causeBadTarget (badTarget x.pc.toNat 3)
  else if lineKind w = 3 ∨ w / 2 ^ 16 ≠ 0 then .trap causeUndef 0
  else if x.check && !lineMarked w i then .trap causeBadTarget (badTarget x.pc.toNat 2)
  else if !slotOk bs i then parity 0
  else
    let c : Code := BitVec.ofNat 96 (lineSlot bs i)
    match decodeBytes ((bs.drop (12 * i)).take 12) with
    | .error _ => .trap causeUndef 0
    | .ok ins => s.lateChecks g x.fmt ins c (partnerOf bs x.pc ins c)

/-- What the slot issues next: its line fetched, then the checks of R62; sequential flow out of the segment raises
BADTARGET (R44). -/
def State.nextInstr (s : State) (g : Group) (x : Slot) : State × NextInstr :=
  if (s.launch g).inSegment x.pc.toNat then
    match s.fetchLine g x.pc.toNat with
    | (s, .held) => (s, .wait)
    | (s, .failed f) => (s, .fault f)
    | (s, .line bs) => (s, s.lineChecks g x bs)
  else (s, .trap causeBadTarget (badTarget x.pc.toNat 1))

/-! ## Markers -/

/-- Does FMT select stochastic rounding (R34)? -/
def fmtRandom (fmt : Word) : Bool := bitsAt fmt.toNat 15 3 == 5

/-- A register that a slot's instruction names as its cell: S180 to S191 of a slot in trap mode are the trap bank (R31). -/
def Slot.useOf (x : Slot) : RegUse → RegUse
  | .s r => .s (sName x r)
  | u => u

/-- The failed access whose result a marked instruction needs, the oldest (R98): it reads a register that the access was to write. -/
def Group.neededFailure (g : Group) (x : Slot) (i : Instr) : Option Access :=
  let uses := (instrReads i (fmtRandom x.fmt) (spansAt i x.fmt)).map x.useOf
  g.accs.find? (fun a => a.done && a.fail.isSome && a.dest.any (fun c => uses.any (fun u => u.covers c)))

/-- Are results that a marked instruction waits for pending, and not yet written in this ac? When they are written is free (R14, R59,
R232; assumption 3). -/
def State.markerHeld (s : State) (g : Group) (n : SlotName) : Bool :=
  g.stale.any (fun e => (e.lanes &&& (g.slot n).mask) != 0) &&
    Config.pick s.turn (2000000 + 2 * g.id + (if n = .a then 0 else 1)) 0 % 2 == 1

/-- Delivers the error of a failed access at a wait of the slot (R98): its counter falls, its log entry is freed, its trap
is raised at the waiting instruction. -/
def State.deliverFailure (s : State) (g : Group) (n : SlotName) (a : Access) : State :=
  match a.fail with
  | none => s
  | some e =>
    let g := (g.setAccess { a with done := true, fail := none, log := none }).fall
    let efault := if e.lost then BitVec.ofNat 64 (a.pc.toNat * 2 ^ 24) else tierEfault e.tier e.label e.reason a.pc
    s.trap g n (if e.lost then causeAtomLost else causeTierFault) efault e.lanes e.tag

/-- The slot about to issue: its entry checks done. -/
def Slot.issuing (x : Slot) : Slot := { x with check := false }

/-! ## Scheduling -/

/-- Has a replay of a resumed block been done: performed, or failed again (R165, R339)? -/
def State.replayed (s : State) (id : Nat) : Bool :=
  match s.reqs.find? (fun r => r.id == id) with
  | none => true
  | some r => (match r.phase with
    | .suspended _ _ _ => true
    | .kept _ _ => true
    | .replied => true
    | .lost => true
    | .entered => true
    | _ => false)

/-- May the group's block issue: resident, not being saved, its replays done and its arrays its own again, every block of its gang unit
placed, and resumed with it (R165, R184, R242, R338, R339)? -/
def State.groupIssues (s : State) (g : Group) : Bool :=
  g.life == .resident && (match s.block? g.block with
    | some b => b.state == .resident && b.owed.isEmpty && b.replays.all s.replayed && (match s.grid? b.grid with
        | some x => x.gangPlaced b.path && (s.mates b).all (fun y => y.state == .resident || y.state == .retired || y.state == .released)
        | none => true)
    | none => false)

/-- Is a cluster's power gate closed: its CLGATE bit set, and the saves that come first over (R323)? -/
def State.clusterGated (s : State) (core : Nat) : Bool :=
  let c := core / 4 % 32
  (s.reg (clgateReg (coreDie core))).getLsbD c &&
    !(s.boot.busy.getD 0 0 == 4 && s.boot.busy.getD 1 0 == coreDie core && (s.boot.busy.getD 2 0).testBit c)

/-- Is the core running: its die there, powered and in M0, its cluster not gated (R320, R323, R373)? -/
def State.coreRuns (s : State) (core : Nat) : Bool :=
  let d := coreDie core
  !(s.die d).disabled && !(s.die d).lost && !(s.die d).gated && s.field pmstat 12 2 == 0 && !s.clusterGated core

/-- Is a busy slot in run neither in a spill move nor waiting for a line or a verdict on a lookup of its own (R43, R87, R232)? -/
def State.slotRuns (s : State) (g : Group) (n : SlotName) : Bool :=
  let x := g.slot n
  x.st == .run && x.mask != 0 && !x.moving && x.refetching.isNone && !s.slotSuspended g n

/-- May the slot issue its next instruction, its line's fetch and what the instruction needs apart (R96, R232)? -/
def State.slotReady (s : State) (g : Group) (n : SlotName) : Bool :=
  s.slotRuns g n && (g.slot n).wait.isNone && (g.slot n.other).trap.isNone && s.groupIssues g

/-- The instruction that a slot is parked in, once what it waits for has come (R232). The other slot's trap mode does not hold it (R96); a
self-test goes on although its block is being saved (R182). -/
def State.slotResumes (s : State) (g : Group) (n : SlotName) : Option Instr :=
  match (g.slot n).wait with
  | none => none
  | some w =>
    let test := match w.cond with
      | .clockTest _ => true
      | _ => false
    if s.coreRuns g.core && s.slotRuns g n && s.condHolds g w && (s.groupIssues g || test) && w.instr.isCode then some w.instr else none

/-- The slots of a quadrant that are ready, as (group, slot, age). -/
def State.readySlots (s : State) (core quad : Nat) : List (Nat × SlotName × Nat) :=
  (s.groups.filter (fun g => g.core == core && grpQuad g.grp == quad)).flatMap (fun g =>
    (if s.slotReady g .a then [(g.id, SlotName.a, g.a.age)] else []) ++
    (if s.slotReady g .b then [(g.id, SlotName.b, g.b.age)] else []))

/-- R235: is the first candidate chosen over the second? The higher age; then the lower $grp; then slot A. -/
def State.before (s : State) (p q : Nat × SlotName × Nat) : Bool :=
  let grp := fun (gid : Nat) => match s.group? gid with
    | some g => g.grp
    | none => 0
  decide (q.2.2 < p.2.2) || (p.2.2 == q.2.2 && (decide (grp p.1 < grp q.1) || (grp p.1 == grp q.1 && p.2.1 == .a)))

/-- Inserts a candidate in the order of R235. -/
def State.insertSlot (s : State) (p : Nat × SlotName × Nat) : List (Nat × SlotName × Nat) → List (Nat × SlotName × Nat)
  | [] => [p]
  | q :: rest => if s.before p q then p :: q :: rest else q :: State.insertSlot s p rest

/-- The candidates in the order of R235. -/
def State.issueOrder (s : State) (core quad : Nat) : List (Nat × SlotName × Nat) :=
  (s.readySlots core quad).foldl (fun l p => s.insertSlot p l) []

/-- One ac of a quadrant: the age counters of its busy slots rise (R235). -/
def State.ageQuad (s : State) (core quad : Nat) : State :=
  let up := fun (x : Slot) => if x.st = .free then x else { x with age := x.age + 1 }
  { s with groups := s.groups.map (fun g =>
      if g.core = core ∧ grpQuad g.grp = quad ∧ g.life = .resident then { g with a := up g.a, b := up g.b } else g) }

/-- The age counter of the slot that issues, at zero (R235). -/
def State.ageIssued (s : State) (gid : Nat) (n : SlotName) : State :=
  match s.group? gid with
  | some g => s.setGroup (g.setSlot n { g.slot n with age := 0 })
  | none => s

/-- What a candidate's turn comes to before exec: nothing issues and the next candidate may; or the state after an issue
that ended before exec; or an instruction to run by exec, for the issuer set in the state, and its partner. -/
inductive Turn where
  | held (s : State)
  | ended (s : State)
  | run (i : Instr) (p : Option Partner) (s : State)
  deriving DecidableEq, Repr

/-- A ready slot's turn: the checks of R62, what holds it back (R17, R39, R59), a failure that it needs (R98), the instruction. -/
def State.slotTurn (s : State) (g : Group) (n : SlotName) : Turn :=
  let x := g.slot n
  match s.nextInstr g x with
  | (s, .wait) => .held s
  | (s, .refetch) => .ended (s.setGroup (g.setSlot n { x with refetching := some (x.pc.toNat / 5) }))
  | (s, .fault f) => .ended (s.slotFault g n .fetch rightX f)
  | (s, .trap cause efault) => .ended ((s.trap g n cause efault x.mask 0).ageIssued g.id n)
  | (s, .run i c p) =>
    let marked := Code.bit c 0
    if s.pathHeld g c || (marked && s.markerHeld g n) then .held s
    else
      match (if marked then g.neededFailure x i else none) with
      | some a => .ended (s.deliverFailure g n a)
      | none =>
        let g := if marked then g.mark x.mask else g
        .run i p ({ s.setGroup (g.setSlot n x.issuing) with issuer := some (g.id, n) }.ageIssued g.id n)

/-- The turn of a quadrant: its candidates in order, until one issues. -/
def State.quadTurn (s : State) : List (Nat × SlotName × Nat) → Turn
  | [] => .held s
  | p :: rest =>
    match s.group? p.1 with
    | none => State.quadTurn s rest
    | some g =>
      match s.slotTurn g p.2.1 with
      | .held s' => State.quadTurn s' rest
      | other => other

/-- When a block last did something but wait (R206): a slot that issues a parked instruction again and stays parked leaves it. -/
def State.stampBlock (s : State) (gid : Nat) (n : SlotName) : State :=
  match s.group? gid with
  | none => s
  | some g =>
    let still := match (g.slot n).wait with
      | some w => decide (w.fc < s.fc)
      | none => false
    match s.block? g.block with
    | some b => if still then s else s.setBlock { b with stalledFc := some s.fc }
    | none => s

/-- The slot that has issued forgets the lines that were fetched again for its instruction, unless it asks for one more (R43). -/
def State.forgetLines (s : State) (gid : Nat) (n : SlotName) : State :=
  match s.group? gid with
  | some g => if (g.slot n).refetching.isSome then s else s.setGroup (g.setSlot n { g.slot n with refetched := [] })
  | none => s

/-- After an instruction: the slots of its group meet their joins (R86), and no issuer stays named. -/
def State.afterIssue (s : State) : State :=
  match s.issuer with
  | some (gid, n) => { ((s.forgetLines gid n).settleSlots gid).stampBlock gid n with issuer := none }
  | none => s

/-! ## Pairs -/

/-- Marks the results that the first of a pair has written: those after the first `old` (R47). -/
def Group.markPair (g : Group) (old : Nat) : Group :=
  { g with stale := g.stale.take old ++ (g.stale.drop old).map (fun e => { e with paired := true }) }

/-- The pair has issued: nothing is marked. -/
def Group.endPair (g : Group) : Group := { g with stale := g.stale.map (fun e => { e with paired := false }) }

/-- After the first of a pair: the second instruction, where it is able to issue in the same ac, with the state to run it in; it reads what
the registers held before the first (R47). It is not where the first trapped, parked or came to a join. -/
def State.pairSecond (before after : State) (p : Partner) : Option (Instr × State) :=
  match before.issuer?, after.issuer? with
  | some u, some w =>
    let x := w.slot
    if x.pc == p.pc + 1 && x.st == .run && x.mask == u.slot.mask && x.wait.isNone && x.trap == u.slot.trap && !x.moving &&
        x.refetching.isNone && !x.arriving && !after.slotSuspended w.g w.name && after.groupIssues w.g && w.g.life == .resident then
      let g := w.g.markPair u.g.stale.length
      match after.lateChecks g x.fmt p.instr p.code none with
      | .run i c _ => if after.pathHeld g c then none else some (i, { after.setGroup g with turn := after.turn + 1 })
      | _ => none
    else none
  | _, _ => none

/-- After the second of a pair. -/
def State.endPair (s : State) (gid : Nat) : State :=
  match s.group? gid with
  | some g => s.setGroup g.endPair
  | none => s

/-- The contexts with a group resident on a core, each once. -/
def State.residents (s : State) (core : Nat) : List Nat :=
  ((s.groups.filter (fun g => g.core == core && g.life == .resident)).map (·.cid)).eraseDups

/-- Does an operation run side by side on the follower's array (R176)? -/
def MxOp.paired : MxOp → Bool
  | .product _ _ _ _ _ _ _ _ pair _ _ _ => pair
  | .zero _ _ pair => pair
  | .store _ _ _ _ pair => pair
  | _ => false

/-- Does a core's array run an operation: its owner's oldest, or as the follower of a pair (R176)? -/
def State.arrayBusy (s : State) (core : Nat) : Bool :=
  !(s.matrix core).ops.isEmpty || ((s.matrix core).pair && (match (s.matrix (pairOther core)).ops.head? with
    | some o => o.paired
    | none => false))

/-- What Scorepad counts as time passes (R396): core residency in ac and fc for each context of a core, and the matrix-busy ac of its
array's owner. -/
def State.chargeTime (s : State) (acs : List Nat) (fc : Nat) : State :=
  let ac := fun (core : Nat) => if (s.die (coreDie core)).gated then 0 else acs.getD (coreDie core) 0
  let cores := (s.groups.flatMap (fun g => [g.core, pairOther g.core])).eraseDups
  cores.foldl (fun s core =>
    let s := (s.residents core).foldl (fun s cid => (s.charge cid 3 (ac core)).charge cid 4 fc) s
    if s.arrayBusy core then s.charge (s.matrix core).ownerCid 5 (ac core) else s) s

/-- The move that time passes: each die's ac and the fc (R5, R35). A gated die's ac stands still. -/
def State.pass (s : State) (acs : List Nat) (fc : Nat) : State :=
  let s := s.chargeTime acs fc
  { s with
    fc := s.fc + fc
    dies := (List.range s.dies.length).map (fun d =>
      let x := s.die d
      if x.gated then x else { x with clock := x.clock + BitVec.ofNat 64 (acs.getD d 0) }) }

/-! ## A program to fetch -/

/-- Where the model lays a program of one line for withFetchWord: in node 4, a CORE table, four page tables, a code page
(assumption 6). -/
def fetchBase : Nat := 0x800002000000

/-- The code line with an instruction in slot 0 and NOPs after it, slots 0 and 1 marked in TMASK, parities right (R42, R43). -/
def fetchLineBytes (w : Nat) : List Byte :=
  let slp := onesIn 96 w % 2
  let upper := 2 ^ 6 + 2 ^ 7
  leBytes 12 w ++ leBytes 48 0 ++ leBytes 4 (upper + slp)

/-- The launch of that program. -/
def fetchLaunch : Launch :=
  { fuse := false, feat := 0, slabs := 16, top := 2, codeK := 0, codeOff := 0, lines := 1, entry := 0, trapPc := 1,
    kload := 0, spad := 4096, levels := [{ window := 0, count := 1, gang := false, scope := 1, domain := 2 }], ks := [] }

/-- The group of that program: group 0 of core 0, all lanes in slot A, about to enter at PC 0 (R86). -/
def fetchGroup : Group :=
  { id := 1, core := 0, grp := 0, cid := 0, block := 1, index := 0, lvlIdx := [0, 0, 0, 0, 0, 0, 0, 0],
    lvlDim := [32, 1, 1, 1, 1, 1, 1, 1], life := .resident, slabs := 16, v := [], s := [], k := [], p := [], q := [],
    a := { Slot.empty with st := .run, mask := 0xFFFFFFFF, check := true }, b := .empty, stale := [], late := [],
    wrote := [], accs := [], copies := 0, openBatch := [], sealed := [], nextBatch := 0, arrivals := [], mxErrors := [], feeding := false,
      relTurn := 0 }

/-- Its block. -/
def fetchBlock : Block :=
  { id := 1, grid := 1, cid := 0, path := [0], cluster := 0, cores := [0], groups := [1], state := .resident, placedFc := 0,
    stalledFc := none, images := [], arrays := [], savedBase := 0, savedSize := 0, savedLclk := 0, waiting := false, owed := [],
    replays := [] }

/-- Its grid. -/
def fetchGrid : Grid :=
  { id := 1, work := 0, cid := 0, band := 0, nopre := false, launch := fetchLaunch, count := 1, args := [], placed := [[0]],
    parent := none, children := 0, faulted := false, failed := false, anyDie := false, homeDie := none, order := 0, readyFc := none, affinityFc := 0, bound := [] }

/-- Lays the program: context 0's CORE table, whose entry 0 lands a page of rights R, W, X, A and U. -/
def State.layProgram (s : State) (w : Nat) : State :=
  let s := s.storeBytes (ctxBase 0) (leBytes 8 1 ++ leBytes 8 0 ++ leBytes 8 (2 ^ 48 + fetchBase))
  let s := s.storeBytes fetchBase (leBytes 8 0xFB ++ leBytes 8 0 ++ leBytes 8 1 ++ leBytes 8 (fetchBase + 0x1000))
  let next := fun (i : Nat) => (fetchBase + 0x1000 * i) / 4096 * 2 ^ 16
  let s := s.storeBytes (fetchBase + 0x1000) (leBytes 8 (next 2 + 1))
  let s := s.storeBytes (fetchBase + 0x2000) (leBytes 8 (next 3 + 1))
  let s := s.storeBytes (fetchBase + 0x3000) (leBytes 8 (next 4 + 1))
  let s := s.storeBytes (fetchBase + 0x4000) (leBytes 8 (next 5 + 0x6FB))
  s.storeBytes (fetchBase + 0x5000) (fetchLineBytes w)

end Sys2Proof.Machine
end

