-- ==== Sys2Proof/Machine/Lines.lean ====
section
/-! DEFINITION. The caches above memory: L1 lines with tokens and bytes not yet written below (R246 to R248, R274, R277), fused L1s
(R248), copies on other dies that an invalidation has not reached (R282, R283), the region directory (R358, R359), a store's publication,
evictions (R160, R259, R408), acquires (R265, R274). -/
namespace Sys2Proof.Machine
open Sys2Proof

/-! ## Where a line stands -/

/-- The C-die whose region directory covers a local line: nodes 0 to 3 (R249, R358). -/
def homeOf (line : Nat) : Option Nat :=
  match remoteOf (128 * line) with
  | some _ => none
  | none => if 128 * line < 2 ^ 48 ∧ paNode (128 * line) < 4 then some (paNode (128 * line)) else none

/-- The core whose L1 holds a name's line: under the fused L1 the one that offset bits [8:7] name (R248). -/
def l1Place (fused : Bool) (core off : Nat) : Nat := if fused then clusterCore core (off / 128) else core

/-- The slice of a line, over the module (R249). -/
def sliceOf (line : Nat) : Nat :=
  let pa := 128 * line
  paNode pa * 32 + (bitsAt pa 7 5 ^^^ bitsAt pa 12 5 ^^^ bitsAt pa 17 5)

/-- Are the L1s of a core's cluster fused: a block of a launch with FUSE uses the cluster (R215, R248)? -/
def State.fusedAt (s : State) (core : Nat) : Bool :=
  s.blocks.any (fun b => b.cluster == core / 4 && (b.state == .resident || b.state == .saving || b.state == .retired) &&
    (match s.grid? b.grid with
      | some x => x.launch.fuse
      | none => false))

/-- Do two cores share an L1 (R248)? -/
def State.sharesL1 (s : State) (a b : Nat) : Bool := a == b || (a / 4 == b / 4 && s.fusedAt a)

/-- The core whose L1 holds a name's line for a core. -/
def State.l1For (s : State) (core off : Nat) : Nat := l1Place (s.fusedAt core) core off

/-- The 32 B sectors of a line that some lanes touch (R246). -/
def laneSectors (os : List LaneOp) : BitVec 4 := os.foldl (fun m o => m ||| 1#4 <<< (o.addr % 128 / 32)) 0

/-- Are all of these sectors among those? -/
def sectorsIn (a b : BitVec 4) : Bool := a &&& ~~~b == 0

/-- How many sectors a set of them holds. -/
def sectorCount (m : BitVec 4) : Nat := (List.range 4).foldl (fun n i => if m.getLsbD i then n + 1 else n) 0

/-- The L1 line of a name. -/
def State.l1Find (s : State) (core cid : Nat) (k : DWord) (off : Nat) : Option L1Line :=
  s.l1.find? (fun l => l.core == core && l.cid == cid && l.k == k && l.off == off)

/-- Is this the line of that name and place? -/
def L1Line.same (l m : L1Line) : Bool := l.core == m.core && l.cid == m.cid && l.k == m.k && l.off == m.off

/-- Replaces an L1 line, or adds it. -/
def State.putL1 (s : State) (l : L1Line) : State := { s with l1 := l :: s.l1.filter (fun m => !m.same l) }

/-- Removes an L1 line. -/
def State.dropL1 (s : State) (l : L1Line) : State := { s with l1 := s.l1.filter (fun m => !m.same l) }

/-- Bytes of a line with some of them replaced. -/
def overlay (bs : List Byte) (d : List (Nat × Byte)) : List Byte :=
  (List.range bs.length).map (fun i => match d.find? (fun e => e.1 == i) with
    | some e => e.2
    | none => bs.getD i 0)

/-- The bytes of a line as the L2 of a die gives them: a copy that an invalidation has not reached, or memory (R283). -/
def State.below (s : State) (die line : Nat) : List Byte :=
  match s.staleCopies.find? (fun c => c.die == die && c.line == line) with
  | some c => c.bytes
  | none => s.bytes (128 * line) 128

/-- The bytes an L1 line serves: those it held when its invalidation was sent, or those below, under its own dirty bytes
(R274, R277). -/
def State.served (s : State) (l : L1Line) : List Byte :=
  overlay (l.old.getD (s.below (coreDie l.core) l.line)) l.dirty

/-- Replaces bytes of a dirty overlay. -/
def putDirty (d : List (Nat × Byte)) (at_ : Nat) (bs : List Byte) : List (Nat × Byte) :=
  (List.range bs.length).map (fun i => (at_ + i, bs.getD i 0)) ++ d.filter (fun e => e.1 < at_ || at_ + bs.length ≤ e.1)

/-! ## The region directory -/

/-- The entry that covers a line at its home (R358). -/
def State.regionOf (s : State) (h line : Nat) : Option Region :=
  s.regions.find? (fun r => r.die == h && r.base ≤ 128 * line && 128 * line < r.base + 2 ^ r.log)

/-- A directory register of a die: MLOG, MINLOG, SLOG (R359). -/
def State.dirLog (s : State) (h lo w : Nat) : Nat := s.field (dieBlock h + 0x30000) lo w

/-- Counts an event in a 16-bit field of the directory's second register, saturating (R359). -/
def State.countDir (s : State) (h lo : Nat) : State :=
  s.setField (dieBlock h + 0x30008) lo 16 (min 0xFFFF (s.field (dieBlock h + 0x30008) lo 16 + 1))

/-- USED as the entries stand (R359). -/
def State.syncUsed (s : State) (h : Nat) : State :=
  s.setField (dieBlock h + 0x30008) 48 16 (s.regions.filter (fun r => r.die == h)).length

/-- Marks an invalidation on its way to every L1 of a die, but one core's: the copies keep the bytes they hold (R274, R277). -/
def State.invalidateOn (s : State) (die line : Nat) (but : Option Nat) : State :=
  { s with l1 := s.l1.map (fun l =>
      if coreDie l.core = die ∧ l.line = line ∧ some l.core ≠ but then
        { l with tokens := 0, old := some (l.old.getD (s.below die line)) }
      else l) }

/-- A control message from a home to a holder (R371): the next number of the pair; the resends of an earlier one that has been answered
are forgotten. -/
def State.sendControl (s : State) (sender receiver : Nat) (open_ : Bool) : State :=
  match s.controls.find? (fun c => c.sender == sender && c.receiver == receiver) with
  | none =>
    let c : Control := { sender := sender, receiver := receiver, seq := 1, fc := s.fc, resends := 0, acted := false }
    { s with controls := s.controls ++ [c] }
  | some c =>
    let n : Control := { c with seq := (c.seq + 1) % 2 ^ 32, fc := if open_ then c.fc else s.fc, resends := if open_ then c.resends else 0 }
    { s with controls := s.controls.map (fun (x : Control) => if x = c then n else x) }

/-- A message from one C-die's units to another's (R288). -/
def State.dieMessage (s : State) (a b : Nat) : State :=
  if a = b ∨ 4 ≤ a ∨ 4 ≤ b then s else s.setDie b { s.die b with lclk := mergeCount (s.die b).lclk (s.die a).lclk }

/-- Sends an invalidation of a line to a recorded holder: while it is on its way, a copy there shows the old bytes (R282,
R283). Holder 4 is the A-die. -/
def State.invalidateHolder (s : State) (holder line : Nat) : State :=
  let has := holder == 4 || s.l2.any (fun x => x.die == holder && x.line == line) ||
    s.l1.any (fun l => coreDie l.core == holder && l.line == line)
  if has && !s.staleCopies.any (fun c => c.die == holder && c.line == line) then
    let home := (homeOf line).getD 0
    let waits := s.staleCopies.any (fun c => c.die == holder && homeOf c.line == some home)
    let s := (s.sendControl home holder waits).dieMessage home holder
    { s with staleCopies := { die := holder, line := line, bytes := s.bytes (128 * line) 128, writers := [] } :: s.staleCopies }
  else s

/-! ## Publication -/

/-- A store of bytes becomes readable beyond its core at one moment (R277, R279, R283): an OPEN line closes, the other L1 copies
of the die turn invalid, copies on other dies that still show the old bytes remember the writer. -/
def State.publish (s : State) (die : Nat) (core : Option Nat) (line off : Nat) (bs : List Byte) (gids : List Nat) : State :=
  let s := s.closeLine line
  let s := s.invalidateOn die line core
  let own := fun (l : L1Line) => some l.core == core && l.line == line
  let s : State := { s with
    staleCopies := s.staleCopies.map (fun c =>
      if c.line = line then { c with writers := c.writers ++ gids.filter (fun g => !c.writers.contains g) } else c)
    l1 := s.l1.map (fun l => if own l then
        { l with dirty := l.dirty.filter (fun e => e.1 < off || off + bs.length ≤ e.1) } else l) }
  s.storeBytes (128 * line + off) bs

/-- The dirty bytes of an L1 line published, and the line clean. -/
def State.cleanL1 (s : State) (l : L1Line) : State :=
  let s := l.dirty.foldl (fun s e => s.publish (coreDie l.core) (some l.core) l.line e.1 [e.2] l.writers) s
  match s.l1Find l.core l.cid l.k l.off with
  | some m => s.putL1 { m with dirty := [], writers := [] }
  | none => s

/-- The partials that an L1 holds of an OPEN line go on to the next merge level: a core's to its pair node, a fused cluster's to the
cluster node (R160, R259). -/
def State.evictU (s : State) (core line : Nat) : State :=
  { s with opens := s.opens.map (fun o =>
      if o.line ≠ line then o
      else { o with
        parts := o.parts.filter (fun p => p.1 != core)
        fused := o.fused.filter (fun p => p.1 != core / 4)
        evicted := o.evicted ++ (o.parts.filter (fun p => p.1 == core)).map (fun p => (pairNode (core / 4) (core % 4 / 2), p.2)) ++
          (o.fused.filter (fun p => p.1 == core / 4)).map (fun p => (clusterNode (core / 4), p.2)) }) }

/-- A line that its home recalls from an L1: its bytes and its partial go to the home, and no copy is left (R286). -/
def State.recallL1 (s : State) (l : L1Line) : State := ((s.evictU l.core l.line).cleanL1 l).dropL1 l

/-- Makes room in a full directory: the least recently used entry leaves, its copies recalled (R358). -/
def State.roomInDir (s : State) (h : Nat) : State :=
  let mine := s.regions.filter (fun r => r.die == h)
  if mine.length < 16384 then s
  else
    match mine.foldl (fun m r => match m with
        | none => some r
        | some b => if r.fc < b.fc then some r else some b) none with
    | none => s
    | some v =>
      let inV := fun (line : Nat) => v.base ≤ 128 * line && 128 * line < v.base + 2 ^ v.log
      let s := (s.l1.filter (fun l => coreDie l.core != h && l.mode == .coh && inV l.line)).foldl State.recallL1 (s.countDir h 32)
      { s with
        regions := s.regions.filter (· != v)
        l2 := s.l2.filter (fun x => x.die == h || !inV x.line)
        staleCopies := s.staleCopies.filter (fun c => !inV c.line) }

/-- Splits the region over a line, by halves, until one grant's holder set holds for all of it or it is of the least size
(R358). -/
def State.splitRegion (s : State) (h line : Nat) (want : List Nat) : Nat → State
  | 0 => s
  | fuel + 1 =>
    match s.regionOf h line with
    | none => s
    | some r =>
      if r.holders == want || r.log ≤ max 7 (s.dirLog h 8 4) || r.holders.isEmpty then s
      else
        let half := fun (b : Nat) => { r with base := b, log := r.log - 1, fc := s.fc }
        let s := { s.countDir h 16 with
          regions := half r.base :: half (r.base + 2 ^ (r.log - 1)) :: s.regions.filter (· != r) }
        State.splitRegion s h line want fuel

/-- Copies of the other lines of a region, recalled from the holders that a grant alone leaves out: no value is lost (R286). -/
def State.recallRegion (s : State) (r : Region) (h holder line : Nat) : State :=
  let out := fun (d n : Nat) => d != h && d != holder && n != line && r.holders.contains d && r.base ≤ 128 * n &&
    128 * n < r.base + 2 ^ r.log
  let s := (s.l1.filter (fun l => l.mode == .coh && out (coreDie l.core) l.line)).foldl State.recallL1 s
  { s with l2 := s.l2.filter (fun x => !out x.die x.line) }

/-- The holders a grant leaves: the die alone, or the die with those recorded (R358). The home is not recorded. -/
def grantHolders (before : List Nat) (h holder : Nat) (alone : Bool) : List Nat :=
  let here := if holder = h then [] else [holder]
  if alone then here else before ++ here.filter (fun d => !before.contains d)

/-- The home grants a line to a die (R282): alone, after invalidations to every other recorded holder; or shared. -/
def State.grantLine (s : State) (h holder line : Nat) (alone : Bool) : State :=
  let s := if (s.regionOf h line).isSome then s else
    let s := s.roomInDir h
    let log := max 12 (s.dirLog h 0 5)
    { s with regions := { die := h, base := 128 * line / 2 ^ log * 2 ^ log, log := log, holders := [], alone := false, fc := s.fc } ::
        s.regions }
  let before := match s.regionOf h line with
    | some r => r.holders
    | none => []
  let s := s.splitRegion h line (grantHolders before h holder alone) 14
  match s.regionOf h line with
  | none => s
  | some r =>
    let others := r.holders.filter (· != holder)
    let s := if alone then (others.foldl (fun s d => s.invalidateHolder d line) s).recallRegion r h holder line else s
    let s := if alone && holder != h then s.invalidateOn h line none else s
    -- The channel is ordered: an invalidation sent before arrives before this grant (R282).
    let s := if s.staleCopies.any (fun c => c.die == holder && c.line == line) then s.invalidateOn holder line none else s
    let s : State := { s with
      regions := { r with holders := grantHolders r.holders h holder alone, alone := alone, fc := s.fc } :: s.regions.filter (· != r)
      staleCopies := s.staleCopies.filter (fun c => !(c.die == holder && c.line == line)) }
    (s.dieMessage h holder).syncUsed h

/-- May a die write a line: no directory covers it, or no other holder is recorded (R282)? -/
def State.grantedAlone (s : State) (mode : Mode) (die line : Nat) : Bool :=
  mode != .coh || (match homeOf line with
    | none => true
    | some h =>
      (match s.regionOf h line with
        | none => die == h
        | some r => if die = h then r.holders.isEmpty else r.alone && r.holders == [die]))

/-- The grant a write needs, at once. -/
def State.ensureAlone (s : State) (mode : Mode) (die line : Nat) : State :=
  if s.grantedAlone mode die line then s
  else
    match homeOf line with
    | some h => s.grantLine h die line true
    | none => s

/-! ## Lines that leave an L1 -/

/-- Writes the dirty bytes of an L1 line to the L2: they take their place in coherence order now (R277, R280). -/
def State.flushL1 (s : State) (l : L1Line) : State :=
  if l.dirty.isEmpty then s else (s.ensureAlone l.mode (coreDie l.core) l.line).cleanL1 l

/-- An L1 line leaves: its partial goes on and its dirty bytes go to the L2 first (R153, R160, R247). -/
def State.evictL1 (s : State) (l : L1Line) : State := ((s.evictU l.core l.line).flushL1 l).dropL1 l

/-- Every line leaves the L1s of a cluster. -/
def State.emptyL1s (s : State) (cluster : Nat) : State := (s.l1.filter (fun l => l.core / 4 == cluster)).foldl State.evictL1 s

/-- The L1s of a cluster are emptied as they are fused or cease to be: no line then stands in an L1 that its name does not lead to. `was`:
were they fused before? -/
def State.reFuse (s : State) (cluster : Nat) (was : Bool) : State :=
  if s.fusedAt (4 * cluster) == was then s else s.emptyL1s cluster

/-- Applies the invalidations that are on their way to or pending at a core (R274): an acquire, a completed wait of R269. -/
def State.applyPending (s : State) (core : Nat) : State :=
  (s.l1.filter (fun l => l.core == core && l.old.isSome)).foldl State.evictL1 s

/-- Has a Span egress accepted a store of the request that its home has still to write (R287)? -/
def Req.inEgress (r : Req) : Bool :=
  r.phase == .replied && r.left != 0 && (remoteOf (128 * r.line)).isSome && (match r.kind with
    | .store _ => true
    | _ => false)

/-- An acquiring group may know of the stores that its L1 holds, that other dies' copies do not show, and that a Span egress has accepted:
its later releases wait for those too, since happens-before is transitive (R266, R267). -/
def State.noteAcquire (s : State) (g : Group) : State :=
  let add := fun (l : List Nat) => if l.contains g.id then l else g.id :: l
  { s with
    l1 := s.l1.map (fun l => if s.sharesL1 g.core l.core && !l.dirty.isEmpty then { l with writers := add l.writers } else l)
    staleCopies := s.staleCopies.map (fun c => if c.writers.isEmpty then c else { c with writers := add c.writers })
    reqs := s.reqs.map (fun r => if r.inEgress then { r with carriers := add r.carriers } else r) }

/-- An agent's die learns of its core's count: what it did there happens before what others of the die acquire (R288). -/
def State.foldCount (s : State) (core : Nat) : State :=
  let d := s.die (coreDie core)
  if d.lclk.toNat < (s.core core).lclk.toNat then s.setDie (coreDie core) { d with lclk := (s.core core).lclk } else s

/-- An acquiring core's count passes that of its die's units, unless it has already (R288). -/
def State.raiseCount (s : State) (core : Nat) : State :=
  let d := s.die (coreDie core)
  if d.lclk.toNat < (s.core core).lclk.toNat then s else s.setCore core { s.core core with lclk := d.lclk + 1 }

/-- An acquire of a group: it applies the pending invalidations of its core's L1, or of all of its cluster when they are fused (R248,
R274). -/
def State.acquireAt (s : State) (g : Group) : State :=
  let s := if s.fusedAt g.core then (List.range 4).foldl (fun s i => s.applyPending (clusterCore g.core i)) s
    else s.applyPending g.core
  (s.noteAcquire g).raiseCount g.core

/-- Drops the copies that a die holds of a physical line under any other name (R247). -/
def State.dropSynonyms (s : State) (die line cid : Nat) (k : DWord) (off : Nat) : State :=
  (s.l1.filter (fun l => coreDie l.core == die && l.line == line && !(l.cid == cid && l.k == k && l.off == off))).foldl
    State.evictL1 s

/-- The order in which the marks of CH let the lines of a set go: 1 first, 2 last (R408). -/
def leaveClass (ch : Nat) : Nat := if ch = 1 then 0 else if ch = 2 then 2 else 1

/-- The places, in a list of the CH marks of a set's lines, of those that may go first. -/
def mayLeave (marks : List Nat) : List Nat :=
  let least := (marks.map leaveClass).foldl min 2
  (List.range marks.length).filter (fun i => leaveClass (marks.getD i 0) == least)

/-- The place of the line that leaves a set on a fill, if any does: one of the model's free choice among those that may go first; some line
must leave a full set (R408). -/
def leavingPlace (pick ways : Nat) (marks : List Nat) : Option Nat :=
  let able := mayLeave marks
  able[pick % (able.length + (if marks.length < ways then 1 else 0))]?

/-- The sets of an L1. -/
def l1Sets : Nat := 2 ^ (Config.l1Log % 12)

/-- Replacement on a fill of a name's line into a core's L1 of 2,048 lines (R246, R408). -/
def State.replaceOne (s : State) (core off : Nat) : State :=
  let set := s.l1.filter (fun l => l.core == core && Config.l1Index l.off % l1Sets == Config.l1Index off % l1Sets)
  match (leavingPlace (Config.pick s.turn 3 core) (2048 / l1Sets) (set.map (·.ch))).bind (fun i => set[i]?) with
  | some l => s.evictL1 l
  | none => s

/-- The ways of each slice of a die that die windows take, up to 8: 64 MiB in 8 ways (R230, R250). -/
def State.windowWays (s : State) (die : Nat) : Nat :=
  min 8 ((((s.windows.filter (fun w => w.die == die)).map (·.bytes)).foldl (· + ·) 0 + 2 ^ 23 - 1) / 2 ^ 23)

/-- Replacement on a fill of a line into its L2 slice of a die, 2,048 sets of 16 ways: a line that leaves first leaves the L1s of the die
(R4, R250, R351, R408). The ways of windows are never replaced. -/
def State.replaceL2 (s : State) (die line : Nat) : State :=
  let key := fun (n : Nat) => (sliceOf n % 32, Config.l2Index n % 2048)
  let set := s.l2.filter (fun x => x.die == die && x.line != line && key x.line == key line)
  match (leavingPlace (Config.pick s.turn 5 die) (16 - s.windowWays die) (set.map (·.ch))).bind (fun i => set[i]?) with
  | none => s
  | some v =>
    let s := (s.l1.filter (fun l => coreDie l.core == die && l.line == v.line)).foldl State.evictL1 s
    { s with l2 := s.l2.filter (fun x => !(x.die == die && x.line == v.line)) }

end Sys2Proof.Machine
end

