-- ==== Sys2Proof/Machine/Control.lean ====
section
/-! DEFINITION. Control flow, traps and system instructions (R81 to R100), opcodes 0x00 to 0x03 and YIELD, with the events that
let a slot go on: a sleep over, a spill move done, a line fetched again. -/
namespace Sys2Proof.Machine
open Sys2Proof

/-! ## Helpers -/

/-- Goes on when a target check passed; else the trap, the wait or the fetch fault it asks for. -/
def State.checked (s : State) (u : Issuer) (c : Checked) (k : State → State) : State :=
  match c with
  | .ok => k s
  | .bad e => s.raise u causeBadTarget e
  | .stall => s
  | .failed f => s.slotFault u.g u.name .fetch rightX f

/-- The issuing slot with its PC at a target. -/
def Slot.jump (x : Slot) (pc : Pc) : Slot := { x with pc := pc, check := false, wait := none }

/-- Stores the group with the issuing slot at a target. -/
def State.jumpTo (s : State) (u : Issuer) (g : Group) (pc : Pc) : State := s.setGroup (g.setSlot u.name (u.slot.jump pc))

/-- A PC from an exact integer. -/
def pcOf (v : Int) : Pc := BitVec.ofNat 40 (modBits 40 v)

/-- Is a value legal for FMT (R34)? -/
def fmtLegal (w : Nat) : Bool := bitsAt w 20 12 == 0 && bitsAt w 15 3 ≤ 5

/-- FMT of the issuing slot set, the slot advanced; an illegal value raises UNDEF (R34, R92). -/
def State.setFmt (s : State) (u : Issuer) (w : Nat) : State :=
  if fmtLegal w then
    s.setGroup (u.g.setSlot u.name { u.slot.advance with fmt := BitVec.ofNat 32 w })
  else s.raise u causeUndef 0

/-- Writes results and advances (R14, R59). -/
def State.result (s : State) (u : Issuer) (ws : List (Cell × DWord)) : State :=
  s.advance (u.g.writeAll s.turn u.slot.mask ws) u.name

/-- One bit as a register value. -/
def boolWord (b : Bool) : DWord := if b then 1 else 0

/-! ## 0x00 -/

/-- NOP (R61): nothing but the next PC. Its marker is applied before it issues (R59). -/
def execNop (_f : EF) (s : State) : Host.Outcome State Fault Refusal := s.issue fun u => s.advance u.g u.name

/-- EXIT (R88): the participating lanes leave the slot; a slot left without lanes runs Arrive (R86). -/
def execExit (f : EF) (s : State) : Host.Outcome State Fault Refusal := s.issue fun u =>
  let part := u.g.participating u.slot s.turn f.toCommon
  (s.setGroup (u.g.setSlot u.name { u.slot.advance with mask := u.slot.mask &&& ~~~part })).settleSlots u.g.id

/-- KILL (R88, R89): every lane of the group, both slots, spill entries and return stacks. -/
def execKill (_f : EF) (s : State) : Host.Outcome State Fault Refusal := s.issue fun u => s.retire u.g

/-- The trap of TRAP and BRK, when a lane participates (R95). -/
def State.softTrap (s : State) (u : Issuer) (f : EF) (cause : Nat) : State :=
  let part := u.g.participating u.slot s.turn f.toCommon
  if part = 0 then s.advance u.g u.name else s.trap u.g u.name cause (f.imm.setWidth 64) part 0

/-- TRAP (R95). -/
def execTrap (f : EF) (s : State) : Host.Outcome State Fault Refusal := s.issue fun u => s.softTrap u f causeTrap

/-- BRK (R95). -/
def execBrk (f : EF) (s : State) : Host.Outcome State Fault Refusal := s.issue fun u => s.softTrap u f causeBreak

/-- ERET (R99): UNDEF outside trap mode. The PC is the low 40 bits of S180 (assumption 22); one other than that written at entry or the next
is checked as a target (R45). -/
def execEret (_f : EF) (s : State) : Host.Outcome State Fault Refusal := s.issue fun u =>
  match u.slot.trap with
  | none => s.raise u causeUndef 0
  | some t =>
    let pc : Pc := (u.g.peek (.s (trapBank 0))).setWidth 40
    if pc = t.pc ∨ pc = t.pc + 1 then s.setGroup (u.g.eret u.name t)
    else
      let (s, c) := s.checkTarget u.g pc.toNat
      s.checked u c fun s => s.setGroup (u.g.eret u.name t)

/-- SLEEP (R93): SLEEP 0 gives up the turn; otherwise the slot parks until the die has counted IMM32 ac. -/
def execSleep (f : EF) (s : State) : Host.Outcome State Fault Refusal := s.issue fun u =>
  match u.slot.wait with
  | some _ => s.advance u.g u.name
  | none =>
    if f.imm = 0 then s.advance u.g u.name
    else s.park u.g u.name (.sleep f) [] (.clock ((s.die (coreDie u.g.core)).clock.toNat + f.imm.toNat))

/-- The record of PMARK (R94). -/
def pmarkRecord (g : Group) (n : SlotName) (lclk : DWord) (mark : Word) (sval : DWord) : List Nat :=
  let x := g.slot n
  [lclk.toNat,
   x.pc.toNat + (if n = .b then 2 ^ 40 else 0) + g.grp * 2 ^ 41 + coreIdx g.core * 2 ^ 48 + coreClus g.core * 2 ^ 50 +
     coreOct g.core * 2 ^ 53 + coreDie g.core * 2 ^ 55,
   mark.toNat + x.mask.toNat * 2 ^ 32, sval.toNat]

/-- PMARK (R94): with tracing enabled, the logical count rises and the record goes to the ring; a full ring drops it. The ring
is full once its write index has passed its last place (assumption 12). -/
def execPmark (f : EF) (s : State) : Host.Outcome State Fault Refusal := s.issue fun u =>
  let g := u.g
  let w6 := s.ctxWord g.cid 6
  let w7 := s.ctxWord g.cid 7
  let sval := g.rdS u.slot s.turn 0 f.a.toNat
  if bitsAt w6 63 1 = 0 then s.advance g u.name
  else
    let c := s.core g.core
    let lclk := c.lclk + 1
    let s := s.setCore g.core { c with lclk := lclk }
    let twr := bitsAt w7 32 32
    let s :=
      if 2 ^ bitsAt w6 48 5 ≤ twr then
        s.storeN (ctxBase g.cid + 56) 4 (min (2 ^ 32 - 1) (bitsAt w7 0 32 + 1))
      else
        (s.storeBytes (bitsAt w6 0 48 + 32 * twr) (wordBytes (pmarkRecord g u.name lclk f.imm sval))).storeN
          (ctxBase g.cid + 60) 4 (twr + 1)
    s.advance g u.name

/-! ## 0x01 -/

/-- BRA (R83). -/
def execBra (f : BF) (s : State) : Host.Outcome State Fault Refusal := s.issue fun u =>
  if f.uq && !u.g.uniformGuard s.turn f.toCommon then s.advance u.g u.name
  else
    let t := offsetPc u.slot.pc f.off
    let (s, c) := s.checkTarget u.g t
    s.checked u c fun s => s.jumpTo u u.g (pcOf t)

/-- The split of a branch, SPILLFULL when the stacks are full (R86). -/
def State.branchSplit (s : State) (u : Issuer) (taken rest : Mask) (tpc rpc jpc : Pc) (call : Bool) : State :=
  match s.split u.g u.name taken rest tpc rpc jpc with
  | none => s.raise u causeSpillFull 0
  | some (s, g, holder) =>
    let x := g.slot holder
    let g := if call && taken != 0 then g.setSlot holder { x with rets := (u.slot.pc + 1) :: x.rets } else g
    (s.setGroup g).settleSlots g.id

/-- BRC (R83): its target is checked when a lane takes it, its join against the segment (R82). -/
def execBrc (f : BF) (s : State) : Host.Outcome State Fault Refusal := s.issue fun u =>
  let x := u.slot
  let taken := u.g.participating x s.turn f.toCommon
  let t := offsetPc x.pc f.off
  let j := offsetPc x.pc f.joff
  let (s, c) := if taken = 0 then (s, Checked.ok) else s.checkTarget u.g t
  s.checked u c fun s => s.checked u ((s.launch u.g).joinOk j) fun s =>
    s.branchSplit u taken (x.mask &&& ~~~taken) (pcOf t) (x.pc + 1) (pcOf j) false

/-- What an entry of a target table gives (R46, R84): a target PC, a failure, or a line to fetch again. -/
inductive TableEntry where
  | target (pc : Int)
  | refetch (line : Nat)
  | parity (efault : DWord)
  | check (c : Checked)
  deriving DecidableEq, Repr

/-- Entry `i` of the table whose first line is at PC `base`, for a branch at `pc` (R46). -/
def State.tableEntry (s : State) (u : Issuer) (base : Nat) (i : Nat) : State × TableEntry :=
  let pc := base + 5 * (i / 15)
  if !(s.launch u.g).inSegment pc then (s, .check (.bad (badTarget (2 ^ 40 - 1) 1)))
  else
    match s.fetchLine u.g pc with
    | (s, .held) => (s, .check .stall)
    | (s, .failed f) => (s, .check (.failed f))
    | (s, .line bs) =>
      let e := i % 15
      let v := leNat ((bs.drop (4 * e)).take 4)
      let again := fun (efault : Nat) =>
        if u.slot.refetched.contains (pc / 5) then TableEntry.parity (BitVec.ofNat 64 efault) else .refetch (pc / 5)
      if !lwpOk (lineWord bs) then (s, again (e / 3 + 8))
      else if lineKind (lineWord bs) ≠ 1 then (s, .check (.bad (badTarget (2 ^ 40 - 1) 3)))
      else if !slotOk bs (e / 3) then (s, again (e / 3))
      else if v = 0x80000000 then (s, .check (.bad (badTarget (2 ^ 40 - 1) 4)))
      else (s, .target ((u.slot.pc.toNat : Int) + readInt 32 true v))

/-- The targets of the participating lanes, each entry checked, in ascending lane order (R84). -/
def State.tableTargets (s : State) (u : Issuer) (base : Nat) (va : Nat) : List Nat → State × Except TableEntry (List (Nat × Int))
  | [] => (s, .ok [])
  | l :: rest =>
    match s.tableEntry u base (u.g.rdV s.turn 0 va l).toNat with
    | (s, .target pc) =>
      (match s.checkTarget u.g pc with
        | (s, .ok) =>
          (match State.tableTargets s u base va rest with
            | (s, .ok ts) => (s, .ok ((l, pc) :: ts))
            | (s, .error e) => (s, .error e))
        | (s, c) => (s, .error (.check c)))
    | (s, e) => (s, .error e)

/-- BRX and CALLX (R84): the lowest participating lane's target is peeled off; every other active lane resumes here. -/
def State.tableBranch (s : State) (u : Issuer) (f : BF) (call : Bool) : State :=
  let x := u.slot
  let part := u.g.participating x s.turn f.toCommon
  let base := offsetPc x.pc f.off
  let j := offsetPc x.pc f.joff
  if base % 5 ≠ 0 then s.raise u causeBadTarget (badTarget (modBits 40 base) 5)
  else if base < 0 then s.raise u causeBadTarget (badTarget (2 ^ 40 - 1) 1)
  else
    match s.tableTargets u base.toNat f.a.toNat (lanesOf part) with
    | (s, .error (.check c)) => s.checked u c id
    | (s, .error (.refetch n)) => s.setGroup (u.g.setSlot u.name { x with refetching := some n })
    | (s, .error (.parity e)) => s.raise u causeParity e
    | (s, .error (.target _)) => s
    | (s, .ok ts) =>
      s.checked u ((s.launch u.g).joinOk j) fun s =>
        match ts with
        | [] => s.advance u.g u.name
        | (_, t) :: _ =>
          let taken := maskOf (fun l => ts.any (fun e => e.1 == l && e.2 == t))
          if call && 32 ≤ x.rets.length then s.raise u causeCallDepth 0
          else s.branchSplit u taken (x.mask &&& ~~~taken) (pcOf t) x.pc (pcOf j) call

/-- BRX (R84). -/
def execBrx (f : BF) (s : State) : Host.Outcome State Fault Refusal := s.issue fun u => s.tableBranch u f false

/-- CALLX (R84): as BRX, and PC + 1 onto the return stack of the slot that holds the taken lanes. -/
def execCallx (f : BF) (s : State) : Host.Outcome State Fault Refusal := s.issue fun u => s.tableBranch u f true

/-- CALL (R85): the target is checked before the depth. -/
def execCall (f : BF) (s : State) : Host.Outcome State Fault Refusal := s.issue fun u =>
  let x := u.slot
  let t := offsetPc x.pc f.off
  let (s, c) := s.checkTarget u.g t
  s.checked u c fun s =>
    if 32 ≤ x.rets.length then s.raise u causeCallDepth 0
    else s.setGroup (u.g.setSlot u.name { x.jump (pcOf t) with rets := (x.pc + 1) :: x.rets })

/-- RET (R85). -/
def execRet (_f : BF) (s : State) : Host.Outcome State Fault Refusal := s.issue fun u =>
  let x := u.slot
  match x.rets with
  | [] => s.raise u causeCallDepth 1
  | pc :: rest =>
    let (s, c) := s.checkTarget u.g pc.toNat
    s.checked u c fun s => s.setGroup (u.g.setSlot u.name { x.jump pc with rets := rest })

/-- LOOPS (R83): the decremented count is a result that a later reader needs a marker for (R59). -/
def execLoops (f : BF) (s : State) : Host.Outcome State Fault Refusal := s.issue fun u =>
  let x := u.slot
  let n := u.g.rdS x s.turn 0 f.a.toNat
  let t := offsetPc x.pc f.off
  if n = 0 then s.advance u.g u.name
  else
    let g := u.g.write s.turn x.mask (.s (sName x f.a.toNat)) (n - 1)
    if n = 1 then s.advance g u.name
    else
      let (s, c) := s.checkTarget u.g t
      s.checked u c fun s => s.jumpTo u g (pcOf t)

/-! ## 0x02 -/

/-- ELECT (R90). -/
def execElect (f : VR) (s : State) : Host.Outcome State Fault Refusal := s.issue fun u =>
  let part := u.g.participating u.slot s.turn f.toCommon
  s.result u ((lanesOf part).map (fun l => (.p f.pd.toNat l, boolWord (l == lowestLane part))))

/-- The participating lanes in which P[a] is true (R90). -/
def Issuer.voters (u : Issuer) (turn : Nat) (part : Mask) (a : Nat) : List Nat :=
  (lanesOf part).filter (fun l => u.g.rdP turn 0 a l)

/-- VOTE.or (R90). -/
def execVoteOr (f : VR) (s : State) : Host.Outcome State Fault Refusal := s.issue fun u =>
  let part := u.g.participating u.slot s.turn f.toCommon
  let v := boolWord (!(u.voters s.turn part f.a.toNat).isEmpty)
  s.result u ((lanesOf part).map (fun l => (.p f.pd.toNat l, v)))

/-- VOTE.and (R90). -/
def execVoteAnd (f : VR) (s : State) : Host.Outcome State Fault Refusal := s.issue fun u =>
  let part := u.g.participating u.slot s.turn f.toCommon
  let v := boolWord (u.voters s.turn part f.a.toNat == lanesOf part)
  s.result u ((lanesOf part).map (fun l => (.p f.pd.toNat l, v)))

/-- VOTE.mask (R90). -/
def execVoteMask (f : VR) (s : State) : Host.Outcome State Fault Refusal := s.issue fun u =>
  let part := u.g.participating u.slot s.turn f.toCommon
  let vs := u.voters s.turn part f.a.toNat
  s.result u ((lanesOf part).map (fun l => (.v f.d.toNat l, (maskOf (fun k => vs.contains k)).setWidth 64)))

/-- VOTE.same (R90): over b32, or over the b64 pair. -/
def execVoteSame (f : VR) (s : State) : Host.Outcome State Fault Refusal := s.issue fun u =>
  let part := u.g.participating u.slot s.turn f.toCommon
  let n := if f.t = 20 then 2 else 1
  let vals := (lanesOf part).map (fun l => u.g.rdWide s.turn 0 f.a.toNat l n)
  let v := boolWord (vals.all (fun x => x == vals.headD 0))
  s.result u ((lanesOf part).map (fun l => (.p f.pd.toNat l, v)))

/-- VOTE.rank (R90). -/
def execVoteRank (f : VR) (s : State) : Host.Outcome State Fault Refusal := s.issue fun u =>
  let part := u.g.participating u.slot s.turn f.toCommon
  let vs := u.voters s.turn part f.a.toNat
  s.result u ((lanesOf part).map (fun l => (.v f.d.toNat l, BitVec.ofNat 64 (vs.filter (· < l)).length)))

/-! ## 0x03 -/

/-- The value of a special register in a lane (R35, R36). The trap registers read zero outside trap mode. -/
def State.special (s : State) (u : Issuer) (n lane : Nat) : DWord :=
  let g := u.g
  let bank := fun (i : Nat) => if u.slot.trap.isSome then g.read s.turn 0 (.s (trapBank i)) else 0
  match n with
  | 0x00 => BitVec.ofNat 64 lane
  | 0x01 => BitVec.ofNat 64 g.grp
  | 0x02 => BitVec.ofNat 64 (coreIdx g.core)
  | 0x03 => BitVec.ofNat 64 (coreClus g.core)
  | 0x04 => BitVec.ofNat 64 (coreOct g.core)
  | 0x05 => BitVec.ofNat 64 (coreDie g.core)
  | 0x06 => BitVec.ofNat 64 (s.field modid 0 10)
  | 0x07 => BitVec.ofNat 64 g.cid
  | 0x08 => (s.die (coreDie g.core)).clock
  | 0x09 => (s.core g.core).lclk
  | 0x0A => u.slot.fmt.setWidth 64
  | 0x0B => (s.core g.core).featm.setWidth 64
  | 0x0C => bank 0
  | 0x0D => bank 1
  | 0x0E => bank 2
  | 0x10 => BitVec.ofNat 64 lane
  | 0x18 => 32
  | k => if k < 0x18 then BitVec.ofNat 64 (g.lvlIdx.getD (k - 0x10) 0) else BitVec.ofNat 64 (g.lvlDim.getD (k - 0x18) 1)

/-- RDSR to a V register (R91): bits [31:0] in each participating lane. -/
def execRdsrV (f : EF) (s : State) : Host.Outcome State Fault Refusal := s.issue fun u =>
  let part := u.g.participating u.slot s.turn f.toCommon
  s.result u ((lanesOf part).map (fun l => (.v f.d.toNat l, ((s.special u f.u.toNat l).setWidth 32).setWidth 64)))

/-- RDSR to an S register (R91): all 64 bits. -/
def execRdsrS (f : EF) (s : State) : Host.Outcome State Fault Refusal := s.issue fun u =>
  s.result u [(.s (sName u.slot f.d.toNat), s.special u f.u.toNat 0)]

/-- WRSR (R91): FMT under R34; the trap registers in trap mode only, else UNDEF (R35). -/
def execWrsr (f : EF) (s : State) : Host.Outcome State Fault Refusal := s.issue fun u =>
  let v := u.g.rdS u.slot s.turn 0 f.a.toNat
  if f.u = 0x0A then s.setFmt u (v.toNat % 2 ^ 32)
  else if u.slot.trap.isNone then s.raise u causeUndef 0
  else s.advance (u.g.writeNow s.turn (.s (trapBank (f.u.toNat - 0x0C))) v) u.name

/-- FMTSET (R92). -/
def execFmtset (f : EF) (s : State) : Host.Outcome State Fault Refusal := s.issue fun u => s.setFmt u f.imm.toNat

/-- FMTGET (R92). -/
def execFmtget (f : EF) (s : State) : Host.Outcome State Fault Refusal := s.issue fun u =>
  s.result u [(.s (sName u.slot f.d.toNat), u.slot.fmt.setWidth 64)]

/-- YIELD (R93, R235): the slot's age counter is set to zero. -/
def execYield (_f : EF) (s : State) : Host.Outcome State Fault Refusal := s.issue fun u =>
  s.setGroup (u.g.setSlot u.name { u.slot.advance with age := 0 })

/-! ## Events of a slot -/

/-- The slot an event names by its first two operands: a group's number, and 0 for slot A or 1 for slot B. -/
def State.slotArg (s : State) : Option Issuer :=
  (s.group? (s.arg 0)).map (fun g => { g := g, name := if s.arg 1 = 0 then .a else .b })

/-- An event's outcome: the next state, or the fault that says it is not due. -/
def whenDue (o : Option State) : Host.Outcome State Fault Refusal :=
  match o with
  | some s => .next s
  | none => .fault .eventNotDue

/-- The slot's wait marked done: it may issue again. -/
def State.wake (s : State) (u : Issuer) : State :=
  match u.slot.wait with
  | some w => s.setGroup (u.g.setSlot u.name { u.slot with wait := some { w with done := true } })
  | none => s

/-- SLEEP_WAKE (R93): the slot's ac count has expired. -/
def execSleepWake (s : State) : Host.Outcome State Fault Refusal := whenDue (do
  let u ← s.slotArg
  let w ← u.slot.wait
  match w.cond with
  | .clock ac => if ac ≤ (s.die (coreDie u.g.core)).clock.toNat && !w.done then some (s.wake u) else none
  | _ => none)

/-- SPILL_MOVE_DONE (R87): the entry that an eviction wrote is in the spill area, or the top entry of the slot's stack has
come back from it as memory now holds it; the core caches no more than the two pushed last. -/
def execSpillMoveDone (s : State) : Host.Outcome State Fault Refusal := whenDue (do
  let u ← s.slotArg
  let x := u.slot
  if !x.moving then none
  else
    match x.spill with
    | e :: rest =>
      if e.cached then some (s.setGroup (u.g.setSlot u.name { x with moving := false }))
      else
        let a := s.spillAddr u.g (spillIndex u.name rest.length)
        some (((s.setGroup (u.g.setSlot u.name { x with
          spill := Spill.ofBytes (s.bytes a 32) e.stamp :: rest, moving := false })).settleSlots u.g.id).trimSpill u.g.id)
    | [] => some (s.setGroup (u.g.setSlot u.name { x with moving := false })))

/-- Discards the L1 copies that a core holds of the physical line of a fetch line, their dirty bytes written below first (R43). -/
def State.discardLine (s : State) (g : Group) (line : Nat) : State :=
  let l := s.launch g
  match s.resolve g.cid g.core (coreDie g.core) l.codeK (l.codeOff + 64 * line) rightX with
  | (s, .lands a) => (s.l1.filter (fun x => s.sharesL1 g.core x.core && x.line == a.addr / 128)).foldl State.evictL1 s
  | _ => s

/-- LINE_REFETCH (R43): the second copy of the line has come from beyond the L1, whose own copy is discarded, and is checked at
issue. -/
def execLineRefetch (s : State) : Host.Outcome State Fault Refusal := whenDue (do
  let u ← s.slotArg
  let line ← u.slot.refetching
  some ((s.setGroup (u.g.setSlot u.name { u.slot with refetching := none, refetched := line :: u.slot.refetched })).discardLine u.g line))

end Sys2Proof.Machine
end

