-- ==== Sys2Proof/Machine/Operands.lean ====
section
/-! DEFINITION. The operand forms of vector and uniform instructions (R102, R104, R126) and the writing of their results, lane
by lane. An instruction reads all its sources before it writes (R25). -/
namespace Sys2Proof.Machine
open Sys2Proof

/-! ## Vector operands -/

/-- The value of U in a lane, `n` registers wide: bits [31:0] of S[u], or the whole of it (R102). -/
def Issuer.uniform (x : Issuer) (turn port n u : Nat) : Nat :=
  let v := (x.g.rdS x.slot turn port u).toNat
  if n = 1 then v % 2 ^ 32 else v

/-- Register A in a lane. -/
def Issuer.opA (x : Issuer) (turn : Nat) (f : VR) (n l : Nat) : Nat := x.g.rdWide turn 1 f.a.toNat l n

/-- The second source in a lane: register B, or U with BU = 1 (R102). -/
def Issuer.opB (x : Issuer) (turn : Nat) (f : VR) (n l : Nat) : Nat :=
  if f.bu then x.uniform turn 2 n f.u.toNat else x.g.rdWide turn 2 f.b.toNat l n

/-- The third source in a lane: register C, or U with CU = 1 (R102). -/
def Issuer.opC (x : Issuer) (turn : Nat) (f : VR) (n l : Nat) : Nat :=
  if f.cu then x.uniform turn 3 n f.u.toNat else x.g.rdWide turn 3 f.c.toNat l n

/-- IMM32 as a value of a type (R102): sign-extended for s64, else as it stands or zero-extended. -/
def immOf (t : Nat) (imm : Word) : Nat :=
  if t = 3 then modBits 64 imm.toInt else imm.toNat

/-- Results of one value per participating lane, `n` registers wide at V register `d`. -/
def laneResults (part : Mask) (d n : Nat) (v : Nat → Nat) : List (Cell × DWord) :=
  (lanesOf part).flatMap (fun l => vCells d n l (v l))

/-- Results of one predicate per participating lane; predicate 7 takes none (R32). -/
def predResults (part : Mask) (pd : Nat) (v : Nat → Bool) : List (Cell × DWord) :=
  if pd = 7 then [] else (lanesOf part).map (fun l => (.p pd l, if v l then 1 else 0))

/-- Writes an instruction's results and advances its slot (R13, R14, R25, R59). -/
def State.write (s : State) (u : Issuer) (ws : List (Cell × DWord)) : State :=
  s.advance (u.g.writeAll s.turn u.slot.mask ws) u.name

/-- Results written before the slot issues again (R59, R122, R187), in order. -/
def Group.writeAllNow (g : Group) (turn : Nat) : List (Cell × DWord) → Group
  | [] => g
  | (c, x) :: rest => Group.writeAllNow (g.writeNow turn c x) turn rest

/-- A VR instruction of one result per lane: `v` gives it, `n` registers wide. -/
def State.vr (s : State) (f : VR) (n : Nat) (v : Issuer → Nat → Nat) : Host.Outcome State Fault Refusal :=
  s.issue fun u => s.write u (laneResults (u.g.participating u.slot s.turn f.toCommon) f.d.toNat n (v u))

/-- A VI instruction of one result per lane. -/
def State.vi (s : State) (f : VI) (n : Nat) (v : Issuer → Nat → Nat) : Host.Outcome State Fault Refusal :=
  s.issue fun u => s.write u (laneResults (u.g.participating u.slot s.turn f.toCommon) f.d.toNat n (v u))

/-! ## Uniform operands -/

/-- The width of a uniform type: 64, or 32 for s32, z32 and b32 (R104). -/
def uniWidth (t : Nat) : Nat := if t = 1 ∨ t = 2 ∨ t = 0 then 32 else 64

/-- An S source read under a type (R104). -/
def uniRead (t : Nat) (x : Nat) : Int := readInt (uniWidth t) (intSigned t) x

/-- A uniform result: modulo 2^N, extended to 64 bits by the type (R104). -/
def uniResult (t : Nat) (v : Int) : DWord :=
  BitVec.ofNat 64 (modBits 64 (readInt (uniWidth t) (intSigned t) (modBits (uniWidth t) v)))

/-- S[a] of a uniform instruction. -/
def Issuer.srA (x : Issuer) (turn : Nat) (f : SR) : Nat := (x.g.rdS x.slot turn 1 f.sa.toNat).toNat
/-- S[b]. -/
def Issuer.srB (x : Issuer) (turn : Nat) (f : SR) : Nat := (x.g.rdS x.slot turn 2 f.sb.toNat).toNat
/-- S[c]. -/
def Issuer.srC (x : Issuer) (turn : Nat) (f : SR) : Nat := (x.g.rdS x.slot turn 3 f.sc.toNat).toNat

/-- A uniform instruction: under its guard it writes, else it writes nothing (R101). -/
def State.uni (s : State) (f : SR) (ws : Issuer → List (Cell × DWord)) : Host.Outcome State Fault Refusal :=
  s.issue fun u => if u.g.uniformGuard s.turn f.toCommon then s.write u (ws u) else s.advance u.g u.name

/-- The S destination of the issuing slot (R31). -/
def Issuer.sd (x : Issuer) (f : SR) : Cell := .s (sName x.slot f.sd.toNat)

/-- The Q destination: none for 7 (R106). -/
def qdResult (qd : Nat) (b : Bool) : List (Cell × DWord) := if qd = 7 then [] else [(.q qd, if b then 1 else 0)]

/-! ## Comparisons and bit fields -/

/-- The conditions of R114. -/
def condOf (code : Nat) (a b : Int) : Bool :=
  match code with
  | 0 => a == b
  | 1 => a != b
  | 2 => decide (a < b)
  | 3 => decide (a ≤ b)
  | 4 => decide (b < a)
  | _ => decide (b ≤ a)

/-- The width of the field of R116. -/
def fieldWidth (n b : Nat) : Nat :=
  let pos := b % 256
  let len := b / 256 % 256
  if n ≤ pos ∨ len = 0 then 0 else min len (n - pos)

/-- Bit-field extract (R116). -/
def bitExtract (n : Nat) (sg : Bool) (a b : Nat) : Int :=
  let w := fieldWidth n b
  if w = 0 then 0 else readInt w sg (a % 2 ^ n / 2 ^ (b % 256))

/-- Bit-field insert of a into c (R116). -/
def bitInsert (n a b c : Nat) : Nat :=
  let w := fieldWidth n b
  let pos := b % 256
  if w = 0 then c
  else c / 2 ^ (pos + w) * 2 ^ (pos + w) + a % 2 ^ w * 2 ^ pos + c % 2 ^ pos

/-- The shifts of R105 at N bits: left, right, arithmetic right. -/
def shiftLeft (n a s : Nat) : Nat := if n ≤ s then 0 else a * 2 ^ s % 2 ^ n
/-- Right, a unsigned. -/
def shiftRight (n a s : Nat) : Nat := if n ≤ s then 0 else a % 2 ^ n / 2 ^ s
/-- Right, a signed, toward −∞. -/
def shiftArith (n a s : Nat) : Int := readInt n true a / (2 ^ min s n : Nat)

/-- The ones of an N-bit value. -/
def countOnes (n a : Nat) : Nat := onesIn n a

/-- The leading zeros of an N-bit value; N for zero. -/
def countZeros (n a : Nat) : Nat := if a % 2 ^ n = 0 then n else n - 1 - Nat.log2 (a % 2 ^ n)

/-- An N-bit value with bit i moved to bit N − 1 − i. -/
def reverseBits (n a : Nat) : Nat := (List.range n).foldl (fun v i => v + a / 2 ^ i % 2 * 2 ^ (n - 1 - i)) 0

end Sys2Proof.Machine
end

