-- ==== Sys2Proof/Machine/MemIssue.lean ====
section
/-! DEFINITION. The issue of memory instructions: offsets (R142, R144), alignment (R145), release waits (R265), the access that a
path counter counts (R38, R39), its requests by line (R365), and their first step (R246). -/
namespace Sys2Proof.Machine
open Sys2Proof

/-! ## Addresses -/

/-- The offset of a global access in a lane (R142). -/
def Issuer.offset (u : Issuer) (turn : Nat) (f : MF) (l : Nat) : Nat :=
  let lo := (u.g.rdV turn 1 f.a.toNat l).toNat
  let hi := if f.ow then (u.g.rdV turn 1 (f.a.toNat + 1) l).toNat % 2 ^ 16 else 0
  modBits 48 ((lo + hi * 2 ^ 32 : Nat) + f.disp.toInt)

/-- The offset of a uniform access (R142). -/
def Issuer.uniformOffset (u : Issuer) (turn : Nat) (f : MF) : Nat :=
  modBits 48 ((bitsAt (u.g.rdS u.slot turn 1 f.a.toNat).toNat 0 48 : Nat) + f.disp.toInt)

/-- The scratchpad address of a lane, signed (R144). -/
def Issuer.spOffset (u : Issuer) (turn : Nat) (f : MF) (l : Nat) : Int :=
  ((u.g.rdV turn 1 f.a.toNat l).toNat : Int) + f.disp.toInt

/-- The core whose scratchpad an access names (R144). -/
def spTarget (core : Nat) (f : MF) : Nat := if f.spc = 2 then clusterCore core (coreIdx core + f.peer.toNat) else core

/-- The size of an access in bytes (R145). -/
def accBytes (f : MF) : Nat := 2 ^ f.sz.toNat

/-- The K value an access names (R142, R143). -/
def Issuer.accessK (u : Issuer) (turn : Nat) (f : MF) : DWord := u.g.rdK turn 3 (f.u.toNat - 192)

/-- The registers a lane's value fills, as cells. -/
def laneCells (d n l : Nat) : List Cell := (List.range n).map (fun i => .v (d + i) l)

/-! ## Accesses -/

/-- Does the order make an access a release action: a store or an atomic of ORD release, acq_rel or sc (R265)? -/
def releases (ord : Nat) : Bool := ord == 3 || ord == 4 || ord == 5

/-- What a memory instruction's access is: its path, whether it loads, whether it stores. -/
structure AccessKindOf where
  path : Path
  loads : Bool
  stores : Bool
  deriving DecidableEq, Repr

/-- Raises the path counter by an access of the issuing slot (R17, R38), with a log entry where the path takes one and a lane
participates (R39, R150). -/
def State.addAccess (s : State) (u : Issuer) (k : AccessKindOf) (ord scp : Nat) (lanes : Mask) (dest : List Cell) :
    State × Group × Nat :=
  let (id, s) := s.fresh
  let logged := k.path != .sp && k.path != .mx && lanes != 0
  let a : Access := { id := id, slot := u.name, pc := u.slot.pc, path := k.path, turn := s.turn,
                      log := if logged then s.freeLog u.g else none, ord := ord, scp := scp, lanes := lanes, loads := k.loads,
                      stores := k.stores, dest := dest, done := lanes == 0, fail := none }
  let g := { u.g with accs := u.g.accs ++ [a] }.fall
  (s, g, id)

/-- Puts lanes into the requests of their 128 B lines, in the order of their first lanes (R365). -/
def byLine : List LaneOp → List (Nat × List LaneOp)
  | [] => []
  | o :: rest =>
    let b := o.addr / 128 * 128
    let others := byLine rest
    match others.find? (fun e => e.1 == b) with
    | some e => (b, o :: e.2) :: others.filter (fun x => x.1 != b)
    | none => (b, [o]) :: others

/-- The lanes of some lane operations. -/
def lanesMask (ops : List LaneOp) : Mask := maskOf (fun l => ops.any (fun o => o.lane == l))

/-- Is an access strong (R149)? -/
def strong (ord : Nat) : Bool := ord != 0

/-- May a lookup of the request still fail or be made again? -/
def Req.asking (r : Req) : Bool :=
  match r.phase with
  | .at _ _ => true
  | .held _ _ _ => true
  | .suspended _ _ _ => true
  | .egress _ => true
  | _ => false

/-- A group whose newest access has been issued: its log entry is freed at once where the L1 answers every request of its lanes (R39). -/
def State.logged (s : State) (g : Group) (acc : Nat) (lanes : Mask) : Group :=
  if lanes == 0 || s.reqs.any (fun r => r.gid == g.id && r.acc == acc && r.asking) then g
  else { g with accs := g.accs.dropLast ++ (g.accs.getLast?.map (fun a => { a with log := none })).toList }

/-- The turn before which the group's loads are performed before a store or an atomic: its own for a release access, that of the group's last
release FENCE for another strong one (R265, R266). -/
def behindOf (g : Group) (turn : Nat) (stores : Bool) (ord : Nat) : Nat :=
  if !stores then 0 else if releases ord then turn else if strong ord then g.relTurn else 0

/-- A new request: its first step is the CORE tier, or the L1 that holds its sectors with every right it needs (R246). -/
def State.addRequest (s : State) (g : Group) (acc : Nat) (kind : ReqKind) (need : BitVec 5) (k : DWord) (f : MF) (noL1 : Bool)
    (base : Nat) (ops : List LaneOp) : State :=
  let (id, s) := s.fresh
  let (s, seq) := s.nextSeq g.core
  let log := match g.access? acc with
    | some a => a.log.getD 0
    | none => 0
  let r : Req := { Req.blank id g kind s.fc with
    acc := acc, turn := s.turn, k0 := k, off0 := base, k := k, off := base, need := need, lanes := ops, left := lanesMask ops,
    ord := f.ord.toNat, scp := f.scp.toNat, ch := f.ch.toNat, window := f.spc == 3, seq := seq, log := log, noL1 := noL1,
    behind := behindOf g s.turn (match kind with
      | .load _ _ => false
      | .prf => false
      | _ => true) f.ord.toNat }
  let hit := if noL1 then none else s.l1Find (s.l1For g.core base) g.cid k base
  let r := match hit with
    | some l => if within need l.rights && sectorsIn (laneSectors ops) l.sectors then
        { r with phase := .ready, line := l.line, mode := l.mode, rights := l.rights } else r
    | none => r
  { s with reqs := s.reqs ++ [r] }

/-- The requests of an access, one for each line its lanes name. -/
def State.addRequests (s : State) (g : Group) (acc : Nat) (kind : ReqKind) (need : BitVec 5) (k : DWord) (f : MF) (noL1 : Bool)
    (ops : List LaneOp) : State :=
  (byLine ops).foldl (fun s e => s.addRequest g acc kind need k f noL1 e.1 e.2) s

/-! ## Waits before issue -/

/-- The wait of a release access that some lane makes, as FENCE.release at its own SCP (R150, R265): goes on once earlier stores are
performed there, after delivering an error that it covers (R98); until then the slot parks. A counter at 63 or a full log holds it too
(R17, R39). -/
def State.afterRelease (s : State) (u : Issuer) (i : Instr) (rel : Bool) (scp : Nat) (path : Path) (k : State) : State :=
  let held := u.g.counter path == 63 || (path != .sp && path != .mx && (s.freeLog u.g).isNone)
  if !rel then k
  else
    let turn := match u.slot.wait with
      | some w => w.turn
      | none => s.turn
    match oldestFailed (u.g.fenced false true turn) with
    | some a => s.deliverFailure u.g u.name a
    | none =>
      if s.fenceHolds u.g false true scp turn && !held then k
      else if u.slot.wait.isSome then s
      else s.park u.g u.name i [] (.fence false true scp turn)

/-- The lowest lane of some whose address fails the check of R145, over exact addresses. -/
def misaligned (size : Nat) (lanes : List Nat) (addr : Nat → Int) : Option Nat :=
  lanes.find? (fun l => addr l % (size : Nat) != 0)

/-! ## Global accesses -/

/-- A global access of the participating lanes (R142, R145, R147, R154): `op` gives what each lane carries. -/
def State.globalAccess (s : State) (u : Issuer) (f : MF) (i : Instr) (kind : ReqKind) (what : AccessKindOf) (need : BitVec 5)
    (l1 : Bool) (op : Nat → Nat → LaneOp) : State :=
  let part := u.g.participating u.slot s.turn f.toCommon
  let addr := u.offset s.turn f
  match misaligned (accBytes f) (lanesOf part) (fun l => ((addr l : Nat) : Int)) with
  | some l => s.raise u causeMisalign (BitVec.ofNat 64 l)
  | none =>
    s.afterRelease u i (what.stores && releases f.ord.toNat && part != 0) f.scp.toNat what.path <|
      let ops := (lanesOf part).map (fun l => op l (addr l))
      let k := u.accessK s.turn f
      let (s, g, acc) := s.addAccess u what f.ord.toNat f.scp.toNat part (ops.flatMap (·.cells))
      let s := s.addRequests g acc kind need k f (!l1 || f.spc == 3 || f.ch == 3) ops
      s.advance (s.logged g acc part) u.name

/-- LD (R147). -/
def State.load (s : State) (f : MF) (i : Instr) (sext : Bool) : Host.Outcome State Fault Refusal := s.issue fun u =>
  s.globalAccess u f i (.load (accBytes f) sext) ⟨.ld, true, false⟩ rightR true fun l a =>
    { lane := l, addr := a, data := 0, extra := 0, result := none, cells := laneCells f.d.toNat (szRegs f.sz.toNat) l }

/-- LD, zero-extending (R147). -/
def execLd (f : MF) (s : State) : Host.Outcome State Fault Refusal := s.load f (.ld f) false
/-- LD, sign-extending (R147). -/
def execLdSx (f : MF) (s : State) : Host.Outcome State Fault Refusal := s.load f (.ldSx f) true

/-- The data of a store in a lane: the low bytes of D (R147). -/
def Issuer.storeData (u : Issuer) (turn : Nat) (f : MF) (l : Nat) : Nat :=
  u.g.rdWide turn 2 f.d.toNat l (szRegs f.sz.toNat) % 2 ^ (8 * (accBytes f))

/-- ST (R147). -/
def execSt (f : MF) (s : State) : Host.Outcome State Fault Refusal := s.issue fun u =>
  s.globalAccess u f (.st f) (.store (accBytes f)) ⟨.st, false, true⟩ rightW true fun l a =>
    { lane := l, addr := a, data := u.storeData s.turn f l, extra := 0, result := none, cells := [] }

/-- One access for the group under its uniform guard (R148); a guard that fails makes none (R150). -/
def State.uniformAccess (s : State) (u : Issuer) (f : MF) (i : Instr) (kind : ReqKind) (what : AccessKindOf) (need : BitVec 5)
    (o : Nat → LaneOp) : State :=
  let takes := u.g.uniformGuard s.turn f.toCommon
  let a := u.uniformOffset s.turn f
  if takes && a % (accBytes f) != 0 then s.raise u causeMisalign 0
  else
    s.afterRelease u i (what.stores && releases f.ord.toNat && takes) f.scp.toNat what.path <|
      let ops := if takes then [o a] else []
      let k := u.accessK s.turn f
      let (s, g, acc) := s.addAccess u what f.ord.toNat f.scp.toNat (if takes then 1 else 0) (ops.flatMap (·.cells))
      let s := s.addRequests g acc kind need k f (f.spc == 3 || f.ch == 3) ops
      s.advance (s.logged g acc (if takes then 1 else 0)) u.name

/-- LDU (R148). -/
def State.loadUniform (s : State) (f : MF) (i : Instr) (sext : Bool) : Host.Outcome State Fault Refusal := s.issue fun u =>
  s.uniformAccess u f i (.load (accBytes f) sext) ⟨.ld, true, false⟩ rightR fun a =>
    { lane := 0, addr := a, data := 0, extra := 0, result := none, cells := [.s (sName u.slot f.d.toNat)] }

/-- LDU, zero-extending (R148). -/
def execLdu (f : MF) (s : State) : Host.Outcome State Fault Refusal := s.loadUniform f (.ldu f) false
/-- LDU, sign-extending (R148). -/
def execLduSx (f : MF) (s : State) : Host.Outcome State Fault Refusal := s.loadUniform f (.lduSx f) true

/-- STU (R148). -/
def execStu (f : MF) (s : State) : Host.Outcome State Fault Refusal := s.issue fun u =>
  s.uniformAccess u f (.stu f) (.store (accBytes f)) ⟨.st, false, true⟩ rightW fun a =>
    { lane := 0, addr := a, data := (u.g.rdS u.slot s.turn 2 f.d.toNat).toNat % 2 ^ (8 * (accBytes f)), extra := 0, result := none,
      cells := [] }

/-- PRF (R151): no alignment rule; it writes no register. -/
def execPrf (f : MF) (s : State) : Host.Outcome State Fault Refusal := s.issue fun u =>
  let part := u.g.participating u.slot s.turn f.toCommon
  let ops := (lanesOf part).map (fun l =>
    ({ lane := l, addr := u.offset s.turn f l, data := 0, extra := 0, result := none, cells := [] } : LaneOp))
  let k := u.accessK s.turn f
  let (s, g, acc) := s.addAccess u ⟨.ld, false, false⟩ 0 0 part []
  let s := s.addRequests g acc .prf rightR k f (f.ch == 3) ops
  s.advance (s.logged g acc part) u.name

/-! ## Scratchpad accesses -/

/-- A place beyond every allotment, for a lane below address 0 (R144). -/
def spNowhere : Nat := 2 ^ 40

/-- A scratchpad or peer access of the participating lanes (R144, R145). -/
def State.spAccess (s : State) (u : Issuer) (f : MF) (i : Instr) (kind : ReqKind) (what : AccessKindOf)
    (op : Nat → Nat → LaneOp) : State :=
  let part := u.g.participating u.slot s.turn f.toCommon
  let addr := u.spOffset s.turn f
  match misaligned (accBytes f) (lanesOf part) addr with
  | some l => s.raise u causeMisalign (BitVec.ofNat 64 l)
  | none =>
    s.afterRelease u i (what.stores && releases f.ord.toNat && part != 0) f.scp.toNat what.path <|
      let ops := (lanesOf part).map (fun l => op l (if addr l < 0 then spNowhere else (addr l).toNat))
      let (s, g, acc) := s.addAccess u what f.ord.toNat f.scp.toNat part (ops.flatMap (·.cells))
      let (id, s) := s.fresh
      let target := spTarget g.core f
      let (base, size) := s.allot target g.block
      let r : SpReq := { id := id, acc := acc, gid := g.id, core := g.core, target := target, base := base, allot := size,
                         turn := s.turn, kind := kind, ord := f.ord.toNat, lanes := ops, left := lanesMask ops,
                         behind := behindOf g s.turn what.stores f.ord.toNat }
      let s : State := if ops.isEmpty then s else { s with spReqs := s.spReqs ++ [r] }
      s.advance g u.name

/-- LDS (R147). -/
def State.loadSp (s : State) (f : MF) (i : Instr) (sext : Bool) : Host.Outcome State Fault Refusal := s.issue fun u =>
  s.spAccess u f i (.load (accBytes f) sext) ⟨.sp, true, false⟩ fun l a =>
    { lane := l, addr := a, data := 0, extra := 0, result := none, cells := laneCells f.d.toNat (szRegs f.sz.toNat) l }

/-- LDS, zero-extending (R147). -/
def execLds (f : MF) (s : State) : Host.Outcome State Fault Refusal := s.loadSp f (.lds f) false
/-- LDS, sign-extending (R147). -/
def execLdsSx (f : MF) (s : State) : Host.Outcome State Fault Refusal := s.loadSp f (.ldsSx f) true

/-- STS (R147). -/
def execSts (f : MF) (s : State) : Host.Outcome State Fault Refusal := s.issue fun u =>
  s.spAccess u f (.sts f) (.store (accBytes f)) ⟨.sp, false, true⟩ fun l a =>
    { lane := l, addr := a, data := u.storeData s.turn f l, extra := 0, result := none, cells := [] }

/-! ## FENCE -/

/-- FENCE (R162): a covering wait for the paths it waits on (R98); an acquire side applies the pending invalidations (R274). -/
def execFence (f : MF) (s : State) : Host.Outcome State Fault Refusal := s.issue fun u =>
  let o := f.ord.toNat
  let acq := o != 3
  let rel := o != 2
  let turn := match u.slot.wait with
    | some w => w.turn
    | none => s.turn
  match oldestFailed (u.g.fenced acq rel turn) with
  | some a => s.deliverFailure u.g u.name a
  | none =>
    if s.fenceHolds u.g acq rel f.scp.toNat turn then
      (if acq then s.acquireAt u.g else s).advance (if rel then { u.g with relTurn := turn } else u.g) u.name
    else if u.slot.wait.isSome then s
    else s.park u.g u.name (.fence f) [] (.fence acq rel f.scp.toNat turn)

/-! ## Cache control and hints -/

/-- The names of the lines that the participating lanes name, each once. -/
def Issuer.lineNames (u : Issuer) (turn : Nat) (f : MF) (part : Mask) : List Nat :=
  ((lanesOf part).map (fun l => u.offset turn f l / 128 * 128)).eraseDups

/-- CCTL.inv (R153): by name, with no lookup. -/
def execCctlInv (f : MF) (s : State) : Host.Outcome State Fault Refusal := s.issue fun u =>
  let names := u.lineNames s.turn f (u.g.participating u.slot s.turn f.toCommon)
  let s := names.foldl (fun s b =>
    match s.l1Find (s.l1For u.g.core b) u.g.cid (u.accessK s.turn f) b with
    | some l => s.evictL1 l
    | none => s) s
  s.advance u.g u.name

/-- CCTL.wb (R153): the copies stay. -/
def execCctlWb (f : MF) (s : State) : Host.Outcome State Fault Refusal := s.issue fun u =>
  let names := u.lineNames s.turn f (u.g.participating u.slot s.turn f.toCommon)
  let s := names.foldl (fun s b =>
    match s.l1Find (s.l1For u.g.core b) u.g.cid (u.accessK s.turn f) b with
    | some l => s.flushL1 l
    | none => s) s
  s.advance u.g u.name

/-- CCTL.invall (R153): every line of the context in the core's own L1, or in its cluster's when they are fused. -/
def execCctlInvall (_f : MF) (s : State) : Host.Outcome State Fault Refusal := s.issue fun u =>
  let mine := fun (l : L1Line) => l.cid == u.g.cid && s.sharesL1 u.g.core l.core
  ((s.l1.filter mine).foldl State.evictL1 s).advance u.g u.name

/-- The range of a hint in bytes: from the page of the address, as many pages as asked, up to the landing's bound (R152). -/
def hintRange (l : Landing) (pages : Nat) : Nat × Nat :=
  let start := l.addr / 4096 * 4096
  (start, min (4096 * pages) (l.room + l.addr % 4096))

/-- Records a hint with the appliance that lands it, which holds 4,096 ranges; neutral withdraws those it covers (R384). -/
def State.takeHint (s : State) (l : Landing) (pages hint : Nat) : State :=
  let (start, len) := hintRange l pages
  match remoteOf l.addr with
  | none => s
  | some m =>
    { s with remotes := s.remotes.map (fun r =>
        if r.id ≠ m ∨ !r.pool ∨ len = 0 then r
        else if hint = 0 then { r with hints := r.hints.filter (fun h => h.1 + h.2.1 ≤ start || start + len ≤ h.1) }
        else { r with hints := (r.hints ++ [(start, len, hint)]).drop (r.hints.length + 1 - 4096) }) }

/-- MHINT (R152): to the owner of the landing tier, with no counter; a lane whose lookup fails, or would wait, is ignored. Of a failure the
tier's owner receives its record (R245, assumption 20). -/
def execMhint (f : MF) (s : State) : Host.Outcome State Fault Refusal := s.issue fun u =>
  let part := u.g.participating u.slot s.turn f.toCommon
  let s := (lanesOf part).foldl (fun s l =>
    match s.resolve u.g.cid u.g.core (coreDie u.g.core) (u.accessK s.turn f) (u.offset s.turn f l) 0 with
    | (s, .lands a) => s.takeHint a (u.g.rdV s.turn 2 f.c.toNat l).toNat f.ch.toNat
    | (s, .failed e) =>
      let (s, seq) := s.nextSeq u.g.core
      (s.reportFailure e (requestTag u.g.core u.g.grp 0 l seq.toNat) 0 u.g.cid (coreDie u.g.core)).1
    | (s, _) => s) s
  s.advance u.g u.name

end Sys2Proof.Machine
end

