-- ==== Sys2Proof/Machine/Atomic.lean ====
section
/-! DEFINITION. Atomics, scratchpad atomics, reductions and update-only writes (R154 to R161): their operators and their issue;
they take effect at the home, the bank or the partial, by the events of the request. -/
namespace Sys2Proof.Machine
open Sys2Proof

/-! ## The operations -/

/-- The new value of R154 at `w` bits: the old value, operand b, and the swap value of cas. -/
def AtomOp.new (o : AtomOp) (w old b swap : Nat) : Nat :=
  match o with
  | .add => (old + b) % 2 ^ w
  | .and => old &&& b
  | .or => old ||| b
  | .xor => old ^^^ b
  | .minS => if intLess w true b old then b else old
  | .maxS => if intLess w true old b then b else old
  | .minU => min old b
  | .maxU => max old b
  | .exch => b
  | .cas => if old = b then swap else old
  | .inc => if b ≤ old then 0 else old + 1
  | .dec => if old = 0 ∨ b < old then b else old - 1
  | .fadd => faddCode (if w = 64 then 10 else 9) old b

/-- The operand of an atomic in a lane: register C, or its pair (R145). -/
def Issuer.atomData (u : Issuer) (turn : Nat) (f : MF) (l : Nat) : Nat := u.g.rdWide turn 2 f.c.toNat l (szRegs f.sz.toNat)

/-- The swap value of cas: the next register, or the next pair (R145). -/
def Issuer.swapData (u : Issuer) (turn : Nat) (f : MF) (l : Nat) : Nat :=
  u.g.rdWide turn 2 (f.c.toNat + szRegs f.sz.toNat) l (szRegs f.sz.toNat)

/-- What an atomic carries for a lane; `ret`: it returns the old value. -/
def Issuer.atomLane (u : Issuer) (turn : Nat) (f : MF) (op : AtomOp) (ret : Bool) (l a : Nat) : LaneOp :=
  { lane := l, addr := a, data := u.atomData turn f l, extra := if op == .cas then u.swapData turn f l else 0, result := none,
    cells := if ret then laneCells f.d.toNat (szRegs f.sz.toNat) l else [] }

/-- ATOM (R154): at the home, right A. -/
def State.atom (s : State) (f : MF) (i : Instr) (op : AtomOp) : Host.Outcome State Fault Refusal := s.issue fun u =>
  s.globalAccess u f i (.atom op (accBytes f)) ⟨.atom, true, true⟩ rightA false (u.atomLane s.turn f op true)

/-- ATOMS (R157): at the bank. -/
def State.atoms (s : State) (f : MF) (i : Instr) (op : AtomOp) : Host.Outcome State Fault Refusal := s.issue fun u =>
  s.spAccess u f i (.atom op (accBytes f)) ⟨.atom, true, true⟩ (u.atomLane s.turn f op true)

/-- RED (R158): without a result. -/
def State.red (s : State) (f : MF) (i : Instr) (op : AtomOp) : Host.Outcome State Fault Refusal := s.issue fun u =>
  s.globalAccess u f i (.red op (accBytes f)) ⟨.atom, false, true⟩ rightA false (u.atomLane s.turn f op false)

/-- UPD (R159): right U; the partial is in the L1. -/
def State.upd (s : State) (f : MF) (i : Instr) (tag : Nat) : Host.Outcome State Fault Refusal := s.issue fun u =>
  s.globalAccess u f i (.upd tag) ⟨.atom, false, true⟩ rightU true (u.atomLane s.turn f .add false)

/-! ## ATOM -/

/-- ATOM.add (R154). -/
def execAtomAdd (f : MF) (s : State) : Host.Outcome State Fault Refusal := s.atom f (.atomAdd f) .add
/-- ATOM.and (R154). -/
def execAtomAnd (f : MF) (s : State) : Host.Outcome State Fault Refusal := s.atom f (.atomAnd f) .and
/-- ATOM.or (R154). -/
def execAtomOr (f : MF) (s : State) : Host.Outcome State Fault Refusal := s.atom f (.atomOr f) .or
/-- ATOM.xor (R154). -/
def execAtomXor (f : MF) (s : State) : Host.Outcome State Fault Refusal := s.atom f (.atomXor f) .xor
/-- ATOM.signed min (R154). -/
def execAtomMinS (f : MF) (s : State) : Host.Outcome State Fault Refusal := s.atom f (.atomMinS f) .minS
/-- ATOM.signed max (R154). -/
def execAtomMaxS (f : MF) (s : State) : Host.Outcome State Fault Refusal := s.atom f (.atomMaxS f) .maxS
/-- ATOM.unsigned min (R154). -/
def execAtomMinU (f : MF) (s : State) : Host.Outcome State Fault Refusal := s.atom f (.atomMinU f) .minU
/-- ATOM.unsigned max (R154). -/
def execAtomMaxU (f : MF) (s : State) : Host.Outcome State Fault Refusal := s.atom f (.atomMaxU f) .maxU
/-- ATOM.exch (R154). -/
def execAtomExch (f : MF) (s : State) : Host.Outcome State Fault Refusal := s.atom f (.atomExch f) .exch
/-- ATOM.cas (R154). -/
def execAtomCas (f : MF) (s : State) : Host.Outcome State Fault Refusal := s.atom f (.atomCas f) .cas
/-- ATOM.inc (R154). -/
def execAtomInc (f : MF) (s : State) : Host.Outcome State Fault Refusal := s.atom f (.atomInc f) .inc
/-- ATOM.dec (R154). -/
def execAtomDec (f : MF) (s : State) : Host.Outcome State Fault Refusal := s.atom f (.atomDec f) .dec
/-- ATOM.fadd (R154). -/
def execAtomFadd (f : MF) (s : State) : Host.Outcome State Fault Refusal := s.atom f (.atomFadd f) .fadd

/-! ## ATOMS -/

/-- ATOMS.add (R157). -/
def execAtomsAdd (f : MF) (s : State) : Host.Outcome State Fault Refusal := s.atoms f (.atomsAdd f) .add
/-- ATOMS.and (R157). -/
def execAtomsAnd (f : MF) (s : State) : Host.Outcome State Fault Refusal := s.atoms f (.atomsAnd f) .and
/-- ATOMS.or (R157). -/
def execAtomsOr (f : MF) (s : State) : Host.Outcome State Fault Refusal := s.atoms f (.atomsOr f) .or
/-- ATOMS.xor (R157). -/
def execAtomsXor (f : MF) (s : State) : Host.Outcome State Fault Refusal := s.atoms f (.atomsXor f) .xor
/-- ATOMS.signed min (R157). -/
def execAtomsMinS (f : MF) (s : State) : Host.Outcome State Fault Refusal := s.atoms f (.atomsMinS f) .minS
/-- ATOMS.signed max (R157). -/
def execAtomsMaxS (f : MF) (s : State) : Host.Outcome State Fault Refusal := s.atoms f (.atomsMaxS f) .maxS
/-- ATOMS.unsigned min (R157). -/
def execAtomsMinU (f : MF) (s : State) : Host.Outcome State Fault Refusal := s.atoms f (.atomsMinU f) .minU
/-- ATOMS.unsigned max (R157). -/
def execAtomsMaxU (f : MF) (s : State) : Host.Outcome State Fault Refusal := s.atoms f (.atomsMaxU f) .maxU
/-- ATOMS.exch (R157). -/
def execAtomsExch (f : MF) (s : State) : Host.Outcome State Fault Refusal := s.atoms f (.atomsExch f) .exch
/-- ATOMS.cas (R157). -/
def execAtomsCas (f : MF) (s : State) : Host.Outcome State Fault Refusal := s.atoms f (.atomsCas f) .cas
/-- ATOMS.inc (R157). -/
def execAtomsInc (f : MF) (s : State) : Host.Outcome State Fault Refusal := s.atoms f (.atomsInc f) .inc
/-- ATOMS.dec (R157). -/
def execAtomsDec (f : MF) (s : State) : Host.Outcome State Fault Refusal := s.atoms f (.atomsDec f) .dec
/-- ATOMS.fadd (R157). -/
def execAtomsFadd (f : MF) (s : State) : Host.Outcome State Fault Refusal := s.atoms f (.atomsFadd f) .fadd

/-! ## RED -/

/-- RED.add (R158). -/
def execRedAdd (f : MF) (s : State) : Host.Outcome State Fault Refusal := s.red f (.redAdd f) .add
/-- RED.and (R158). -/
def execRedAnd (f : MF) (s : State) : Host.Outcome State Fault Refusal := s.red f (.redAnd f) .and
/-- RED.or (R158). -/
def execRedOr (f : MF) (s : State) : Host.Outcome State Fault Refusal := s.red f (.redOr f) .or
/-- RED.xor (R158). -/
def execRedXor (f : MF) (s : State) : Host.Outcome State Fault Refusal := s.red f (.redXor f) .xor
/-- RED.signed min (R158). -/
def execRedMinS (f : MF) (s : State) : Host.Outcome State Fault Refusal := s.red f (.redMinS f) .minS
/-- RED.signed max (R158). -/
def execRedMaxS (f : MF) (s : State) : Host.Outcome State Fault Refusal := s.red f (.redMaxS f) .maxS
/-- RED.unsigned min (R158). -/
def execRedMinU (f : MF) (s : State) : Host.Outcome State Fault Refusal := s.red f (.redMinU f) .minU
/-- RED.unsigned max (R158). -/
def execRedMaxU (f : MF) (s : State) : Host.Outcome State Fault Refusal := s.red f (.redMaxU f) .maxU
/-- RED.fadd (R158). -/
def execRedFadd (f : MF) (s : State) : Host.Outcome State Fault Refusal := s.red f (.redFadd f) .fadd

/-! ## UPD -/

/-- UPD.iadd32, tag 1 (R159). -/
def execUpdIadd32 (f : MF) (s : State) : Host.Outcome State Fault Refusal := s.upd f (.updIadd32 f) 1
/-- UPD.iadd64, tag 2 (R159). -/
def execUpdIadd64 (f : MF) (s : State) : Host.Outcome State Fault Refusal := s.upd f (.updIadd64 f) 2
/-- UPD.fadd32, tag 3 (R159). -/
def execUpdFadd32 (f : MF) (s : State) : Host.Outcome State Fault Refusal := s.upd f (.updFadd32 f) 3
/-- UPD.fadd64, tag 4 (R159). -/
def execUpdFadd64 (f : MF) (s : State) : Host.Outcome State Fault Refusal := s.upd f (.updFadd64 f) 4
/-- UPD.smax32, tag 5 (R159). -/
def execUpdSmax32 (f : MF) (s : State) : Host.Outcome State Fault Refusal := s.upd f (.updSmax32 f) 5
/-- UPD.smin32, tag 6 (R159). -/
def execUpdSmin32 (f : MF) (s : State) : Host.Outcome State Fault Refusal := s.upd f (.updSmin32 f) 6
/-- UPD.zmax32, tag 7 (R159). -/
def execUpdZmax32 (f : MF) (s : State) : Host.Outcome State Fault Refusal := s.upd f (.updZmax32 f) 7
/-- UPD.zmin32, tag 8 (R159). -/
def execUpdZmin32 (f : MF) (s : State) : Host.Outcome State Fault Refusal := s.upd f (.updZmin32 f) 8
/-- UPD.fmax32, tag 9 (R159). -/
def execUpdFmax32 (f : MF) (s : State) : Host.Outcome State Fault Refusal := s.upd f (.updFmax32 f) 9
/-- UPD.fmin32, tag 10 (R159). -/
def execUpdFmin32 (f : MF) (s : State) : Host.Outcome State Fault Refusal := s.upd f (.updFmin32 f) 10
/-- UPD.and64, tag 11 (R159). -/
def execUpdAnd64 (f : MF) (s : State) : Host.Outcome State Fault Refusal := s.upd f (.updAnd64 f) 11
/-- UPD.or64, tag 12 (R159). -/
def execUpdOr64 (f : MF) (s : State) : Host.Outcome State Fault Refusal := s.upd f (.updOr64 f) 12
/-- UPD.xor64, tag 13 (R159). -/
def execUpdXor64 (f : MF) (s : State) : Host.Outcome State Fault Refusal := s.upd f (.updXor64 f) 13

end Sys2Proof.Machine
end

