-- ==== Sys2Proof/Machine/Mmio.lean ====
section
/-! DEFINITION. The MMIO registers of node 6 as a load reads them and a store reaches them (R311, R312 and the register tables of
R315 to R380): the fields a write stores or clears, and the steps that a write begins. -/
namespace Sys2Proof.Machine
open Sys2Proof

/-! ## Where a register is -/

/-- Which register block an offset of node 6 lies in (R312, R329, R347, R360). -/
inductive Block6 where
  | boot (off : Nat)
  | queue (q off : Nat)
  | tier (t : Tier) (number off : Nat)
  | faultQ (q off : Nat)
  | dir (d off : Nat)
  | scan (d off : Nat)
  | pclr (d : Nat)
  | link (d n : Nat)
  | spad (core : Nat)
  | span (port : Nat)
  | none
  deriving DecidableEq, Repr

/-- The block of a C-die by the offset within its 16 MiB (R312, R347, R354, R359, R375 to R380). -/
def dieRegister (d o : Nat) : Block6 :=
  if o < 0x100 then .tier .die d o
  else if 0x10000 ≤ o ∧ o < 0x10300 then .tier .port (3 * d + (o - 0x10000) / 0x100) (o % 0x100)
  else if 0x20000 ≤ o ∧ o < 0x20300 then .tier .remote (3 * d + (o - 0x20000) / 0x100) (o % 0x100)
  else if o = 0x30000 ∨ o = 0x30008 then .dir d (o % 0x100)
  else if 0x40000 ≤ o ∧ o < 0x40018 then .scan d (o % 0x100)
  else if o = 0x50000 then .pclr d
  else if 0x60000 ≤ o ∧ o < 0x60030 then .link d ((o - 0x60000) / 8)
  else if 0x70000 ≤ o ∧ o < 0x70400 then .spad (128 * d + (o - 0x70000) / 8)
  else if 0x80000 ≤ o ∧ o < 0x800C0 ∧ o % 0x40 = 0 then .span (3 * d + (o - 0x80000) / 0x40)
  else .none

/-- The register at an offset of node 6. -/
def block6 (off : Nat) : Block6 :=
  if off % 8 ≠ 0 then .none
  else if off < 0x10000 then .boot off
  else if off < 0x11000 then .queue ((off - 0x10000) / 0x100) (off % 0x100)
  else if 0x20000 ≤ off ∧ off < 0x20100 then .tier .core 0 (off % 0x100)
  else if 0x21000 ≤ off ∧ off < 0x21300 then .faultQ ((off - 0x21000) / 0x100) (off % 0x100)
  else if 0x1000000 ≤ off ∧ off < 0x5000000 then dieRegister (off / 0x1000000 - 1) (off % 0x1000000)
  else .none

/-! ## Plain writes -/

/-- The bits of a word from `lo`, `w` of them. -/
def maskBits (lo w : Nat) : DWord := BitVec.ofNat 64 ((2 ^ w - 1) * 2 ^ lo)

/-- The bits a write stores (RW) and the bits that a 1 clears (RW1C). -/
def writeMasks : Block6 → DWord × DWord
  | .boot 0x1000 => (maskBits 3 1 ||| maskBits 0 2, 0)
  | .boot 0x1040 => (maskBits 0 2, 0)
  | .boot 0x1008 => (0, maskBits 15 1 ||| maskBits 4 8)
  | .queue _ 0x00 => (maskBits 0 48, 0)
  | .queue _ 0x08 => (maskBits 0 5, 0)
  | .queue _ 0x20 => (maskBits 0 20, 0)
  | .tier _ _ 0x08 => (0, maskBits 8 8)
  | .tier _ _ 0x10 => (maskBits 0 64, 0)
  | .tier _ _ 0x18 => (maskBits 0 64, 0)
  | .tier _ _ 0x20 => (maskBits 0 64, 0)
  | .tier _ _ 0x28 => (maskBits 0 64, 0)
  | .tier _ _ 0x30 => (maskBits 12 36, 0)
  | .tier _ _ 0x38 => (maskBits 0 36, 0)
  | .tier _ _ 0x40 => (maskBits 0 32, 0)
  | .tier _ _ 0x50 => (maskBits 12 36, 0)
  | .faultQ _ 0x00 => (maskBits 6 42, 0)
  | .faultQ _ 0x08 => (maskBits 63 1 ||| maskBits 48 5 ||| maskBits 0 1, 0)
  | .faultQ _ 0x18 => (maskBits 0 32, 0)
  | .faultQ _ 0x20 => (0, maskBits 0 32)
  | .faultQ _ 0x28 => (maskBits 0 64, 0)
  | .faultQ _ 0x38 => (maskBits 0 32, 0)
  | .dir _ 0x00 => (maskBits 16 5 ||| maskBits 8 4 ||| maskBits 0 5, 0)
  | .dir _ 0x08 => (0, maskBits 0 48)
  | .scan _ 0x00 => (maskBits 63 1 ||| maskBits 0 40, 0)
  | .scan _ 0x08 => (maskBits 6 42, 0)
  | .link _ _ => (0, maskBits 0 48)
  | _ => (0, 0)

/-- Are the fields of a directory write in their ranges (R359)? -/
def dirWriteOk (v : Nat) : Bool :=
  let mlog := bitsAt v 16 5
  let minlog := bitsAt v 8 4
  let slog := bitsAt v 0 5
  10 ≤ mlog && mlog ≤ 24 && 7 ≤ minlog && minlog ≤ 15 && 12 ≤ slog && slog ≤ 20 && minlog ≤ slog

/-- Is a write of these registers taken as they stand (R325, R329, R359, R361, R374)? `new` is the value they would hold. A write of FQBASE
while EN = 1 is taken as ignored, as that of QBASE is (assumption 17). -/
def State.writeTaken (s : State) (b : Block6) (new : DWord) : Bool :=
  match b with
  | .dir _ 0x00 => dirWriteOk new.toNat
  | .queue q 0x00 => s.field (queueBlock q + 0x20) 0 1 == 0
  | .queue q 0x08 => s.field (queueBlock q + 0x20) 0 1 == 0 && 4 ≤ bitsAt new.toNat 0 5 && bitsAt new.toNat 0 5 ≤ 16
  | .queue q 0x20 => s.field (queueBlock q + 0x20) 0 1 == 0
  | .faultQ q 0x00 => s.field (faultBlock q + 8) 63 1 == 0
  | .boot 0x1000 => s.boot.handed && s.field pmstat 14 1 == 0
  | .boot 0x1040 => s.field dierst 3 1 == 0 && s.field pmstat 14 1 == 0
  | _ => true

/-- A write to a register with no behaviour of its own (R312): its RW fields take the value, its RW1C fields lose the bits
written 1, everything else stays; an unnamed register ignores it. `m` holds the bits that the store carries. The corrected errors
of a core are kept with the core (R377); LOG of a fault queue stays while EN = 1; a scanner that is enabled begins anew (R354). -/
def State.writeReg (s : State) (off : Nat) (v m : DWord) : State :=
  match block6 off with
  | .spad c => s.setCore c { s.core c with corr := (BitVec.ofNat 32 (s.core c).corr &&& ~~~((v &&& m).setWidth 32)).toNat }
  | b =>
    let rw := (writeMasks b).1 &&& m
    let w1c := (writeMasks b).2 &&& m
    let old := s.reg off
    let rw := match b with
      | .faultQ _ 0x08 => if old.getLsbD 63 then rw &&& ~~~maskBits 48 5 else rw
      | _ => rw
    let new := (old &&& ~~~rw &&& ~~~(w1c &&& v)) ||| (v &&& rw)
    if !s.writeTaken b new then s
    else
      match b with
      | .scan d 0x00 =>
        (if new.getLsbD 63 && !old.getLsbD 63 then s.setDie d { s.die d with scanFc := none } else s).setReg off new
      | _ => s.setReg off new

/-! ## Reads -/

/-- The requests in flight under an entry (R347): those that have passed it and have had no reply. -/
def State.inFlight (s : State) (t : Tier) (inst label : Nat) : List Req :=
  s.reqs.filter (fun r => r.passed.contains (t.num, inst, label) && (t != .core || r.cid == inst))

/-- The tier instance a command block names: the CORE block's by the CID of its command. -/
def tierInstance (t : Tier) (number : Nat) (cmd : DWord) : Nat :=
  match t with
  | .core => bitsAt cmd.toNat 32 16
  | .remote => 1024 + number
  | _ => number

/-- The block of a tier command (R347): its base in node 6. -/
def tierBlock (t : Tier) (number : Nat) : Nat :=
  match t with
  | .core => 0x20000
  | .die => dieBlock number
  | .port => dieBlock (number / 3) + 0x10000 + 0x100 * (number % 3)
  | .remote => dieBlock (number / 3) + 0x20000 + 0x100 * (number % 3)

/-- The value a load of a register reads: a write-only field reads zero; INFL, WAITING and a core's marks are taken as they
stand (R347, R377). -/
def State.readReg (s : State) (off : Nat) : DWord :=
  match block6 off with
  | .tier t n 0x08 =>
    let cmd := s.reg (tierBlock t n)
    putField (s.reg off) 32 32 (s.inFlight t (tierInstance t n cmd) (bitsAt cmd.toNat 0 15)).length
  | .tier t n 0x48 => BitVec.ofNat 64 (if t == .core then
      (s.reqs.filter (fun r => match r.phase with
        | .held .core _ _ => true
        | _ => false)).length
      else s.waiting t (tierInstance t n 0))
  | .faultQ _ 0x28 => 0
  | .spad c =>
    let k := s.core c
    BitVec.ofNat 64 (k.corr % 2 ^ 32 + (match k.mark with
      | some b => 2 ^ 63 + b * 2 ^ 56
      | none => 0))
  | .none => 0
  | _ => s.reg off

/-! ## Writes with a behaviour -/

/-- The tier command of an OP code, as the step that carries it out (R348). -/
def tierMove (t : Tier) (number label op : Nat) : List Move :=
  let a := [t.num, number, label]
  match op with
  | 1 => [.event .hold a]
  | 2 => [.event .drain a]
  | 3 => [.event .shoot [t.num, number]]
  | 4 => [.event .write a]
  | 5 => [.event .release a]
  | 6 => [.event .force a]
  | 7 => [.event .inval a]
  | _ => []

/-- The bits of some bytes of a word. -/
def byteMask (mask : Nat) : DWord := BitVec.ofNat 64 (leNat ((List.range 8).map (fun i => if mask.testBit i then 255 else 0)))

/-- The steps that a write of a register by a core brings about (R312): the step of a register with a behaviour of its own, or the
plain write. `mask` names the bytes that the store carries. A field keeps its bits in the bytes that it does not carry, and a command is
given only by a store that carries its byte. PMMODE written with WSTART = 1 stores MTGT and begins the warm start alone (assumption 20). -/
def State.mmioMoves (s : State) (off v mask : Nat) : List Move :=
  let plain : List Move := [.event .registerWrite [off, v, mask]]
  let v := ((s.reg off &&& ~~~byteMask mask) ||| (BitVec.ofNat 64 v &&& byteMask mask)).toNat
  let low := mask % 16 != 0
  match block6 off with
  | .boot 0x1000 =>
    if !mask.testBit 0 then plain
    else plain ++ (if v.testBit 2 then [.event .warmStart [Config.pick s.turn 40 0, Config.pick s.turn 40 1]] else [.event .moduleState [v % 4]])
  | .boot 0x1008 =>
    plain ++ (if mask.testBit 2 then ((List.range 4).filter (fun d => v.testBit (16 + d))).map (fun d => Move.event .itripClear [d]) else [])
  | .boot 0x1010 => if low then [.event .pdie [v]] else []
  | .boot 0x1020 => if low then [.event .clgate [0, v]] else []
  | .boot 0x1028 => if low then [.event .clgate [1, v]] else []
  | .boot 0x1030 => if low then [.event .clgate [2, v]] else []
  | .boot 0x1038 => if low then [.event .clgate [3, v]] else []
  | .boot 0x1040 => if mask.testBit 0 && v.testBit 2 then [.event .dieReset [v % 4]] else plain
  | .queue q 0x10 => if low then [.event .queueDoorbell [q, v % 2 ^ 32]] else []
  | .queue q 0x28 => if mask.testBit 0 && v.testBit 1 then [.event .queueErrClear [q]] else []
  | .queue q 0x30 => if mask.testBit 0 then [.event .hostdone [q, v % 256]] else []
  | .tier t n 0x00 =>
    if mask.testBit 3 then tierMove t (if t == .core then bitsAt v 32 16 else n) (bitsAt v 0 15) (bitsAt v 28 4) else []
  | .faultQ q 0x30 =>
    let tag := (s.reg (faultBlock q + 0x28)).toNat
    if !mask.testBit 0 then []
    else
      (match v % 4 with
        | 1 => [.event .verdictRetry [q, tag]]
        | 2 => [.event .verdictFail [q, tag]]
        | _ => [])
  | .pclr d => [.event .pclr [d, bitsAt v 7 41]]
  | .span p => if mask.testBit 0 then [.event .spanPortEnable [p, v % 2]] else []
  | _ => plain

/-- A core's store of some bytes at a device register, which takes effect next and in order (R311). -/
def State.deviceStore (s : State) (off : Nat) (bs : List Byte) : State :=
  let has := fun (a : Nat) => decide (off ≤ a ∧ a < off + bs.length)
  let word := fun (w : Nat) => leNat ((List.range 8).map (fun i => if has (8 * w + i) then bs.getD (8 * w + i - off) 0 else 0))
  let mask := fun (w : Nat) => ((List.range 8).map (fun i => if has (8 * w + i) then 2 ^ i else 0)).foldl (· + ·) 0
  let ws := (List.range ((off + bs.length + 7) / 8 - off / 8)).map (· + off / 8)
  { s with agenda := ws.flatMap (fun w => s.mmioMoves (8 * w) (word w) (mask w)) ++ s.agenda }

/-- A core's load of some bytes of device registers. -/
def State.deviceLoad (s : State) (off n : Nat) : List Byte :=
  (List.range n).map (fun i => (leBytes 8 (s.readReg ((off + i) / 8 * 8)).toNat).getD ((off + i) % 8) 0)

end Sys2Proof.Machine
end

