-- ==== Sys2Proof/Machine/Requests.lean ====
section
/-! DEFINITION. Memory requests on their way: finding and finishing them, failures and their settlement (R98, R163, R366), the order
of strong accesses (R263, R264), logical counts of messages (R288), what a lane reads and writes at its landing. -/
namespace Sys2Proof.Machine
open Sys2Proof

/-- The request of this number. -/
def State.req? (s : State) (id : Nat) : Option Req := s.reqs.find? (fun r => r.id == id)

/-- Replaces the request of the same number. -/
def State.setReq (s : State) (r : Req) : State := { s with reqs := s.reqs.map (fun x => if x.id = r.id then r else x) }

/-- Has a Span egress accepted the request's store, which is then performed at every scope but pod (R287)? -/
def Req.accepted (r : Req) : Bool :=
  r.phase == .replied && r.left != 0 && r.scp < 6 && (match r.kind with
    | .store _ => true
    | _ => false)

/-- Is any request of an access still under way? -/
def State.accessLive (s : State) (gid acc : Nat) : Bool :=
  s.reqs.any (fun r => r.gid == gid && r.acc == acc && !r.kind.ofSlot && !r.accepted) ||
    s.spReqs.any (fun r => r.gid == gid && r.acc == acc)

/-- An access none of whose requests is under way is over: its counter falls in order (R38); a retired group releases its arrays
when its last operation retires (R89). -/
def State.settleAccess (s : State) (gid acc : Nat) : State :=
  if s.accessLive gid acc then s
  else
    match s.group? gid with
    | none => s
    | some g =>
      match g.access? acc with
      | none => s
      | some a =>
        let a := { a with done := true, log := if a.fail.isSome then a.log else none }
        -- A retired group reaches no covering wait: its errors are dropped (R89).
        let a := if g.live then a else { a with fail := none }
        s.setGroup (g.setAccess a).fall

/-- A request is over. -/
def State.finishReq (s : State) (r : Req) : State :=
  let s : State := { s with reqs := s.reqs.filter (fun (x : Req) => x.id != r.id) }
  s.settleAccess r.gid r.acc

/-- The request in whose name a merged one travels: the outermost merged request (R156). A switch makes no list longer than 16 entries. -/
def State.carrier (s : State) (r : Req) : Nat → Req
  | 0 => r
  | fuel + 1 =>
    match r.phase with
    | .merged x => (match (s.records.find? (fun y => y.id == x)).bind (fun y => s.req? y.merged) with
      | some m => State.carrier s m fuel
      | none => r)
    | _ => r

/-- Frees the log entry of an access whose every lookup has succeeded (R39). -/
def State.settleLog (s : State) (gid acc : Nat) : State :=
  if s.reqs.any (fun r => r.gid == gid && r.acc == acc && (s.carrier r 16).asking) then s
  else
    match s.group? gid with
    | none => s
    | some g =>
      match g.access? acc with
      | some a => if a.fail.isSome then s else s.setGroup (g.setAccess { a with log := none })
      | none => s

/-- The requests of cores that a request stands for, itself where it is one (R156). -/
def State.sourcesOf (s : State) (r : Req) : Nat → List Req
  | 0 => [r]
  | fuel + 1 =>
    if r.gid != 0 then [r]
    else ((s.records.filter (fun x => x.merged == r.id)).flatMap (·.contribs)).flatMap (fun c => match s.req? c.req with
      | some y => State.sourcesOf s y fuel
      | none => [])

/-- The log entries of all whom a request stands for settled, once it has landed. -/
def State.settleLogs (s : State) (r : Req) : State := (s.sourcesOf r 16).foldl (fun s x => s.settleLog x.gid x.acc) s

/-- An access whose request fails after its entry was freed takes an entry again while it is suspended, its own number if that is free
(R39). -/
def State.retakeLog (s : State) (r : Req) : State :=
  match s.group? r.gid with
  | none => s
  | some g =>
    match g.access? r.acc with
    | some a =>
      if a.log.isSome then s
      else
        let taken := (s.logUsed g.core (grpQuad g.grp)).contains r.log
        s.setGroup (g.setAccess { a with log := if taken then s.freeLog g else some r.log })
    | none => s

/-- An access ends in an error for some lanes; the first error settled is the one reported (assumption 14). -/
def State.failAccess (s : State) (gid acc : Nat) (f : Failure) : State :=
  match s.group? gid with
  | none => s
  | some g =>
    match g.access? acc with
    | none => s
    | some a =>
      s.setGroup (g.setAccess { a with fail := some (match a.fail with
        | some e => { e with lanes := e.lanes ||| f.lanes }
        | none => f) })

/-- The tag of a request (R365). -/
def Req.tag (r : Req) (grp : Nat) : DWord := requestTag r.core grp r.log (lowestLane (lanesMask r.lanes)) r.seq.toNat

/-- The tag of a request, by the group that made it. -/
def State.tagOf (s : State) (r : Req) : DWord :=
  r.tag (match s.group? r.gid with
    | some g => g.grp
    | none => 0)

/-- The error of a settled request (R98). -/
def State.errorOf (s : State) (r : Req) (f : LookFail) : Failure :=
  { lanes := r.left, tier := f.tier, label := f.label, reason := f.reason, tag := s.tagOf r, lost := false }

/-- The trap of a slot whose own lookup has failed for good (R334, R366). While the other slot is in trap mode the slot keeps the verdict
and takes no trap (R96). -/
def State.failSlot (s : State) (g : Group) (r : Req) (e : Failure) : State :=
  let n := if r.acc = 0 then SlotName.a else .b
  if (g.slot n.other).trap.isSome then s.setReq { r with phase := .kept false e }
  else
    { s with reqs := s.reqs.filter (fun x => x.id != r.id) }.trap g n causeTierFault
      (tierEfault e.tier e.label e.reason (g.slot n).pc) e.lanes e.tag

/-- Settles a request with its error: an access of a group, a slot's own lookup, which traps (R334, R366). A multicast line settles as an
access (R163, R201). -/
def State.settleFail (s : State) (r : Req) (e : Failure) : State :=
  match r.kind, s.group? r.gid with
  | .fetch, some g => s.failSlot g r e
  | .word _, some g => s.failSlot g r e
  | _, _ => (s.failAccess r.gid r.acc e).finishReq r

/-- The slot takes a verdict that it kept while the other slot was in trap mode (R96). -/
def State.lateVerdict (s : State) (g : Group) (n : SlotName) : Option State :=
  if (g.slot n.other).trap.isSome || g.life != .resident then none
  else
    (s.reqs.find? (fun r => r.gid == g.id && r.acc == (if n = .a then 0 else 1) && r.kind.ofSlot && (match r.phase with
      | .kept false _ => true
      | _ => false))).bind (fun r => match r.phase with
      | .kept false e => some (s.settleFail r e)
      | _ => none)

/-- The requests that a merged request stands for, those of cores alone, with the merged ones and their records gone (R156). -/
def State.unmerge (s : State) (id : Nat) : Nat → State × List Req
  | 0 => (s, [])
  | fuel + 1 =>
    match s.records.find? (fun x => x.merged == id) with
    | none => (s, [])
    | some x =>
      let s : State := { s with records := s.records.filter (fun (y : Record) => y.id != x.id),
                                reqs := s.reqs.filter (fun (r : Req) => r.id != id) }
      x.contribs.foldl (fun a c => match a.1.req? c.req with
        | none => a
        | some r => if r.gid = 0 then
            let (s, rs) := State.unmerge a.1 r.id fuel
            (s, a.2 ++ rs)
          else (a.1, a.2 ++ [r])) (s, [])

/-- Is a part of the same request, which left the core as one, suspended with this failure already: their one tag has one record (R365)? -/
def State.sameFault (s : State) (r : Req) (f : LookFail) : Option (Option Nat) :=
  s.reqs.findSome? (fun x => match x.phase with
    | .suspended e fq _ => if x.id ≠ r.id ∧ x.gid = r.gid ∧ x.acc = r.acc ∧ x.seq = r.seq ∧ e.tier = f.tier ∧ e.label = f.label ∧
        e.reason = f.reason then some fq else none
    | _ => none)

/-- A lookup of one request failed: the record goes to the tier's owner and the request is suspended; a record that is dropped settles
it (R10, R361, R366). A prefetch is dropped (R151). -/
def State.suspendOne (s : State) (r : Req) (f : LookFail) : State :=
  let (s, fq) := match s.sameFault r f with
    | some fq => (s, fq)
    | none => (s.foldCount r.core).reportFailure f (s.tagOf r) r.need r.cid (coreDie r.core)
  let e := s.errorOf r f
  match r.kind, fq with
  | .prf, _ => s.finishReq r
  | _, none => s.settleFail r e
  | _, some _ => (s.retakeLog r).setReq { r with phase := .suspended e fq s.fc }

/-- A lookup failed. When a tier refuses a combined request, every contributor receives the fault and no addition takes effect
(R156). -/
def State.suspend (s : State) (r : Req) (f : LookFail) : State :=
  if r.gid = 0 then
    let (s, rs) := s.unmerge r.id 16
    rs.foldl (fun s r => s.suspendOne r f) s
  else s.suspendOne r f

/-! ## Logical counts -/

/-- A message from a core to the units of a die; those of its own die learn its count as it stands. -/
def State.countToDie (s : State) (core d : Nat) : State :=
  if coreDie core = d then s.foldCount core else s.setDie d { s.die d with lclk := mergeCount (s.die d).lclk (s.core core).lclk }

/-- A reply to a core from another die's units, or from a far module, whose count is free. -/
def State.countFrom (s : State) (core line : Nat) : State :=
  let c := s.core core
  match remoteOf (128 * line), homeOf line with
  | some m, _ => s.setCore core { c with lclk := mergeCount c.lclk (Config.freeWord s.turn (200000 + m)) }
  | none, some h => if h = coreDie core then s else s.setCore core { c with lclk := mergeCount c.lclk (s.die h).lclk }
  | none, none => s

/-! ## Order -/

/-- Do two requests of one group touch one 16-byte granule, or may they: one that has not landed is judged by its offset in the
page, which every tier keeps (R142)? -/
def mayShare (a b : Req) : Bool :=
  let landed := fun (r : Req) => match r.phase with
    | .ready => true
    | .missing => true
    | .ingress _ => true
    | .replied => true
    | _ => false
  let grans := fun (r : Req) => (r.lanes.filter (fun o => laneIn r.left o.lane)).map (fun o => o.addr % 4096 / 16)
  (!(landed a && landed b) || a.line == b.line) && (grans a).any (fun x => (grans b).contains x)

/-- Is a request a load of any kind, whose value is not fixed while it has lanes left? -/
def ReqKind.reads : ReqKind → Bool
  | .load _ _ => true
  | .atom _ _ => true
  | _ => false

/-- Has a group a load issued before a turn whose value is not fixed (R265, R266)? -/
def State.loadsBefore (s : State) (gid turn : Nat) : Bool :=
  s.reqs.any (fun x => x.gid == gid && decide (x.turn < turn) && x.left != 0 && x.kind.reads) ||
    s.spReqs.any (fun x => x.gid == gid && decide (x.turn < turn) && x.left != 0 && x.kind.reads)

/-- Does a store that a Span egress has accepted, and that a group made or has acquired since, still have to be written at its home to the
line of an address (R287, R291, R292)? -/
def State.egressOn (s : State) (gid a : Nat) : Bool :=
  s.reqs.any (fun x => x.inEgress && x.line == lineOf a && (x.gid == gid || x.carriers.contains gid))

/-- Does a store that a Span egress has accepted go before an access of a group to its granule: a strong one, or one of a group that made
it or has acquired since (R270, R287)? -/
def State.egressFirst (s : State) (r : Req) : Bool :=
  s.reqs.any (fun x => x.id != r.id && x.inEgress && mayShare x r &&
    (x.gid == r.gid && decide (x.turn < r.turn) || x.gid != r.gid && (strong r.ord || x.carriers.contains r.gid)))

/-- May a request be performed as far as older accesses go: strong accesses of its group to one granule in program order (R263, R264), no
store that an egress accepted and its home has not written (R270, R287), and for what follows a release action the loads before it (R266)?
-/
def State.inOrder (s : State) (r : Req) : Bool :=
  !s.reqs.any (fun x => x.gid == r.gid && x.id != r.id && decide (x.turn < r.turn) && x.left != 0 && mayShare x r &&
    strong x.ord && strong r.ord) && !s.egressFirst r && (s.sourcesOf r 16).all (fun y => y.behind == 0 || !s.loadsBefore y.gid y.behind)

/-- Do two lanes' bytes overlap? -/
def overlap (size : Nat) (a b : LaneOp) : Bool := decide (a.addr < b.addr + size) && decide (b.addr < a.addr + size)

/-- The size of a request's lane accesses in bytes. -/
def ReqKind.size : ReqKind → Nat
  | .load n _ => n
  | .store n => n
  | .atom _ n => n
  | .red _ n => n
  | .upd tag => updWidth tag / 8
  | .word n => n
  | _ => 1

/-- A set of lanes to perform: some of those left, those that share bytes together: they share one outcome, the additions and other atomics
at one address are one sequence, and what they write falls in lane order (R147, R154, R163, R256). -/
def laneChoice (share : LaneOp → LaneOp → Bool) (lanes : List LaneOp) (left pick : Mask) : Bool :=
  pick != 0 && (pick &&& ~~~left) == 0 && lanes.all (fun a => !laneIn pick a.lane || lanes.all (fun b =>
    !laneIn left b.lane || laneIn pick b.lane || !share a b))

/-! ## At the landing -/

/-- The physical address of a lane (R245). -/
def Req.place (r : Req) (o : LaneOp) : Nat := 128 * r.line + o.addr % 128

/-- Does the request land on a device register (R311, R352)? -/
def Req.device (r : Req) : Bool := decide (128 * r.line < 2 ^ 48) && paNode (128 * r.line) == 6

/-- Does it land on another module? -/
def Req.remote (r : Req) : Bool := (remoteOf (128 * r.line)).isSome

/-- The die whose caches serve a landing: the requester's for COH and ROS, the home for URM and windows (R249, R284). -/
def Req.servedOn (r : Req) : Nat := if r.mode == .urm then (homeOf r.line).getD (coreDie r.core) else coreDie r.core

/-- The L1 line of a request's name. -/
def State.l1Of (s : State) (r : Req) : Option L1Line := s.l1Find (s.l1For r.core r.off0) r.cid r.k0 r.off0

/-- The core whose L1 the request uses. -/
def State.l1CoreOf (s : State) (r : Req) : Nat := s.l1For r.core r.off0

/-- A line under CH 3: sectors with dirty bytes from the L1, every other from below (R274). -/
def State.sectorsOf (s : State) (die line : Nat) (l : Option L1Line) : List Byte :=
  let b := s.below die line
  match l with
  | none => b
  | some x =>
    let top := s.served x
    (List.range 128).map (fun i => if x.dirty.any (fun e => e.1 / 32 == i / 32) then top.getD i 0 else b.getD i 0)

/-- The 128 bytes a load reads. -/
def State.lineFor (s : State) (r : Req) : List Byte :=
  match s.l1Of r with
  | some l => if r.noL1 then s.sectorsOf r.servedOn r.line (some l) else s.served l
  | none => s.below r.servedOn r.line

/-- May a die keep a line: its own, one without a directory, or one its home records for it (R282)? -/
def State.mayCache (s : State) (mode : Mode) (die line : Nat) : Bool :=
  mode != .coh || (match homeOf line with
    | none => true
    | some h => die == h || (match s.regionOf h line with
        | some r => r.holders.contains die
        | none => false))

/-- A read at home ends a grant alone to another die (R282). -/
def State.noteShared (s : State) (mode : Mode) (die line : Nat) : State :=
  match homeOf line with
  | none => s
  | some h => if mode == .coh && die == h then
      { s with regions := s.regions.map (fun r =>
          if r.die = h ∧ r.base ≤ 128 * line ∧ 128 * line < r.base + 2 ^ r.log then { r with alone := false } else r) }
    else s

/-- The tokens of a line that the L1s of a die hold (R277). -/
def State.tokensOut (s : State) (die line : Nat) : Nat :=
  ((s.l1.filter (fun l => coreDie l.core == die && l.line == line)).map (·.tokens)).foldl (· + ·) 0

/-- Is no persistent request of another core active for a line (R278)? -/
def State.tokensFree (s : State) (core line : Nat) : Bool :=
  match s.persistent.find? (fun p => p.2 == line) with
  | some p => p.1 == core
  | none => true

/-- Sectors that a fill brings into an L1 line: they hold what stands below, under an invalidation that was on its way before too (R246,
R274). -/
def State.addSectors (s : State) (l : L1Line) (m : BitVec 4) : L1Line :=
  let bs := s.below (coreDie l.core) l.line
  let new := m &&& ~~~l.sectors
  { l with
    sectors := l.sectors ||| m
    old := l.old.map (fun o => (List.range 128).map (fun i => if new.getLsbD (i / 32) then bs.getD i 0 else o.getD i 0)) }

/-- Fills the sectors of a request's lanes into its L1 (R246), under one name for the die (R247). A hit keeps what the fill was granted; a
line of that name that another lookup has landed elsewhere leaves first. -/
def State.fillL1 (s : State) (r : Req) : State :=
  let die := coreDie r.core
  let m := laneSectors r.lanes
  if r.noL1 || !s.mayCache r.mode die r.line then s
  else
    let s := match s.l1Of r with
      | some l => if l.line = r.line then s else s.evictL1 l
      | none => s
    match s.l1Of r with
    | some l => s.putL1 { s.addSectors l m with rights := r.rights, mode := r.mode, ch := r.ch }
    | none =>
      let s := s.dropSynonyms die r.line r.cid r.k0 r.off0
      let core := s.l1CoreOf r
      let s := (s.replaceOne core r.off0).noteShared r.mode die r.line
      s.putL1 { core := core, cid := r.cid, k := r.k0, off := r.off0, line := r.line, rights := r.rights, mode := r.mode,
                tokens := if s.tokensOut die r.line < 256 && s.tokensFree core r.line then 1 else 0, dirty := [], writers := [], old := none,
                pending := false, fc := s.fc, ch := r.ch, sectors := m }

/-- A line that turned out poisoned: POISON at the landing tier (R245, R257). -/
def Req.poisonFail (r : Req) : LookFail :=
  let last := r.passed.getLastD (0, 0, 0)
  { tier := last.1, label := last.2.2, reason := 10, page := true, k := r.k, inst := last.2.1, off := r.off, w5 := 0, gen := 0,
    malformed := false, w7 := 0 }

/-- Is the request's line poisoned (R257)? -/
def State.poisonedFor (s : State) (r : Req) : Bool := s.poison.contains r.line

/-- The lane operations of a request that a set of lanes picks, in lane order. -/
def pickedLanes (lanes : List LaneOp) (pick : Mask) : List LaneOp := lanes.filter (fun o => laneIn pick o.lane)

/-- Writes a lane's result to its cells: the low part first (R147). A group that no longer runs takes none. -/
def writeLane (g : Group) (turn since : Nat) (o : LaneOp) (v : Nat) : Group :=
  if !g.live then g
  else
    match o.cells with
    | [.s r] => g.deliver turn since (.s r) (BitVec.ofNat 64 v)
    | cells => (List.range cells.length).foldl (fun g i =>
        g.deliver turn since (cells.getD i (.v 0 0)) (BitVec.ofNat 64 (v / 2 ^ (32 * i) % 2 ^ 32))) g

/-- The value a load delivers from its bytes (R147, R148): extended to the lane, or to 64 bits for an S register. -/
def loadValue (size : Nat) (sext : Bool) (cells : List Cell) (bs : List Byte) : Nat :=
  let w := match cells with
    | [.s _] => 64
    | _ => 32 * cells.length
  modBits w (readInt (8 * size) sext (leNat bs))

/-- Delivers results to a group's lanes (R26, R147). -/
def State.deliverLanes (s : State) (gid since : Nat) (rs : List (LaneOp × Nat)) : State :=
  match s.group? gid with
  | none => s
  | some g => s.setGroup (rs.foldl (fun g r => writeLane g s.turn since r.1 r.2) g)

/-- The acquire side of an access that has written its result (R265, R274). -/
def State.acquired (s : State) (gid ord : Nat) : State :=
  if ord == 2 || ord == 4 || ord == 5 then
    match s.group? gid with
    | some g => s.acquireAt g
    | none => s
  else s

/-- After some lanes are performed: the rest stay, or the request is over. -/
def State.lanesDone (s : State) (r : Req) (pick : Mask) : State :=
  let r := { r with left := r.left &&& ~~~pick }
  if r.left = 0 then s.finishReq r else s.setReq r

end Sys2Proof.Machine
end

