-- ==== Sys2Proof/Machine/Pool.lean ====
section
/-! DEFINITION. What a pool appliance does with the requests that land on it (R383 to R388): its flash tier, its record of use, the
versioned regions. -/
namespace Sys2Proof.Machine
open Sys2Proof

/-- Replaces a far module. -/
def State.setRemote (s : State) (r : Remote) : State :=
  { s with remotes := s.remotes.map (fun x => if x.id = r.id then r else x) }

/-- The 64 KiB block of an address of a far module, within it. -/
def flashBlock (a : Nat) : Nat := a % 2 ^ 48 / 65536

/-- May what lands at an address be served now: a landing on an appliance waits until its block is in DRAM (R384), and a far module
that is dead serves nothing (R389)? -/
def State.servableAt (s : State) (a : Nat) : Bool :=
  match remoteOf a with
  | none => true
  | some m => (match s.remote? m with
    | some x => !x.dead && !(x.pool && x.flash.contains (flashBlock a))
    | none => false)

/-- The same of a landed request. -/
def State.servable (s : State) (r : Req) : Bool := s.servableAt (128 * r.line)

/-- An access at an appliance makes its block the most recently used, under the hint of its CH field (R149, R384). -/
def State.touchHint (s : State) (a ch : Nat) : State :=
  match (remoteOf a).bind s.remote? with
  | some x => if x.pool then s.setRemote { x with accessed := (flashBlock a, ch) :: x.accessed.filter (fun e => e.1 != flashBlock a) } else s
  | none => s

/-- The same of a unit's access, which carries no hint. -/
def State.touchAt (s : State) (a : Nat) : State := s.touchHint a 0

/-- The same of a landed request. -/
def State.touchRemote (s : State) (r : Req) : State := s.touchHint (128 * r.line) r.ch

/-- The versioned region whose version word is at an address (R385). -/
def State.versionWord (s : State) (a : Nat) : Option Remote :=
  (remoteOf a).bind (fun m => (s.remote? m).bind (fun x =>
    if x.pool && x.regions.any (fun e => remoteBase m + e.1 == a) then some x else none))

/-- The conditions of R386 on a new version word: the next version number, an extent in staging, no pins in its slot. -/
def State.versionOk (s : State) (x : Remote) (a old new : Nat) : Bool :=
  let ver := new % 2 ^ 32
  ver == (old % 2 ^ 32 + 1) % 2 ^ 32 && x.staging.contains (new / 2 ^ 32) &&
    s.loadN (a + 8 * (1 + ver % 16)) 8 % 2 ^ 32 == 0

/-- Remaps an extent of the appliance to ROS: the entry of this module's table that lands it, its extent id being the label
(assumption 6), keeps everything but its MODE, and its GEN advances (R350, R357, R386). -/
def State.remapRos (s : State) (m label : Nat) : State :=
  let e := s.entryInMem .remote m label
  let w0 := (putField (putField (BitVec.ofNat 64 e.w0) 9 2 2) 37 27 (e.gen + 1)).toNat
  (s.storeN (s.entryAddr .remote m label) 8 w0).dropCached .remote m label

/-- The successful compare-and-set of a version word (R386). -/
def State.publishVersion (s : State) (x : Remote) (a new : Nat) : State :=
  let ver := new % 2 ^ 32
  let s := s.remapRos x.id (new / 2 ^ 32)
  let s := s.setRemote { x with staging := x.staging.filter (· != new / 2 ^ 32) }
  (s.storeN (a + 8 * (1 + ver % 16)) 8 (ver * 2 ^ 32)).storeN a 8 new

end Sys2Proof.Machine
end

