-- ==== Sys2Proof/Machine/Engine.lean ====
section
/-! DEFINITION. What a copy engine does with one element: the layout record (R188), the checks of a slice (R189, R192), the place of
an element on both sides (R191), its read or write (R291), and the writes of a source that leave a copy undefined (R191). -/
namespace Sys2Proof.Machine
open Sys2Proof

/-! ## Layout records -/

/-- The size in bytes of an element type (R57). -/
def elemBytes (t : Nat) : Nat :=
  if t = 7 ∨ t = 8 ∨ t = 13 ∨ t = 14 then 1
  else if t = 5 ∨ t = 6 ∨ t = 11 ∨ t = 12 then 2
  else if t = 3 ∨ t = 4 ∨ t = 10 ∨ t = 20 then 8
  else if t = 21 then 16
  else 4

/-- A word of a slice's record. -/
def Slice.word (x : Slice) (i : Nat) : Nat := (x.record.getD i 0).toNat

/-- TYPE (R188). -/
def Slice.type (x : Slice) : Nat := bitsAt (x.word 0) 0 5
/-- RANK. -/
def Slice.rank (x : Slice) : Nat := bitsAt (x.word 0) 5 3
/-- SWZ. -/
def Slice.swz (x : Slice) : Nat := bitsAt (x.word 0) 8 2
/-- OOB. -/
def Slice.oob (x : Slice) : Nat := bitsAt (x.word 0) 10 2
/-- The size of an element. -/
def Slice.size (x : Slice) : Nat := elemBytes x.type
/-- STRIDE of dimension `i`; dimension 0 is contiguous. -/
def Slice.stride (x : Slice) (i : Nat) : Nat := if i = 0 then x.size else bitsAt (x.word (1 + i)) 0 48
/-- The box sizes of the dimensions, dimension 0 first. -/
def Slice.boxes (x : Slice) : List Nat := (List.range x.rank).map (fun i => bitsAt (x.word 6) (12 * i) 12 + 1)

/-- Is the record bad (R188)? Fields of dimensions at or above RANK must be zero. -/
def Slice.recordBad (x : Slice) : Bool :=
  bitsAt (x.word 0) 12 52 != 0 || x.oob == 3 || x.rank == 0 || decide (5 < x.rank) || x.type == 15 || decide (21 < x.type) ||
    (List.range 4).any (fun i => bitsAt (x.word (2 + i)) 48 16 != 0 || x.stride (1 + i) % x.size != 0 ||
      (decide (x.rank ≤ 1 + i) && (x.stride (1 + i) != 0 || bitsAt (x.word 6) (12 * (1 + i)) 12 != 0))) ||
    bitsAt (x.word 6) 60 4 != 0 || x.word 7 != 0 || decide (2 ^ 24 < x.boxes.foldl (· * ·) 1)

/-! ## Slices -/

/-- The offset of a slice's layout record (R189). -/
def Slice.recordOff (x : Slice) : Nat := bitsAt (x.regs.getD 1 0).toNat 0 48

/-- Is the slice empty (R190)? -/
def Slice.empty (x : Slice) : Bool := x.rows == 0

/-- The elements of one box row: those of the dimensions below the outermost. -/
def Slice.rowElems (x : Slice) : Nat := (x.boxes.take (x.rank - 1)).foldl (· * ·) 1

/-- The elements of a slice: rows beyond the box are dropped (R190). -/
def Slice.count (x : Slice) : Nat :=
  if x.empty then 0 else (min (x.first + x.rows) (x.boxes.getD (x.rank - 1) 1) - x.first) * x.rowElems

/-- Does a slice's descriptor, or its record, break R188 or R189: reason RECORD? -/
def Slice.bad (x : Slice) : Bool :=
  x.recordOff % 64 != 0 || x.recordBad || decide (x.regs.length ≤ 1 + x.rank) || bitsAt x.spad.toNat 22 42 != 0 ||
    x.spad.toNat % (if x.swz = 0 then x.size else 128) != 0

/-- The first byte beyond the scratchpad places of a slice's elements. The swizzle moves 16-byte granules within 128 bytes, so only
those of the last 128 bytes count. -/
def Slice.spadEnd (x : Slice) : Nat :=
  let stop := x.size * (x.first * x.rowElems + x.count)
  let ends := (List.range 8).map (fun i =>
    let o := (stop - 1) / 128 * 128 + 16 * i
    if o < stop then swizzle x.swz o + min 16 (stop - o) else 0)
  if x.count = 0 then 0 else x.spad.toNat + ends.foldl max 0

/-- The coordinates within the box of the `l`-th place in dense box order. -/
def boxIndex : List Nat → Nat → List Nat
  | [], _ => []
  | b :: rest, l => l % b :: boxIndex rest (l / b)

/-- An element's coordinates in the tensor: origins are s32 (R189, R191). -/
def Slice.coords (x : Slice) (i : Nat) : List Int :=
  let at_ := boxIndex x.boxes (x.first * x.rowElems + i)
  (List.range x.rank).map (fun d => readInt 32 true (bitsAt (x.regs.getD (2 + d) 0).toNat 32 32) + (at_.getD d 0 : Nat))

/-- Is element `i` of a slice inbox (R191)? -/
def Slice.inbox (x : Slice) (i : Nat) : Bool :=
  let c := x.coords i
  (List.range x.rank).all (fun d => 0 ≤ c.getD d 0 && decide (c.getD d 0 < (bitsAt (x.regs.getD (2 + d) 0).toNat 0 32 : Nat)))

/-- gaddr of R191. -/
def Slice.gaddr (x : Slice) (i : Nat) : Nat :=
  let c := x.coords i
  let base : Int := ((bitsAt (x.regs.getD 0 0).toNat 0 48 : Nat) : Int)
  modBits 48 ((List.range x.rank).foldl (fun a d => a + (x.stride d : Nat) * c.getD d 0) base)

/-- saddr of R191. -/
def Slice.saddr (x : Slice) (i : Nat) : Nat := x.spad.toNat + swizzle x.swz (x.size * (x.first * x.rowElems + i))

/-- The fill of an element (R188). -/
def Slice.fill (x : Slice) : List Byte := (leBytes 8 (x.word 1) ++ leBytes 8 (x.word 1)).take x.size

/-- The slice and the place in it of a progress index (R192). -/
def locate : List Slice → Nat → Option (Slice × Nat)
  | [], _ => none
  | x :: rest, p => if p < x.count then some (x, p) else locate rest (p - x.count)

/-! ## The global side -/

/-- What an engine's lookups of the bytes of an element find. -/
inductive Reached where
  | lands (ls : List (Landing × Nat))
  | waits
  | failed (f : LookFail)
  deriving DecidableEq, Repr

/-- A run of bytes cut at the boundary of 128 B lines; no element is longer than a line. -/
def linePieces (a n : Nat) : List (Nat × Nat) :=
  let m := 128 - a % 128
  if n ≤ m then [(a, n)] else [(a, m), (a + m, n - m)]

/-- The lookups of an element's bytes: all of them, before memory changes (R164). -/
def State.reach (s : State) (cid core : Nat) (k : DWord) (need : BitVec 5) : List (Nat × Nat) → State × Reached
  | [] => (s, .lands [])
  | (a, n) :: rest =>
    match s.resolve cid core (coreDie core) k a need with
    | (s, .failed f) => (s, .failed f)
    | (s, .lands l) =>
      if !s.servableAt l.addr then (s, .waits)
      else
        (match State.reach s cid core k need rest with
          | (s, .lands ls) => (s, .lands ((l, n) :: ls))
          | other => other)
    | (s, _) => (s, .waits)

/-- The die whose caches serve an engine's access at a landing (R249, R284). -/
def Landing.servedOn (l : Landing) (die : Nat) : Nat := if l.mode == .urm then (homeOf (lineOf l.addr)).getD die else die

/-- An engine's weak load of landed bytes: an OPEN line closes (R191). -/
def State.engineGet (s : State) (die : Nat) : List (Landing × Nat) → State × List Byte
  | [] => (s, [])
  | (l, n) :: rest =>
    let s := (s.closeLine (lineOf l.addr)).touchAt l.addr
    let bs := if l.device then s.deviceLoad (l.addr % 2 ^ 45) n
      else ((s.below (l.servedOn die) (lineOf l.addr)).drop (l.addr % 128)).take n
    let (s, more) := State.engineGet s die rest
    (s, bs ++ more)

/-- An engine's weak store of landed bytes: an OPEN line closes, the die holds a COH line alone (R191, R282). `by_` is the request. -/
def State.enginePut (s : State) (die by_ : Nat) : List (Landing × Nat) → List Byte → State
  | [], _ => s
  | (l, n) :: rest, bs =>
    let line := lineOf l.addr
    let s := (s.closeLine line).touchAt l.addr
    let s := if l.device then s.deviceStore (l.addr % 2 ^ 45) (bs.take n)
      else (s.ensureAlone l.mode die line).publish (l.servedOn die) none line (l.addr % 128) (bs.take n) [by_]
    State.enginePut s die by_ rest (bs.drop n)

/-! ## Racing writes of a source -/

/-- A run of undefined bytes (R191). -/
def freeBytes (turn place n : Nat) : List Byte :=
  ((leBytes 8 (Config.freeWord turn (2 * place)).toNat) ++ leBytes 8 (Config.freeWord turn (2 * place + 1)).toNat).take n

/-- The physical places of an element's source: the core for a scratchpad, and runs of bytes. -/
def State.sourceOf (s : State) (x : Slice) (i : Nat) : List (Option Nat × Nat × Nat) :=
  match s.group? x.gid with
  | none => []
  | some g =>
    if x.store then [(some g.core, (s.allot g.core g.block).1 + x.saddr i, x.size)]
    else
      match s.reach g.cid g.core x.k rightR (linePieces (x.gaddr i) x.size) with
      | (_, .lands ls) => ls.map (fun e => (none, e.1.addr, e.2))
      | _ => []

/-- Has the slice's group written the element's source since it issued its CPY? -/
def State.sourceRaced (s : State) (r : CopyReq) (x : Slice) (i : Nat) : Bool :=
  let mine := r.raced.filter (fun e => e.1 == x.gid)
  !mine.isEmpty && (s.sourceOf x i).any (fun p => mine.any (fun e =>
    e.2.1 == p.1 && decide (e.2.2.1 < p.2.1 + p.2.2) && decide (p.2.1 < e.2.2.1 + e.2.2.2)))

/-- Puts an element's bytes at its destination: the scratchpad for a load; for a store, where its lookups land. -/
def State.putElem (s : State) (r : CopyReq) (x : Slice) (i : Nat) (bs : List Byte) : State :=
  match s.group? x.gid with
  | none => s
  | some g =>
    if !x.store then s.spWrite g.core g.block (x.saddr i) bs
    else
      match s.reach g.cid g.core x.k rightW (linePieces (x.gaddr i) x.size) with
      | (s, .lands ls) => s.enginePut (coreDie g.core) r.id ls bs
      | _ => s

/-- Has the batch of a group that holds this request still to finish: the open one, or one sealed and unfinished (R193)? -/
def State.batchPending (s : State) (gid id : Nat) : Bool :=
  match s.group? gid with
  | none => false
  | some g => g.openBatch.contains id || (s.unfinished g).any (fun b => b.requests.contains id)

/-- A group's write of bytes after it issued a CPY that reads them and before the batch of that CPY has finished: the elements copied from
those bytes are undefined, those already written and those still to come (R191). `core` is none for memory. -/
def State.raceCopies (s : State) (gid : Nat) (core : Option Nat) (a n : Nat) : State :=
  let hit := s.copyReqs.filter (fun r => r.slices.any (fun x => x.gid == gid && !x.empty) && s.batchPending gid r.id)
  hit.foldl (fun s r =>
    let r := { r with raced := (gid, core, a, n) :: r.raced }
    let old : CopyReq := { r with raced := [(gid, core, a, n)] }
    let s := s.setCopyReq r
    (List.range r.progress).foldl (fun s p => match locate r.slices p with
      | some (x, i) => if x.gid == gid && x.inbox i && s.sourceRaced old x i then
          s.putElem r x i (freeBytes s.turn (300000 + p) x.size)
        else s
      | none => s) s) s

end Sys2Proof.Machine
end

