-- ==== Sys2Proof/Machine/MemEvents.lean ====
section
/-! DEFINITION. The events of a memory request: its lookups (R245), the fill of its line (R249), loads and stores at their landing
(R147, R265, R277, R283, R284, R287), scratchpad accesses at their banks (R251 to R254, R273), atomics at their home (R155, R386),
update-only writes (R159), replies. Events that name lanes take them as a set of bits. -/
namespace Sys2Proof.Machine
open Sys2Proof

/-! ## Lookups -/

/-- Is a C-die in the part of a commanded reset during which requests to it wait at their egress (R374)? -/
def State.dieHeld (s : State) (d : Nat) : Bool :=
  match s.dieReset with
  | some x => x.die == d && x.evacuated
  | none => false

/-- The die whose units answer at a tier instance. -/
def tierDie (t : Tier) (inst : Nat) : Option Nat :=
  match t with
  | .die => some inst
  | .port => some (inst / 3)
  | _ => none

/-- Is a landing one that an L1 never holds: URM or ROS on another die, a die window, another module, a device (R246)? -/
def neverInL1 (l : Landing) (die : Nat) : Bool :=
  decide (2 ^ 48 ≤ l.addr) || l.device || (l.mode != .coh && homeOf (lineOf l.addr) != some die)

/-- The die whose slice the request goes to at its landing: the home for what is performed there, the die that serves it for the
rest (R155, R249, R292). -/
def Req.sliceDie (r : Req) : Nat :=
  match r.kind with
  | .load _ _ => r.servedOn
  | .store _ => r.servedOn
  | .prf => r.servedOn
  | _ => (homeOf r.line).getD (coreDie r.core)

/-- Does a slice of a die hold these sectors of a line (R249)? -/
def State.sliceHolds (s : State) (die line : Nat) (m : BitVec 4) : Bool :=
  s.l2.any (fun x => x.die == die && x.line == line && sectorsIn m x.sectors)

/-- The lines whose miss is in flight at the slice of a line on a die, each once: one miss-status register each (R249). -/
def State.missing (s : State) (die line : Nat) : List Nat :=
  ((s.reqs.filter (fun x => x.phase == .missing && x.sliceDie == die && sliceOf x.line % 32 == sliceOf line % 32)).map (·.line)).eraseDups

/-- A request at the slice of its line (R249): the slice holds its sectors; or it joins the list of a miss in flight, or takes one of 256
miss-status registers; or it waits in the ingress queue. `order` is its place there. -/
def State.atSlice (s : State) (r : Req) (order : Nat) : State :=
  let die := r.sliceDie
  let lines := s.missing die r.line
  s.setReq { r with
    list := if s.sliceHolds die r.line (laneSectors r.lanes) then 0 else order
    phase := if s.sliceHolds die r.line (laneSectors r.lanes) then .ready
      else if lines.contains r.line || decide (lines.length < 256) then .missing
      else .ingress order }

/-- A request has landed: a device, another module or a window answers it, a line of the module its slice (R249). -/
def State.landReq (s : State) (r : Req) (l : Landing) : State :=
  let r := { r with line := lineOf l.addr, mode := l.mode, rights := l.rights, noL1 := r.noL1 || neverInL1 l (coreDie r.core) }
  match homeOf r.line with
  | some d =>
    if s.dieHeld d then s.setReq { r with phase := .egress s.fc }
    else
      let s := s.countToDie r.core d
      (if l.device then s.setReq { r with phase := .ready } else s.atSlice r s.turn).settleLogs r
  | none => (s.setReq { r with phase := .ready }).settleLogs r

/-- The lanes of a request left at each address, in the order of their first lanes. -/
def Req.byAddress (r : Req) : List Mask :=
  let os := r.lanes.filter (fun o => laneIn r.left o.lane)
  ((os.map (·.addr)).eraseDups).map (fun a => lanesMask (os.filter (fun o => o.addr == a)))

/-- An integer addition leaves its core as one request for each address that its lanes name (R23, R156); the parts keep the tag of the one
request that the core made (R365). -/
def State.splitParts (s : State) (id : Nat) : State :=
  match s.req? id with
  | none => s
  | some r =>
    match r.kind, r.byAddress with
    | .atom .add _, m :: rest =>
      rest.foldl (fun s p => let (id, s) := s.fresh; { s with reqs := s.reqs ++ [{ r with id := id, left := p }] }) (s.setReq { r with left := m })
    | .red .add _, m :: rest =>
      rest.foldl (fun s p => let (id, s) := s.fresh; { s with reqs := s.reqs ++ [{ r with id := id, left := p }] }) (s.setReq { r with left := m })
    | _, _ => s

/-- What a tier's answer does to a request (R245); `order` is its place among those that wait at the instance. -/
def State.afterLookup (s : State) (r : Req) (t : Tier) (inst order : Nat) (w : Looked) : State :=
  match w with
  | .failed f => s.suspend r f
  | .waits => s.setReq { r with phase := .held t inst order }
  | .onward k off rights t' inst' =>
    let r := { r with k := k, off := off, rights := rights, passed := r.passed ++ [(t.num, inst, kLabel r.k)] }
    (match tierDie t' inst' with
      | some d => if s.dieHeld d then s.setReq { r with phase := .egress s.fc }
          else ((s.countToDie r.core d).setReq { r with phase := .at t' inst' }).splitParts r.id
      | none => (s.setReq { r with phase := .at t' inst' }).splitParts r.id)
  | .lands l => s.landReq { r with passed := r.passed ++ [(t.num, inst, kLabel r.k)] } l

/-- Does a poisoned line fail a request at its lookup (R257)? A multicast line's failed reading is found by its fill (R202). -/
def Req.lookPoison (r : Req) (s : State) : List Nat :=
  match r.kind with
  | .mcast _ _ => []
  | _ => s.poison

/-- A request's lookup at a tier instance: at the CORE tier a name of a die window lands there (R230). -/
def State.lookupReq (s : State) (r : Req) (t : Tier) (inst order : Nat) : State :=
  let die := coreDie r.core
  let seen : State := { s with poison := r.lookPoison s }
  match (if t == .core then s.window? r.cid r.k else none) with
  | some w => s.afterLookup r .die w.die order (seen.lookWindow w r.off r.need)
  | none =>
    let (s1, w) := seen.lookAt t inst r.core r.k r.off r.need r.rights die
    let s1 : State := { s1 with poison := s.poison }
    s1.afterLookup r t inst order w

/-- A request from its first lookup on, as it was issued (R364, R367). -/
def Req.restart (r : Req) : Req :=
  { r with k := r.k0, off := r.off0, rights := 31, passed := [], list := 0, phase := .at .core r.cid }

/-- Was the request served by an L1 whose line has left since: it makes its lookups then (R246)? -/
def State.hitGone (s : State) (r : Req) : Bool := r.phase == .ready && r.passed.isEmpty && (s.l1Of r).isNone

/-- TIER_LOOKUP (R245): one tier. A request that waited at a held entry looks it up again once it is released, in order of arrival
(R348); one that waited for a die's reset starts anew (R374). -/
def execTierLookup (s : State) : Host.Outcome State Fault Refusal := whenDue (do
  let r ← s.req? (s.arg 0)
  match r.phase with
  | .at t inst => some (s.lookupReq r t inst s.turn)
  | .held t inst order =>
    let ahead := s.reqs.any (fun x => match x.phase with
      | .held t' i' o => t' == t && i' == inst && kLabel x.k == kLabel r.k && decide (o < order)
      | _ => false)
    if ahead || (s.entryInMem t inst (kLabel r.k)).hold then none
    else some ((s.setReq { r with phase := .at t inst }).lookupReq { r with phase := .at t inst } t inst order)
  | .egress _ => if (List.range 4).any s.dieHeld then none else some (s.setReq r.restart)
  | .ready => if s.hitGone r then some (s.setReq r.restart) else none
  | _ => none)

/-- Sectors of a line read from DRAM at its home, for a context (R250, R396). -/
def State.readDram (s : State) (cid : Nat) (m : BitVec 4) : State := s.charge cid 7 (32 * sectorCount m)

/-- The sectors of a request's line put into the slice of a die, under one name of the die (R249, R351). A die keeps a COH line of another
home only as a recorded holder (R282). -/
def State.fillSlice (s : State) (r : Req) (die : Nat) (m : BitVec 4) : State :=
  if !s.mayCache r.mode die r.line then s
  else
    let had := match s.l2.find? (fun x => x.die == die && x.line == r.line) with
      | some x => x.sectors
      | none => 0
    let s := if had = 0 then s.replaceL2 die r.line else s
    { s with l2 := { die := die, line := r.line, cid := r.cid, k := r.k0, off := r.off0, ch := r.ch, sectors := had ||| m } ::
        s.l2.filter (fun x => !(x.die == die && x.line == r.line)) }

/-- The sectors asked for on the list of a miss (R249). -/
def State.wanted (s : State) (die line : Nat) : BitVec 4 :=
  (s.reqs.filter (fun x => x.phase == .missing && x.line == line && x.sliceDie == die)).foldl (fun m x => m ||| laneSectors x.lanes) 0

/-- What waits in the ingress queue of a slice goes on as far as it may, in arrival order (R249). -/
def State.drainIngress (s : State) (die line : Nat) : State :=
  let order := fun (r : Req) => match r.phase with
    | .ingress n => n
    | _ => 0
  let queue := s.reqs.filter (fun x => x.phase == .ingress (order x) && x.sliceDie == die && sliceOf x.line % 32 == sliceOf line % 32)
  (queue.mergeSort (fun a b => order a ≤ order b)).foldl (fun s r => s.atSlice r (order r)) s

/-- L2_MISS_FILL (R249, R250, R351, R396): the sectors asked for are in the slice, and every request on its list goes on. A slice of another
die asks the home slice, and DRAM is read only where that does not hold them. -/
def execL2MissFill (s : State) : Host.Outcome State Fault Refusal := whenDue (do
  let r ← s.req? (s.arg 0)
  if r.phase != .missing then none
  else
    let die := r.sliceDie
    let home := (homeOf r.line).getD die
    let m := s.wanted die r.line
    let s := if r.noL1 then s else s.dropSynonyms die r.line r.cid r.k0 r.off0
    let s := if s.sliceHolds home r.line m then s else
      let s := s.readDram r.cid m
      if home = die then s else s.fillSlice r home m
    let s := s.fillSlice r die m
    let s : State := { s with reqs := s.reqs.map (fun (x : Req) =>
      if x.phase = .missing ∧ x.line = r.line ∧ x.sliceDie = die then { x with phase := .ready } else x) }
    some (s.drainIngress die r.line))

/-! ## Loads -/

/-- May a landed request be performed: served (R384), after its group's older accesses that go first (R263), and an L1 that was to serve it
holds its line yet? -/
def State.mayPerform (s : State) (r : Req) : Bool := s.inOrder r && s.servable r && !s.hitGone r

/-- Does an earlier request of the miss list that the request came by, which may be performed, still wait for its answer (R249)? -/
def State.listedFirst (s : State) (r : Req) : Bool :=
  r.list != 0 && s.reqs.any (fun x => x.phase == .ready && x.list != 0 && decide (x.list < r.list) && x.line == r.line &&
    x.sliceDie == r.sliceDie && x.left != 0 && s.mayPerform x)

/-- Is a landed request one that may be performed now? -/
def State.atLanding (s : State) (r : Req) : Bool := r.phase == .ready && s.mayPerform r && !s.listedFirst r

/-- Does the caches' state hold a load back: a strong one of an L1 line, or of dirty sectors of one under CH 3, while an invalidation is on
its way or pending, or without a token of a COH or URM line (R274, R277); a weak one once an invalidation has been pending for 65,536 fc
(R280); an sc one at mod or pod scope while its die has a copy that does not show a store (R268)? The load closes an OPEN line first, whose
U copies then leave (R160). -/
def State.heldBack (s : State) (r : Req) : Bool :=
  (r.ord == 5 && decide (5 ≤ r.scp) && s.staleCopies.any (fun c => c.die == r.servedOn && c.line == r.line)) ||
    (match (s.closeLine r.line).l1Of r with
      | none => false
      | some l =>
        if r.noL1 then strong r.ord && !l.dirty.isEmpty && (l.old.isSome || (l.mode != .ros && l.tokens == 0))
        else if strong r.ord then l.old.isSome || (l.mode != .ros && l.tokens == 0)
        else l.pending && decide (l.fc + 65536 < s.fc))

/-- The place of a lane in node 6. -/
def Req.register (r : Req) (o : LaneOp) : Nat := r.place o % 2 ^ 45

/-- Closes a line for an access by a die: what it reads then is the merged value, so a copy of the die that does not show it goes (R160,
R294). -/
def State.closeFor (s : State) (die line : Nat) : State :=
  if (s.open? line).isNone then s
  else { s.closeLine line with staleCopies := s.staleCopies.filter (fun c => !(c.die == die && c.line == line)) }

/-- A load performed for some lanes (R147): an OPEN line closes first (R160), copies under another name leave (R247), the sectors are kept
where they may be, results are written, and an acquire takes effect. -/
def State.loadLanes (s : State) (r : Req) (size : Nat) (sext : Bool) (pick : Mask) : State :=
  let os := pickedLanes r.lanes pick
  let s := (s.closeFor r.servedOn r.line).dropSynonyms r.servedOn r.line r.cid r.k0 r.off0
  let s := (s.touchRemote r).fillL1 r
  let bs := s.lineFor r
  let value := fun (o : LaneOp) =>
    loadValue size sext o.cells (if r.device then s.deviceLoad (r.register o) size else (bs.drop (o.addr % 128)).take size)
  let vs := os.map (fun o => (o, value o))
  let s := s.deliverLanes r.gid r.turn vs
  ((s.acquired r.gid r.ord).countFrom r.core r.line).lanesDone r pick

/-- LOAD_REPLY (R147, R257). -/
def execLoadReply (s : State) : Host.Outcome State Fault Refusal := whenDue (do
  let r ← s.req? (s.arg 0)
  let pick := BitVec.ofNat 32 (s.arg 1)
  match r.kind with
  | .load size sext =>
    if !s.atLanding r || s.heldBack r || !laneChoice (overlap size) r.lanes r.left pick then none
    else if s.poisonedFor r then some (s.suspend r r.poisonFail)
    else some (s.loadLanes r size sext pick)
  | _ => none)

/-! ## Stores -/

/-- Is some copy of a line on another die still to be invalidated (R283)? -/
def State.copiesOut (s : State) (line : Nat) : Bool := s.staleCopies.any (fun c => c.line == line)

/-- After a store is written on its die: at mod and pod scope a COH store waits for the acknowledgements of every die invalidated
(R283). -/
def State.storeWritten (s : State) (r : Req) (pick : Mask) : State :=
  let left := r.left &&& ~~~pick
  if left = 0 && 5 ≤ r.scp && r.mode == .coh && s.copiesOut r.line then s.setReq { r with left := 0, phase := .replied }
  else s.lanesDone r pick

/-- The groups whose write a request is: its own, or those of every contributor of a merged one (R293). -/
def State.writersOf (s : State) (r : Req) : List Nat := ((s.sourcesOf r 16).map (·.gid)).eraseDups

/-- What some lanes' writes to memory do to copies of their groups that read the same bytes (R191). -/
def State.raceLanes (s : State) (r : Req) (size : Nat) (os : List LaneOp) : State :=
  (s.writersOf r).foldl (fun s gid => os.foldl (fun s o => s.raceCopies gid none (r.place o) size) s) s

/-- Writes some lanes' bytes at a slice. -/
def State.publishLanes (s : State) (die : Nat) (core : Option Nat) (r : Req) (size : Nat) (os : List LaneOp) : State :=
  (os.foldl (fun s o => s.publish die core r.line (o.addr % 128) (leBytes size o.data) (s.writersOf r)) s).raceLanes r size os

/-- Before the home slice writes a line: the copies of the requester's die leave, those that an invalidation is on its way to among them, and
for a COH line every other holder is sent an invalidation (R155, R263, R277, R282). -/
def State.recallHome (s : State) (r : Req) : State :=
  let here := coreDie r.core
  let home := (homeOf r.line).getD here
  let s := (s.l1.filter (fun l => l.line == r.line && (coreDie l.core == here || coreDie l.core == home))).foldl State.evictL1 s
  let s : State := { s with staleCopies := s.staleCopies.filter (fun c => !(c.die == here && c.line == r.line)) }
  let s : State := if home = here then s else { s with l2 := s.l2.filter (fun x => !(x.die == here && x.line == r.line)) }
  if r.mode == .coh then (s.closeLine r.line).ensureAlone .coh home r.line else s.closeLine r.line

/-- A store of scope grp or core: its bytes stand in the L1, which first takes the line (R277). -/
def State.storeInL1 (s : State) (r : Req) (size : Nat) (pick : Mask) : Option State :=
  let s := (s.closeLine r.line).fillL1 r
  (s.l1Of r).map (fun l =>
    let dirty := (pickedLanes r.lanes pick).foldl (fun d o => putDirty d (o.addr % 128) (leBytes size o.data)) l.dirty
    let s := s.putL1 { l with dirty := dirty, writers := if l.writers.contains r.gid then l.writers else r.gid :: l.writers }
    (s.raceLanes r size (pickedLanes r.lanes pick)).lanesDone r pick)

/-- An L1 holds every token of a line, as no other L1 of its die holds a copy that has one (R277). -/
def State.gathered (s : State) (core line : Nat) : State :=
  { s with l1 := s.l1.map (fun l => if l.core = core ∧ l.line = line then { l with tokens := 256 } else l) }

/-- A store of a wider scope: the die holds the line alone, the L1's older bytes go first, and the bytes become readable beyond the
core at one moment (R277, R279, R283). -/
def State.storeOnDie (s : State) (r : Req) (size : Nat) (pick : Mask) : Option State :=
  let die := coreDie r.core
  if s.grantedAlone r.mode die r.line && s.tokensFree (s.l1CoreOf r) r.line then
    let s := match s.l1Of r with
      | some l => s.flushL1 l
      | none => s
    let s := s.dropSynonyms die r.line r.cid r.k0 r.off0
    let s := s.publishLanes die (some (s.l1CoreOf r)) r size (pickedLanes r.lanes pick)
    some ((s.gathered (s.l1CoreOf r) r.line).storeWritten r pick)
  else none

/-- A store performed for some lanes, by where it lands (R277, R284, R287): a register, another module, whose egress accepts it
before its home writes it, the home slice, the L1, the die. -/
def State.storeLanes (s : State) (r : Req) (size : Nat) (pick : Mask) : Option State :=
  let os := pickedLanes r.lanes pick
  if r.device then
    some ((os.foldr (fun o s => s.deviceStore (r.register o) (leBytes size o.data)) s).lanesDone r pick)
  else if r.remote then
    if r.phase == .ready && r.scp < 6 then some ((s.setReq { r with phase := .replied }).settleAccess r.gid r.acc)
    else some (((s.touchRemote r).publishLanes r.servedOn none r size os).lanesDone r pick)
  else if r.noL1 then
    some (((s.recallHome r).publishLanes ((homeOf r.line).getD (coreDie r.core)) none r size os).storeWritten r pick)
  else if r.scp ≤ 1 then s.storeInL1 r size pick
  else s.storeOnDie r size pick

/-- STORE_PERFORMED (R265). A store that an egress accepted reaches its home by a second such event; one that waits for
acknowledgements is over once they are in. -/
def execStorePerformed (s : State) : Host.Outcome State Fault Refusal := whenDue (do
  let r ← s.req? (s.arg 0)
  let pick := BitVec.ofNat 32 (s.arg 1)
  match r.kind with
  | .store size =>
    if r.phase == .replied && r.left == 0 then (if s.copiesOut r.line then none else some ((s.countFrom r.core r.line).finishReq r))
    else if !((r.phase == .ready && !s.listedFirst r || r.phase == .replied) && s.mayPerform r) then none
    else if !laneChoice (overlap size) r.lanes r.left pick then none
    else if s.poisonedFor r then some (s.suspend r r.poisonFail)
    else ((s.foldCount r.core).storeLanes r size pick).map (fun s => s.countFrom r.core r.line)
  | _ => none)

/-! ## The scratchpad -/

/-- May a scratchpad access be served as far as its group's older ones go: one word of one core in issue order (R273), and for what follows a
release action the loads before it (R266)? -/
def State.spInOrder (s : State) (r : SpReq) : Bool :=
  let words := fun (x : SpReq) => (x.lanes.filter (fun o => laneIn x.left o.lane)).flatMap (fun o => wordsOf o.addr x.kind.size)
  !s.spReqs.any (fun x => x.gid == r.gid && x.target == r.target && decide (x.turn < r.turn) &&
    (words x).any (fun w => (words r).contains w)) && (r.behind == 0 || !s.loadsBefore r.gid r.behind)

/-- Do two lanes touch a common 4-byte word: a broadcast read, one word's stores, one word's atomics in lane order (R251)? -/
def shareWord (size : Nat) (a b : LaneOp) : Bool := (wordsOf a.addr size).any (fun w => (wordsOf b.addr size).contains w)

/-- One lane at its banks (R144, R147, R154, R157, R254): the state after, the value it returns, or none where it met a poisoned
row. -/
def State.spLane (s : State) (r : SpReq) (o : LaneOp) : State × Option (Option Nat) :=
  let size := r.kind.size
  let c := s.core r.target
  let within_ := decide (o.addr + size ≤ r.allot)
  let place := r.base + o.addr
  let old := if within_ then leNat (Sparse.getMany c.spad place size) else 0
  let bad := within_ && c.spBad place size
  match r.kind with
  | .load _ sext => if bad then (s, none) else (s, some (some (loadValue size sext o.cells (leBytes size old))))
  | .store _ => (if within_ then s.setCore r.target (c.spPut true place (leBytes size o.data)) else s, some none)
  | .atom op _ =>
    if bad then (s, none)
    else (if within_ then s.setCore r.target (c.spPut true place (leBytes size (op.new (8 * size) old o.data o.extra))) else s,
      some (some old))
  | _ => (s, some none)

/-- Some lanes in ascending order: the state after, the results, the lanes that failed. -/
def State.spLanes (s : State) (r : SpReq) : List LaneOp → State × List (LaneOp × Nat) × Mask
  | [] => (s, [], 0)
  | o :: rest =>
    let (s, v) := s.spLane r o
    let (s, vs, bad) := State.spLanes s r rest
    match v with
    | none => (s, vs, bad ||| 1#32 <<< o.lane)
    | some none => (s, vs, bad)
    | some (some x) => (s, (o, x) :: vs, bad)

/-- The rows that the reads of some lanes find uncorrectable, and poison (R254). -/
def State.meetRows (s : State) (r : SpReq) (os : List LaneOp) (bad : Mask) : State :=
  match r.kind with
  | .store _ => s
  | _ => os.foldl (fun s o => if laneIn bad o.lane && decide (o.addr + r.kind.size ≤ r.allot) then
      s.setCore r.target ((s.core r.target).poisonRows (r.base + o.addr) r.kind.size) else s) s

/-- SP_ACCESS_DONE (R251, R254, R273): results written, an acquire applied; a lane that met a poisoned row fails with POISON at
tier 0 and label 0. Operand 2: the lanes whose read meets an uncorrectable row. -/
def execSpAccessDone (s : State) : Host.Outcome State Fault Refusal := whenDue (do
  let r ← s.spReqs.find? (fun x => x.id == s.arg 0)
  let pick := BitVec.ofNat 32 (s.arg 1)
  let writes := match r.kind with
    | .load _ _ => false
    | _ => true
  if !s.spInOrder r || !laneChoice (shareWord r.kind.size) r.lanes r.left pick then none
  else
    let os := pickedLanes r.lanes pick
    let (s, vs, bad) := (s.meetRows r os (BitVec.ofNat 32 (s.arg 2))).spLanes r os
    let s := if writes then os.foldl (fun s o => s.raceCopies r.gid (some r.target) (r.base + o.addr) r.kind.size) s else s
    let s := (s.deliverLanes r.gid r.turn vs).acquired r.gid r.ord
    let s := if bad = 0 then s else
      s.failAccess r.gid r.acc { lanes := bad, tier := 0, label := 0, reason := 10, tag := 0, lost := false }
    let left := r.left &&& ~~~pick
    let rest := if left = 0 then s.spReqs.filter (fun x => x.id != r.id)
      else s.spReqs.map (fun x => if x.id = r.id then { r with left := left } else x)
    let s : State := { s with spReqs := rest }
    some (if left = 0 then s.settleAccess r.gid r.acc else s))

/-! ## Atomics -/

/-- The operator of an atomic or a reduction, and its size. -/
def ReqKind.atomOp : ReqKind → Option (AtomOp × Nat)
  | .atom op n => some (op, n)
  | .red op n => some (op, n)
  | _ => none

/-- One lane's operation at the home (R154): the state after and the old value, or none where R386 refuses the new version. -/
def State.atomLane (s : State) (r : Req) (op : AtomOp) (size : Nat) (o : LaneOp) : State × Option Nat :=
  if r.device then
    let old := leNat (s.deviceLoad (r.register o) size)
    (s.deviceStore (r.register o) (leBytes size (op.new (8 * size) old o.data o.extra)), some old)
  else
    let old := s.loadN (r.place o) size
    let home := (homeOf r.line).getD (coreDie r.core)
    match (if op == .cas && size == 8 then s.versionWord (r.place o) else none) with
    | some x =>
      if old ≠ o.data then (s, some old)
      else if s.versionOk x (r.place o) o.data o.extra then (s.publishVersion x (r.place o) o.extra, some old)
      else (s, none)
    | none => (s.publish home none r.line (o.addr % 128) (leBytes size (op.new (8 * size) old o.data o.extra)) (s.writersOf r), some old)

/-- Some lanes in ascending order; the request with their results, or whether one was refused. -/
def State.atomLanes (s : State) (op : AtomOp) (size : Nat) : List LaneOp → Req → State × Req × Bool
  | [], r => (s, r, false)
  | o :: rest, r =>
    match s.atomLane r op size o with
    | (s, none) => (s, r, true)
    | (s, some v) =>
      let r := { r with
        lanes := r.lanes.map (fun x => if x.lane = o.lane then { x with result := some v } else x),
        left := r.left &&& ~~~(1#32 <<< o.lane) }
      State.atomLanes s op size rest r

/-- Every contributor of a merged request, by the switches that merged it: the record and its entry (R368). A switch makes no list
longer than 16 entries. -/
def State.contribsOf (s : State) (merged : Nat) : Nat → List (Nat × Contrib)
  | 0 => []
  | fuel + 1 =>
    match s.records.find? (fun x => x.merged == merged) with
    | none => []
    | some x => x.contribs.flatMap (fun c => (x.id, c) :: State.contribsOf s c.req fuel)

/-- The home records a combined atomic, keeping the last 256 of its slice (R368). -/
def State.recordJournal (s : State) (r : Req) : State :=
  if r.contribs ≤ 1 then s
  else
    let old := (r.lanes.filterMap (·.result)).headD 0
    let e : Journal :=
      { home := sliceOf r.line, merged := r.id, addr := 128 * r.line, old := old, contribs := s.contribsOf r.id 16 }
    let mine := s.journal.filter (fun j => j.home == e.home)
    let s : State := if mine.length < 256 then s else match mine.head? with
      | some j => { s with journal := s.journal.erase j }
      | none => s
    { s with journal := s.journal ++ [e] }

/-- Would the atomic publish a version while requests are under way through the entry that lands its extent: the remap drains it first, so
that no write passes it afterwards (R285, R289, R350, R386)? -/
def State.undrained (s : State) (r : Req) (op : AtomOp) (size : Nat) (pick : Mask) : Bool :=
  op == .cas && size == 8 && (pickedLanes r.lanes pick).any (fun o => match s.versionWord (r.place o) with
    | some x => s.loadN (r.place o) 8 == o.data && s.versionOk x (r.place o) o.data o.extra &&
        s.reqs.any (fun y => y.id != r.id && y.left != 0 && y.passed.contains (3, x.id, o.extra / 2 ^ 32))
    | none => false)

/-- ATOM_AT_HOME (R155, R156, R386): copies are recalled, an OPEN line closes, the lanes are performed in ascending order. -/
def execAtomAtHome (s : State) : Host.Outcome State Fault Refusal := whenDue (do
  let r ← s.req? (s.arg 0)
  let pick := BitVec.ofNat 32 (s.arg 1)
  let (op, size) ← r.kind.atomOp
  if !s.atLanding r || !laneChoice (overlap size) r.lanes r.left pick || s.undrained r op size pick then none
  else if s.poisonedFor r then some (s.suspend r r.poisonFail)
  else
    let s := s.foldCount r.core
    let s := if r.device || r.remote then s else s.recallHome r
    match (s.touchRemote r).atomLanes op size (pickedLanes r.lanes pick) r with
    | (s, _, true) => some (s.suspend r { r.poisonFail with reason := 7 })
    | (s, r, false) =>
      let s := s.raceLanes r size (pickedLanes r.lanes pick)
      let r := if r.left = 0 then { r with phase := .replied } else r
      let s := s.setReq r
      some (if r.left = 0 then s.recordJournal r else s))

/-- The results of a performed request, lane by lane. -/
def Req.results (r : Req) : List (LaneOp × Nat) := r.lanes.filterMap (fun o => o.result.map (fun v => (o, v)))

/-- ATOM_REPLY (R154): the old values are written. -/
def execAtomReply (s : State) : Host.Outcome State Fault Refusal := whenDue (do
  let r ← s.req? (s.arg 0)
  match r.kind with
  | .atom _ _ =>
    if r.phase == .replied && r.acc != 0 then
      some ((((s.deliverLanes r.gid r.turn r.results).acquired r.gid r.ord).countFrom r.core r.line).finishReq r)
    else none
  | _ => none)

/-! ## Update-only writes -/

/-- Does a cache of a core hold a U copy of an OPEN line under a name (R159, R247)? -/
def State.holdsU (s : State) (r : Req) (o : OpenLine) : Bool :=
  (if s.fusedAt r.core then o.fused.any (fun p => p.1 == r.core / 4) else o.parts.any (fun p => p.1 == r.core)) &&
    (match s.l1Of r with
      | some l => l.line == r.line
      | none => false)

/-- A U copy granted to the request's cache, every element at the identity, under one name of the die (R159, R247). The home records another
die that takes one (R282). -/
def State.grantU (s : State) (r : Req) (tag : Nat) : State :=
  let die := coreDie r.core
  let s := s.dropSynonyms die r.line r.cid r.k0 r.off0
  let s : State := match homeOf r.line with
    | some h => if r.mode == .coh && h != die then s.grantLine h die r.line false else s
    | none => s
  let fused := s.fusedAt r.core
  let core := s.l1CoreOf r
  let s := s.replaceOne core r.off0
  let ids := List.replicate (1024 / updWidth tag) (updIdentity tag)
  let s : State := { s with opens := s.opens.map (fun o =>
    if o.line ≠ r.line then o
    else if fused then { o with fused := (r.core / 4, ids) :: o.fused.filter (fun p => p.1 != r.core / 4) }
    else { o with parts := (r.core, ids) :: o.parts.filter (fun p => p.1 != r.core) }) }
  s.putL1 { core := core, cid := r.cid, k := r.k0, off := r.off0, line := r.line, rights := r.rights, mode := r.mode, tokens := 0,
            dirty := [], writers := [], old := none, pending := false, fc := s.fc, ch := r.ch, sectors := 15 }

/-- The home marks the line OPEN under a tag (R159). -/
def State.markOpen (s : State) (r : Req) (tag : Nat) : State :=
  let o : OpenLine := { line := r.line, tag := tag, cid := r.cid, parts := [], fused := [], evicted := [] }
  { s with opens := o :: s.opens }

/-- UPD_OPEN (R159): a closed line, or one OPEN under another tag once closed, is opened under the request's tag with every token
recalled; a cache without a U copy is granted one, where the access may allocate a line in it (R143, R246). -/
def execUpdOpen (s : State) : Host.Outcome State Fault Refusal := whenDue (do
  let r ← s.req? (s.arg 0)
  match r.kind with
  | .upd tag =>
    let grant := fun (s : State) => if r.noL1 then s else s.grantU r tag
    if !s.atLanding r then none
    else if s.poisonedFor r then some (s.suspend r r.poisonFail)
    else
      match s.open? r.line with
      | some o =>
        if o.tag = tag then (if r.noL1 || s.holdsU r o then none else some (s.grantU r tag))
        else some (grant ((s.closeLine r.line).markOpen r tag))
      | none =>
        let s := (s.l1.filter (fun l => l.line == r.line)).foldl State.evictL1 (s.recallHome r)
        some (grant (s.markOpen r tag))
  | _ => none)

/-- The partial after the operands of a request, in ascending lane order (R159). -/
def applyOperands (tag : Nat) (os : List LaneOp) (p : List Nat) : List Nat :=
  os.foldl (fun p o =>
    let e := o.addr % 128 / (updWidth tag / 8)
    p.set e (updOp tag (p.getD e (updIdentity tag)) o.data)) p

/-- The operands applied to the U copy of the request's cache; or, of an access that allocates no line there, a partial of their own that has
gone on to the next merge level (R143, assumption 22). The copies of other dies that do not show them wait for the group's releases (R294). -/
def State.applyUpd (s : State) (r : Req) (tag : Nat) : State :=
  let fused := s.fusedAt r.core
  let app := fun (n : Nat) (l : List (Nat × List Nat)) =>
    l.map (fun p => if p.1 = n then (p.1, applyOperands tag r.lanes p.2) else p)
  let node := if fused then clusterNode (r.core / 4) else pairNode (r.core / 4) (r.core % 4 / 2)
  let own := (node, applyOperands tag r.lanes (List.replicate (1024 / updWidth tag) (updIdentity tag)))
  { s with
    opens := s.opens.map (fun o =>
      if o.line ≠ r.line then o
      else if r.noL1 then { o with evicted := o.evicted ++ [own] }
      else if fused then { o with fused := app (r.core / 4) o.fused } else { o with parts := app r.core o.parts })
    staleCopies := s.staleCopies.map (fun c =>
      if c.line = r.line ∧ !c.writers.contains r.gid then { c with writers := r.gid :: c.writers } else c) }

/-- RED_ACK (R158, R159): the home's acknowledgement of a reduction; the partial takes the operands of an update-only write. -/
def execRedAck (s : State) : Host.Outcome State Fault Refusal := whenDue (do
  let r ← s.req? (s.arg 0)
  match r.kind with
  | .red _ _ => if r.phase == .replied && r.acc != 0 then some ((s.countFrom r.core r.line).finishReq r) else none
  | .upd tag =>
    (match s.open? r.line with
      | some o =>
        if s.atLanding r && o.tag == tag && (r.noL1 || s.holdsU r o) && !s.poisonedFor r then
          some ((((s.foldCount r.core).applyUpd r tag).raceLanes r (updWidth tag / 8) r.lanes).finishReq r)
        else none
      | none => none)
  | _ => none)

/-! ## Prefetches -/

/-- PRF_ACCEPT (R151): the line is kept, or the prefetch is dropped at an OPEN or poisoned line. -/
def execPrfAccept (s : State) : Host.Outcome State Fault Refusal := whenDue (do
  let r ← s.req? (s.arg 0)
  match r.kind with
  | .prf =>
    if r.phase != .ready || !s.servable r then none
    else if (s.open? r.line).isSome || s.poisonedFor r then some (s.finishReq r)
    else some (((s.touchRemote r).fillL1 r).finishReq r)
  | _ => none)

end Sys2Proof.Machine
end

