-- ==== Sys2Proof/Machine/Coherence.lean ====
section
/-! DEFINITION. The events of the caches: tokens (R277, R278), invalidations (R274, R280), dirty bytes (R280), the directory's grants,
acknowledgements and merges (R282, R283, R358), the close of an update-only line and evicted U copies (R160). -/
namespace Sys2Proof.Machine
open Sys2Proof

/-! ## Tokens -/

/-- The L1 line that a core holds of a physical line. -/
def State.l1OfLine (s : State) (core line : Nat) : Option L1Line := s.l1.find? (fun l => l.core == core && l.line == line)

/-- The other L1s of a core's die give up their tokens of a line: what they have not written goes to the L2 first, and the copies
leave. -/
def State.takeTokens (s : State) (core line : Nat) : State :=
  let others := s.l1.filter (fun l => coreDie l.core == coreDie core && l.core != core && l.line == line)
  let s := others.foldl State.evictL1 s
  -- The L1 that gathers the tokens puts its own bytes in coherence order (R277).
  let s := match s.l1OfLine core line with
    | some l => s.flushL1 l
    | none => s
  match s.l1OfLine core line with
  | some l => s.putL1 { l with tokens := 256 }
  | none => s

/-- One token for a core: from the die's slice, which holds every token of the line that no L1 has, else from an L1 that has more than one and
writes what stands in no other place to the L2 (R277). -/
def State.takeToken (s : State) (core line : Nat) : State :=
  let others := s.l1.filter (fun l => coreDie l.core == coreDie core && l.core != core && l.line == line)
  let s := others.foldl State.flushL1 s
  match s.l1OfLine core line with
  | none => s
  | some l =>
    if l.tokens != 0 then s
    else if s.tokensOut (coreDie core) line < 256 then s.putL1 { l with tokens := 1 }
    else
      match s.l1.find? (fun m => coreDie m.core == coreDie core && m.line == line && decide (1 < m.tokens)) with
      | some m => (s.putL1 { m with tokens := m.tokens - 1 }).putL1 { l with tokens := 1 }
      | none => s

/-- May a core take tokens: it holds a copy that no invalidation is on its way to, the line is not OPEN, and no persistent request of
another core is active for it (R159, R278)? -/
def State.mayTake (s : State) (core line : Nat) : Bool :=
  (match s.l1OfLine core line with
    | some l => l.old.isNone
    | none => false) &&
    (s.open? line).isNone && s.tokensFree core line

/-- Counts a transient request that did not gather its tokens, for the accesses of a core that wait for them (R278). -/
def State.failTransient (s : State) (core line : Nat) : State :=
  { s with reqs := s.reqs.map (fun r =>
      if r.phase = .ready ∧ r.core = core ∧ r.line = line then { r with transients := r.transients + 1 } else r) }

/-- TOKEN_REQUEST (R277, R278): a transient request for one token, or for all 256. One that another core's active persistent request
forestalls, or that operand 3 lets fail, gathers none. -/
def execTokenRequest (s : State) : Host.Outcome State Fault Refusal := whenDue (
  let core := s.arg 0
  let line := s.arg 1
  if (s.l1OfLine core line).isNone then none
  else if s.mayTake core line && s.arg 3 == 0 then some (if s.arg 2 = 0 then s.takeToken core line else s.takeTokens core line)
  else some (s.failTransient core line))

/-- The persistent requests in the table of a line's slice, 64 at most; later ones wait in its ingress queue, in arrival order (R278). -/
def State.persistentTable (s : State) (line : Nat) : List (Nat × Nat) :=
  (s.persistent.filter (fun p => sliceOf p.2 == sliceOf line)).take 64

/-- PERSISTENT_REQUEST (R278): a core asks once two transient requests of one access have failed. The first entry of a line in the table is
active: every holder forwards its tokens until a second such event ends it. -/
def execPersistentRequest (s : State) : Host.Outcome State Fault Refusal := whenDue (
  let core := s.arg 0
  let line := s.arg 1
  if !s.persistent.contains (core, line) then
    if s.reqs.any (fun r => r.phase == .ready && r.core == core && r.line == line && decide (2 ≤ r.transients)) then
      let s : State := { s with persistent := s.persistent ++ [(core, line)] }
      some (if (s.persistentTable line).contains (core, line) && s.mayTake core line then s.takeTokens core line else s)
    else none
  else
    match (s.persistentTable line).find? (fun p => p.2 == line) with
    | some p => if p.1 = core then
        let s := if s.mayTake core line then s.takeTokens core line else s
        some { s with persistent := s.persistent.filter (fun q => q != (core, line)) }
      else none
    | none => none)

/-! ## Invalidations -/

/-- INVALIDATION_ARRIVE (R274): an invalidation reaches a core's L1 and is applied, or stays pending. -/
def execInvalidationArrive (s : State) : Host.Outcome State Fault Refusal := whenDue (do
  let l ← s.l1.find? (fun (l : L1Line) => l.core == s.arg 0 && l.line == s.arg 1 && l.old.isSome && !l.pending)
  some (if s.arg 2 = 0 then s.putL1 { l with pending := true, fc := s.fc } else s.evictL1 l))

/-- INVALIDATION_APPLY (R274, R280): a pending invalidation is applied. -/
def execInvalidationApply (s : State) : Host.Outcome State Fault Refusal := whenDue (do
  let l ← s.l1.find? (fun (l : L1Line) => l.core == s.arg 0 && l.line == s.arg 1 && l.pending)
  some (s.evictL1 l))

/-- L1_DIRTY_WRITEBACK (R280): the dirty bytes of a line are written to the L2; the copy stays. -/
def execL1DirtyWriteback (s : State) : Host.Outcome State Fault Refusal := whenDue (do
  let l ← s.l1.find? (fun (l : L1Line) => l.core == s.arg 0 && l.line == s.arg 1 && !l.dirty.isEmpty)
  some (s.flushL1 l))

/-! ## The directory -/

/-- DIRECTORY_GRANT (R282, R358): the home grants a line to a die for which a request of it is under way; alone, after invalidations to
every other recorded holder. -/
def execDirectoryGrant (s : State) : Host.Outcome State Fault Refusal := whenDue (do
  let die := s.arg 0
  let holder := s.arg 1
  let line := s.arg 2
  let asked := s.reqs.any (fun (r : Req) => (r.phase == .ready || r.phase == .missing) && r.line == line && r.mode == .coh &&
    coreDie r.core == holder)
  if homeOf line = some die ∧ asked ∧ (s.open? line).isNone ∧ !s.poison.contains line then
    some (s.grantLine die holder line (s.arg 3 != 0))
  else none)

/-- A holder's copy of a line is gone: once none is left, the stores that waited for it are performed at mod scope (R283). -/
def State.copyGone (s : State) (holder line : Nat) : State :=
  let s := s.dieMessage holder ((homeOf line).getD holder)
  let s : State := { s with staleCopies := s.staleCopies.filter (fun c => !(c.die == holder && c.line == line)),
                            l2 := s.l2.filter (fun x => !(x.die == holder && x.line == line)) }
  let done := s.reqs.filter (fun (r : Req) => r.phase == .replied && r.left == 0 && r.line == line && (match r.kind with
    | .store _ => true
    | _ => false))
  if s.copiesOut line then s else done.foldl (fun s r => (s.countFrom r.core r.line).finishReq r) s

/-- INVALIDATION_ACK (R282, R283): an invalidation has reached a holder, whose L1s are sent theirs and whose copy is gone; stores that
waited for the last one of the line are performed at mod scope. -/
def execInvalidationAck (s : State) : Host.Outcome State Fault Refusal := whenDue (
  let holder := s.arg 0
  let line := s.arg 1
  if s.staleCopies.any (fun c => c.die == holder && c.line == line) then some ((s.invalidateOn holder line none).copyGone holder line)
  else none)

/-- REGION_MERGE (R358): the two halves of a region, of one size and one holder set, become one entry 2^MLOG fc after the last
conflict. A region grows no larger than a new one. -/
def execRegionMerge (s : State) : Host.Outcome State Fault Refusal := whenDue (do
  let die := s.arg 0
  let a ← s.regions.find? (fun (r : Region) => r.die == die && r.base == s.arg 1)
  let b ← s.regions.find? (fun (r : Region) => r.die == die && r.log == a.log && r.base == a.base + 2 ^ a.log)
  let wait := 2 ^ s.dirLog die 16 5
  if a.base % 2 ^ (a.log + 1) = 0 ∧ a.holders = b.holders ∧ a.log < max 12 (s.dirLog die 0 5) ∧ a.fc + wait ≤ s.fc ∧
      b.fc + wait ≤ s.fc then
    let m : Region := { a with log := a.log + 1, alone := a.alone && b.alone, fc := max a.fc b.fc }
    let s : State := { s with regions := m :: s.regions.filter (fun r => r != a && r != b) }
    some ((s.countDir die 0).syncUsed die)
  else none)

/-! ## Update-only lines -/

/-- Does a request close an OPEN line (R160): all but a prefetch and a write under the same tag? -/
def Req.closes (r : Req) (tag : Nat) : Bool :=
  match r.kind with
  | .prf => false
  | .upd t => t != tag
  | _ => true

/-- LINE_CLOSE (R160): an access that closes the line has come to it; the partials are merged and the line is written. -/
def execLineClose (s : State) : Host.Outcome State Fault Refusal := whenDue (do
  let o ← s.open? (s.arg 0)
  if s.reqs.any (fun (r : Req) => r.line == o.line && s.atLanding r && r.closes o.tag) then some (s.closeLine o.line) else none)

/-- The node directly above a node of the merge tree that stands above a pair; a module node has none (R259). -/
def nodeAbove (n : Nat) : Option Nat :=
  if n < 2000 then none
  else if n < 3000 then some (octetNode ((n - 2000) / 8))
  else if n < 4000 then some (dieNode ((n - 3000) / 4))
  else if n < 5000 then some (topNode ((n - 4000) / 2))
  else none

/-- A node's value, folded from the partials that it received, evicted to the node above (R259). -/
def OpenLine.evictNode (o : OpenLine) (n up : Nat) : OpenLine :=
  let mine := (o.evicted.filter (fun p => p.1 == n)).map (·.2)
  let v := (List.range (1024 / updWidth o.tag)).map (fun e =>
    (mine.map (fun p => p.getD e (updIdentity o.tag))).foldl (updOp o.tag) (updIdentity o.tag))
  { o with evicted := o.evicted.filter (fun p => p.1 != n) ++ [(up, v)] }

/-- U_COPY_EVICT (R160, R259): a core's evicted U copy, or its cluster's, sends its partial to the next merge level; or, with operand 2, the
node of that number sends its value on. The line stays OPEN. -/
def execUCopyEvict (s : State) : Host.Outcome State Fault Refusal := whenDue (do
  let core := s.arg 0
  let o ← s.open? (s.arg 1)
  if s.arg 2 != 0 then
    let up ← nodeAbove (s.arg 2)
    if o.evicted.any (fun p => p.1 == s.arg 2) then
      some { s with opens := s.opens.map (fun (y : OpenLine) => if y.line = o.line then y.evictNode (s.arg 2) up else y) }
    else none
  else if o.heldBy core then
    let s := s.evictU core o.line
    some { s with l1 := s.l1.filter (fun (l : L1Line) => !(l.line == o.line && s.sharesL1 core l.core)) }
  else none)

end Sys2Proof.Machine
end

