-- ==== Sys2Proof/Machine/Combine.lean ====
section
/-! DEFINITION. Combining switches (R156, R308) and lost replies (R368, R369): requests that merge at a crossbar output, the split of a
reply, LOSTSPLIT, RETIRED, ATOMLOST. A merged request is a request of no group; its record names the requests it stands for. -/
namespace Sys2Proof.Machine
open Sys2Proof

/-! ## Where two requests meet -/

/-- A switch by number: the octet crossbar of octet n of the module, or 16 + d for the central crossbar of die d. -/
def switchOf (n : Nat) : Option Switch :=
  if n < 16 then some (.octet (n / 4) (n % 4)) else if n < 20 then some (.central (n - 16)) else none

/-- A place where a request crosses a switch: the input port and the output, by the numbers of R308; outputs 0 of an octet crossbar, and of
a central crossbar 8 to 14 as the inputs, 16 + n for L2 slice n. -/
structure Crossing where
  input : Nat
  output : Nat
  deriving DecidableEq, Repr

/-- The port of a die's central crossbar toward a neighbour on a route: link D for the F-die (4), else the square link to the lower- or the
higher-numbered neighbour (R308). -/
def linkPort (here there : Nat) : Nat := if there = 4 then 9 else if there = (neighbours here).1 then 10 else 11

/-- Where a message on a route crosses the central crossbar of a die: `first` is its input at the first die, `last` its output at the last
(R308, R310). Die 4, the F-die, has none. -/
def crossingOn (here first last : Nat) : List Nat → Option Crossing
  | path =>
    match path.findIdx? (· == here) with
    | none => none
    | some i =>
      some { input := if i = 0 then first else linkPort here (path.getD (i - 1) 4),
             output := if i + 1 = path.length then last else linkPort here (path.getD (i + 1) 4) }

/-- The dies that a message between two dies crosses, both of them included; none while no route serves (R310). -/
def State.wholeRoute (s : State) (a b : Nat) : List Nat :=
  match s.route a b with
  | none => []
  | some mid => if a = b then [a] else a :: mid ++ [b]

/-- Where a request crosses a switch now, if it does (R156, R308): on its way from the core to the DIE tier, from the label unit that landed
it to its line, or from the label unit to a Span port. -/
def State.crossing (s : State) (w : Switch) (r : Req) : Option Crossing :=
  let d := coreDie r.core
  let unit := match r.passed.getLast? with
    | some (_, u, _) => u
    | none => d
  match w, r.phase with
  | .octet dd o, .at .die _ => if dd = d ∧ o = coreOct r.core then some { input := 4 * coreClus r.core + coreIdx r.core, output := 0 } else none
  | .central dd, .at .die inst => crossingOn dd (coreOct r.core) 8 (s.wholeRoute d inst)
  | .central dd, .ready =>
    (match homeOf r.line with
      | some h => if r.passed.isEmpty then none else crossingOn dd 8 (16 + sliceOf r.line % 32) (s.wholeRoute unit h)
      | none => none)
  | .central dd, .at .port p => crossingOn dd 8 (12 + p % 3) (s.wholeRoute unit (p / 3))
  | _, _ => none

/-- The lanes of a request that are still to be performed. -/
def Req.leftLanes (r : Req) : List LaneOp := r.lanes.filter (fun o => laneIn r.left o.lane)

/-- The remaining address of a request whose lanes all name one address: its name, or its physical line once landed (R156). -/
def remainingAddress (r : Req) : Option (DWord × Nat) :=
  match r.leftLanes with
  | [] => none
  | o :: rest =>
    if rest.all (fun x => x.addr == o.addr) then
      (match r.phase with
        | .ready => some (0, r.place o)
        | _ => some (r.k, r.off + o.addr % 128))
    else none

/-- The size of an addition that combines: ATOM.add or RED.add that no lane of has been performed (R156). -/
def addSize (r : Req) : Option Nat :=
  match r.kind with
  | .atom .add n => if r.lanes.all (·.result.isNone) then some n else none
  | .red .add n => if r.lanes.all (·.result.isNone) then some n else none
  | _ => none

/-- The list entries a request carries (R368). -/
def listEntries (r : Req) : Nat := if r.contribs ≤ 1 then 0 else r.contribs

/-- The stronger of two orders; acquire with release is acq_rel (R156). -/
def strongerOrd (a b : Nat) : Nat := if (a = 2 ∧ b = 3) ∨ (a = 3 ∧ b = 2) then 4 else max a b

/-- The sum of the operands of a request (R23, R156). -/
def addendOf (size : Nat) (r : Req) : Nat := (r.leftLanes.foldl (fun n o => n + o.data) 0) % 2 ^ (8 * size)

/-- Contributors in serial order: by input port, then by arrival (R156, R308). -/
def insertContrib (c : Contrib) : List Contrib → List Contrib
  | [] => [c]
  | x :: rest => if c.port < x.port then c :: x :: rest else x :: insertContrib c rest

/-- The offsets of contributors: the sums of the addends before them. -/
def withOffsets (size : Nat) : Nat → List Contrib → List Contrib
  | _, [] => []
  | n, c :: rest => { c with offset := n } :: withOffsets size ((n + c.addend) % 2 ^ (8 * size)) rest

/-- The sum of a list of contributors. -/
def sumOf (size : Nat) (cs : List Contrib) : Nat := (cs.foldl (fun n c => n + c.addend) 0) % 2 ^ (8 * size)

/-- A request put into a record: it is merged, and the merged request carries the sum, the strongest ORD, the widest SCP. -/
def State.joinRecord (s : State) (size port : Nat) (x : Record) (m r : Req) : State :=
  let cs := withOffsets size 0 (insertContrib { req := r.id, port := port, addend := addendOf size r, offset := 0 } x.contribs)
  let m := { m with
    lanes := m.lanes.map (fun o => { o with data := sumOf size cs }), ord := strongerOrd m.ord r.ord, scp := max m.scp r.scp,
    contribs := listEntries m + listEntries r + 1 }
  let s : State := { s with records := s.records.map (fun (y : Record) => if y.id = x.id then { x with contribs := cs } else y) }
  (s.setReq m).setReq { r with phase := .merged x.id }

/-- A new record with the first request alone in it, and the merged request that stands for it. -/
def State.newRecord (s : State) (switch output size port : Nat) (r : Req) : State × Record × Req :=
  let (id, s) := s.fresh
  let (mid, s) := s.fresh
  let o : LaneOp := { lane := 0, addr := (r.leftLanes.map (·.addr)).headD 0, data := addendOf size r, extra := 0, result := none, cells := [] }
  let m : Req := { r with
    id := mid, acc := 0, gid := 0, kind := .atom .add size, lanes := [o], left := 1, contribs := listEntries r + 1 }
  let c : Contrib := { req := r.id, port := port, addend := addendOf size r, offset := 0 }
  let x : Record := { id := id, switch := switch, output := output, merged := mid, contribs := [c], lost := false }
  let s : State := { s with records := s.records ++ [x], reqs := s.reqs ++ [m] }
  (s.setReq { r with phase := .merged id }, x, m)

/-- SWITCH_COMBINE (R156, R308, R368): two additions of one context to the same remaining address and size meet at an output. The
first may already be a merged request of this switch, which the second joins. -/
def execSwitchCombine (s : State) : Host.Outcome State Fault Refusal := whenDue (do
  let w ← switchOf (s.arg 0)
  let a ← s.req? (s.arg 1)
  let b ← s.req? (s.arg 2)
  let size ← addSize a
  let size' ← addSize b
  let ca ← s.crossing w a
  let cb ← s.crossing w b
  let na ← remainingAddress a
  let nb ← remainingAddress b
  let joined := s.records.find? (fun x => x.merged == a.id && x.switch == s.arg 0)
  let entries := listEntries a + listEntries b + (if joined.isSome then 1 else 2)
  if a.id = b.id ∨ size ≠ size' ∨ a.cid ≠ b.cid ∨ a.phase ≠ b.phase ∨ na ≠ nb ∨ ca.output ≠ cb.output ∨ 16 < entries ∨ a.device ∨ b.device ∨
      s.records.any (fun x => x.merged == b.id && x.switch == s.arg 0) then none
  else
    match joined with
    | some x => some (s.joinRecord size cb.input x a b)
    | none =>
      if 64 ≤ (s.records.filter (fun x => x.switch == s.arg 0 && x.output == ca.output)).length then none
      else
        let (s, x, m) := s.newRecord (s.arg 0) ca.output size ca.input a
        some (s.joinRecord size cb.input x m b))

/-! ## Replies -/

/-- A contributor's own part of a reply (R156): each lane gets the old value plus what stands before it; it is performed, and its own
reply or acknowledgement is on the way. -/
def answered (size old : Nat) (r : Req) : Req :=
  let before := fun (l : Nat) => (r.leftLanes.filter (fun o => decide (o.lane < l))).foldl (fun n o => n + o.data) 0
  { r with
    lanes := r.lanes.map (fun o => if laneIn r.left o.lane then { o with result := some ((old + before o.lane) % 2 ^ (8 * size)) } else o)
    left := 0, phase := .replied }

/-- Is a request still merged under this record? -/
def Req.mergedUnder (r : Req) (record : Nat) : Bool := r.phase == .merged record

/-- Removes a record and its merged request. -/
def State.dropRecord (s : State) (x : Record) : State :=
  { s with records := s.records.filter (fun (y : Record) => y.id != x.id), reqs := s.reqs.filter (fun (r : Req) => r.id != x.merged) }

/-- The split of a reply among the contributors of a record (R156, R308). -/
def State.splitReply (s : State) (x : Record) (size old : Nat) : State :=
  x.contribs.foldl (fun s c => match s.req? c.req with
    | some r => if r.mergedUnder x.id then s.setReq (answered size ((old + c.offset) % 2 ^ (8 * size)) r) else s
    | none => s) (s.dropRecord x)

/-- The reply of a merged request: its size and the old value. -/
def replyOf (m : Req) : Option (Nat × Nat) :=
  match m.kind, m.phase, (m.lanes.filterMap (·.result)).head? with
  | .atom _ size, .replied, some old => some (size, old)
  | _, _, _ => none

/-- DECOMBINE (R308, R369): the reply reaches the switch and is split; where the value array cannot be read the record is lost, and
where the tag array cannot either, no message reaches the contributors. -/
def execDecombine (s : State) : Host.Outcome State Fault Refusal := whenDue (do
  let x ← s.records.find? (fun (y : Record) => y.id == s.arg 0)
  let m ← s.req? x.merged
  let (size, old) ← replyOf m
  if x.lost then none
  else if s.arg 1 = 0 then some (s.splitReply x size old)
  else if s.arg 1 = 1 then
    some { s with records := s.records.map (fun (y : Record) => if y.id = x.id then { y with lost := true } else y) }
  else some (s.dropRecord x))

/-- Does the home's journal still hold the lists of a record (R368)? -/
def State.journaled (s : State) (x : Record) : Bool := s.journal.any (fun j => j.contribs.any (fun e => e.1 == x.id))

/-- LOSTSPLIT (R369): the home splits the reply from its journal for the switch's contributors. -/
def execLostsplit (s : State) : Host.Outcome State Fault Refusal := whenDue (do
  let x ← s.records.find? (fun (y : Record) => y.id == s.arg 0)
  let m ← s.req? x.merged
  let (size, old) ← replyOf m
  if x.lost && s.journaled x then some (s.splitReply x size old) else none)

/-- RETIRED (R369): the journal holds the entry no longer; ATOMLOST goes to each contributor that the tag array names, and the driver
receives a record. -/
def execRetired (s : State) : Host.Outcome State Fault Refusal := whenDue (do
  let x ← s.records.find? (fun (y : Record) => y.id == s.arg 0)
  let m ← s.req? x.merged
  let _ ← replyOf m
  if x.lost && !s.journaled x then
    let s := s.machineCheck 1 (remainingAddress { m with phase := .ready } |>.getD (0, 0)).2 (s.tagOf m).toNat
    some (x.contribs.foldl (fun s c => match s.req? c.req with
      | some r => if r.mergedUnder x.id then s.setReq { r with phase := .lost } else s
      | none => s) (s.dropRecord x))
  else none)

/-- A request completes with ATOMLOST for its lanes (R98, R369); a merged one forwards it to the contributors of its own record. -/
def State.loseAtomic (s : State) (r : Req) : State :=
  if r.gid = 0 then
    match s.records.find? (fun x => x.merged == r.id) with
    | some x => x.contribs.foldl (fun s c => match s.req? c.req with
        | some q => if q.mergedUnder x.id then s.setReq { q with phase := .lost } else s
        | none => s) (s.dropRecord x)
    | none => { s with reqs := s.reqs.filter (fun (q : Req) => q.id != r.id) }
  else
    let e : Failure := { lanes := r.left, tier := 0, label := 0, reason := 0, tag := s.tagOf r, lost := true }
    (s.failAccess r.gid r.acc e).finishReq r

/-- ATOMLOST (R369): it arrives at a switch or a core. -/
def execAtomlost (s : State) : Host.Outcome State Fault Refusal := whenDue (do
  let r ← s.req? (s.arg 0)
  if r.phase == .lost then some (s.loseAtomic r) else none)

/-- ATOMLOST_TIMEOUT (R369): no message has reached a merged request 2^24 fc after its issue. -/
def execAtomlostTimeout (s : State) : Host.Outcome State Fault Refusal := whenDue (do
  let r ← s.req? (s.arg 0)
  match r.phase with
  | .merged x => if r.fc + 2 ^ 24 ≤ s.fc && !s.records.any (fun (y : Record) => y.id == x) then some (s.loseAtomic r) else none
  | _ => none)

end Sys2Proof.Machine
end

