-- ==== Sys2Proof/Machine/Matrix.lean ====
section
/-! DEFINITION. The matrix instructions (R166 to R185) and the events of the array: ownership and rosters, slices and the latch, the
product by R78 and R79, tiles, stores, the self-test. -/
namespace Sys2Proof.Machine
open Sys2Proof

/-! ## Ownership -/

/-- Goes on for the owner of the core's array; PAIR = 1 asks for both arrays (R168, R169). -/
def State.byOwner (s : State) (u : Issuer) (pair : Bool) (k : State) : State :=
  if s.owns u.g u.g.core && (!pair || s.ownsPair u.g) then k else s.raise u causeUndef 0

/-- Whether each group still has a pending MXRDY. -/
def State.syncFeeding (s : State) : State :=
  { s with groups := s.groups.map (fun g => { g with feeding := (s.pendingSlice g).isSome }) }

/-- Is a roster one that MXACQ accepts (R170)? -/
def rosterOk (g : Group) (r : DWord) (pair : Bool) : Bool :=
  let used := (List.range 7).map (· + 1) |>.filter (rosterUses r)
  let place := fun (p : Nat) => (decide (4 ≤ p), rosterGrp r p)
  bitsAt r.toNat 56 8 == 0 && used.all (fun p => decide (rosterGrp r p ≤ 95)) && (pair || used.all (fun p => decide (p < 4))) &&
    used.all (fun p => used.all (fun q => p == q || place p != place q)) &&
    used.all (fun p => decide (4 ≤ p) || rosterGrp r p != g.grp)

/-- MXACQ (R168 to R170): the group enters the FIFO of its array, or of its pair's even core, and waits until it is granted. -/
def State.acquire (s : State) (u : Issuer) (f : MX) (i : Instr) : State :=
  match u.slot.wait with
  | some _ =>
    if s.owns u.g u.g.core then
      s.advance u.g u.name
    else s
  | none =>
    let r := u.g.rdS u.slot s.turn 1 f.u.toNat
    if s.owns u.g u.g.core || !rosterOk u.g r f.pair then s.raise u causeUndef 0
    else
      let c := if f.pair then pairEven u.g.core else u.g.core
      let m := s.matrix c
      let s := (s.setMatrix c { m with fifo := m.fifo ++ [(u.g.id, f.pair, r)] }).grantArrays u.g.core
      if s.owns u.g u.g.core then s.advance u.g u.name
      else s.park u.g u.name i [r.toNat] .granted

/-- MXACQ (R168). -/
def execMxacq (f : MX) (s : State) : Host.Outcome State Fault Refusal := s.issue fun u => s.acquire u f (.mxacq f)

/-- MXACQ.pair (R169). -/
def execMxacqPair (f : MX) (s : State) : Host.Outcome State Fault Refusal := s.issue fun u => s.acquire u f (.mxacqPair f)

/-- MXREL (R168): once every operation of the group has retired. -/
def execMxrel (f : MX) (s : State) : Host.Outcome State Fault Refusal := s.issue fun u =>
  s.byOwner u false <|
    if (s.matrix u.g.core).ops.isEmpty then ((s.advance u.g u.name).releaseArrays u.g).syncFeeding
    else if u.slot.wait.isSome then s
    else s.park u.g u.name (.mxrel f) [] .matrixIdle

/-! ## Feeding -/

/-- The formats of an operation: T, or AF, BF and ACCF of FMT (R174). -/
def mxFormats (f : MX) (fmt : Word) : Nat × Nat × Nat :=
  let t := f.t.toNat
  if t = 0 then (bitsAt fmt.toNat 0 5, bitsAt fmt.toNat 5 5, bitsAt fmt.toNat 10 5)
  else (t, t, if t = 7 ∨ t = 8 then 1 else 9)

/-- The rows of R174; `blocks`: those of MMAB. -/
def formatsOk (blocks : Bool) (a b acc : Nat) : Bool :=
  if blocks then a == 15 && b == 15 && acc == 9
  else ((a == 11 && b == 11) || (a == 12 && b == 12) || ([13, 14].contains a && [13, 14].contains b)) && acc == 9 ||
    ([7, 8].contains a && [7, 8].contains b && acc == 1)

/-- MXRDY (R175): the slice is pending at the core's array; a second one waits. A format that no product takes raises UNDEF (R34). -/
def execMxrdy (f : MX) (s : State) : Host.Outcome State Fault Refusal := s.issue fun u =>
  let (a, _, _) := mxFormats f u.slot.fmt
  if !([7, 8, 11, 12, 13, 14, 15] : List Nat).contains a then s.raise u causeUndef 0
  else if (s.pendingSlice u.g).isSome then (if u.slot.wait.isSome then s else s.park u.g u.name (.mxrdy f) [] .noReady)
  else
    let m := s.matrix u.g.core
    let x : ASlice := { gid := u.g.id, reg := f.a.toNat, fmt := a, ks := f.ks.toNat, words := [], turn := s.turn, op := 0 }
    (s.setMatrix u.g.core { m with ready := m.ready ++ [x] }).advance { u.g with feeding := true } u.name

/-- Was a register of a slice written after the turn from which that races, in any lane (R175, R178)? -/
def Group.slicesRaced (g : Group) (x : ASlice) : Bool :=
  x.turn != 0 && g.wrote.any (fun e => x.turn < e.1 && (match e.2 with
    | .v r _ => decide (x.reg ≤ r ∧ r < x.reg + sliceRegs x.fmt x.ks)
    | _ => false))

/-- The rows of a slice as the group's registers hold them (R171): for each lane, its registers in order. -/
def Group.sliceWords (g : Group) (turn : Nat) (x : ASlice) : List (List Word) :=
  laneList.map (fun l => (List.range (sliceRegs x.fmt x.ks)).map (fun i => g.rdV turn 5 (x.reg + i) l))

/-- The slice that a position other than the owner's supplies: its group's pending one, read now (R175, R176). -/
def State.takeSlice (s : State) (g : Group) (p : Nat) : Option (Nat × ASlice) :=
  (s.presentAt g p).bind (fun x => (s.pendingSlice x).map (fun a =>
    (p, { a with words := if x.slicesRaced a then [] else x.sliceWords s.turn a, turn := 0 })))

/-- The slices consumed are pending no more. -/
def State.consume (s : State) (g : Group) (pair : Bool) : State :=
  let gids := ((positions pair).filterMap (fun p => if p = 0 then none else s.presentAt g p)).map (·.id)
  let drop := fun (s : State) (c : Nat) =>
    let m := s.matrix c
    s.setMatrix c { m with ready := m.ready.filter (fun a => !gids.contains a.gid) }
  (drop (drop s g.core) (pairOther g.core)).syncFeeding

/-! ## Products -/

/-- Goes on for the owner when a lane participates; with none the instruction has no effect (R167, R168). -/
def State.byOwnerLanes (s : State) (u : Issuer) (pair : Bool) (part : Mask) (k : State) : State :=
  if part = 0 then s.advance u.g u.name else s.byOwner u pair k

/-- Raises mx for an operation of the issuing slot and puts it at the end of the array's list (R176). -/
def State.issueOp (s : State) (u : Issuer) (lanes : Mask) (dest : List Cell) (op : Nat → MxOp) : State :=
  let (s, g, acc) := s.addAccess u ⟨.mx, false, false⟩ 0 0 lanes dest
  let m := s.matrix g.core
  (s.setMatrix g.core { m with ops := m.ops ++ [op acc] }).advance g u.name

/-- The slices of a product that finds them at issue: the owner's own registers, and what the positions supply (R176). -/
def State.newSlices (s : State) (g : Group) (pair : Bool) (own : ASlice) : List (Nat × ASlice) :=
  (0, { own with words := g.sliceWords s.turn own }) ::
    (positions pair).filterMap (fun p => if p = 0 then none else s.takeSlice g p)

/-- The slices of a latched product: those the latch holds of the positions present (R176, R177). -/
def State.latchedSlices (s : State) (g : Group) (pair : Bool) (l : List (Nat × ASlice)) : List (Nat × ASlice) :=
  l.filter (fun e => (positions pair).contains e.1 && (e.1 == 0 || (s.presentAt g e.1).isSome))

/-- A slice as the latch keeps it: a copy, that no later write of the registers changes, named by the operation that took it. -/
def ASlice.kept (x : ASlice) (acc : Nat) : ASlice := { x with turn := 0, op := if x.turn = 0 then x.op else acc }

/-- MMA and MMAB at issue (R176, R177): checks, the slices from the latch or from the positions, the latch as RU leaves it. -/
def State.mma (s : State) (u : Issuer) (f : MX) (i : Instr) (blocks : Bool) : State :=
  let g := u.g
  let part := g.participating u.slot s.turn f.toCommon
  s.byOwnerLanes u f.pair part <|
    let b := (g.rdS u.slot s.turn 2 f.u.toNat).toNat
    let (fa, fb, facc) := mxFormats f u.slot.fmt
    if bitsAt b 24 40 ≠ 0 ∨ !formatsOk blocks fa fb facc then s.raise u causeUndef 0
    else if bitsAt b 0 22 % 128 ≠ 0 then s.raise u causeMisalign 0
    else if !s.slicesReady g f.pair then (if u.slot.wait.isSome then s else s.park g u.name i [] .slices)
    else
      let own : ASlice := { gid := g.id, reg := f.a.toNat, fmt := fa, ks := f.ks.toNat, words := [], turn := s.turn, op := s.nextId }
      let latch := (s.matrix g.core).latch
      let slices := match latch with
        | some l => s.latchedSlices g f.pair l
        | none => s.newSlices g f.pair own
      if slices.any (fun e => e.2.fmt != fa || e.2.ks != f.ks.toNat) then s.raise u causeUndef 0
      else
        let kept := slices.map (fun (e : Nat × ASlice) => (e.1, e.2.kept s.nextId))
        let s := if latch.isNone then s.consume g f.pair else s
        let s := s.setMatrix g.core { s.matrix g.core with latch := if f.ru then some kept else none }
        match s.group? g.id with
        | none => s
        | some g => s.issueOp { u with g := g } part [] (fun acc =>
            .product acc f.acc.toNat fa fb facc f.ks.toNat (u.slot.fmt.getLsbD 18) f.za f.pair b slices [])

/-- MMA (R176). -/
def execMma (f : MX) (s : State) : Host.Outcome State Fault Refusal := s.issue fun u => s.mma u f (.mma f) false

/-- MMAB (R176). -/
def execMmab (f : MX) (s : State) : Host.Outcome State Fault Refusal := s.issue fun u => s.mma u f (.mmab f) true

/-- MXWAIT (R178, R185): delivers the oldest matrix error; else waits for mx = 0 and for no pending MXRDY. -/
def execMxwait (f : MX) (s : State) : Host.Outcome State Fault Refusal := s.issue fun u =>
  match u.g.mxErrors with
  | (e, pc) :: rest =>
    s.trap { u.g with mxErrors := rest } u.name causeTierFault (tierEfault e.tier e.label e.reason pc) e.lanes e.tag
  | [] =>
    if u.g.counter .mx = 0 ∧ (s.pendingSlice u.g).isNone then s.advance u.g u.name
    else if u.slot.wait.isSome then s
    else s.park u.g u.name (.mxwait f) [] .matrixWait

/-! ## Tiles, zero, store, test -/

/-- The tile selector of S[u]: row block and column block, when legal (R179). -/
def State.tile (s : State) (u : Issuer) (f : MX) : Option (Nat × Nat) :=
  let v := (u.g.rdS u.slot s.turn 2 f.u.toNat).toNat
  if v / 32 ≠ 0 ∨ (4 ≤ v % 8 ∧ !s.ownsPair u.g) then none else some (v % 8, v / 8)

/-- MXRD (R179): the destinations are written when it retires. -/
def execMxrd (f : MX) (s : State) : Host.Outcome State Fault Refusal := s.issue fun u =>
  let part := u.g.participating u.slot s.turn f.toCommon
  s.byOwnerLanes u false part <|
    match s.tile u f with
    | none => s.raise u causeUndef 0
    | some (rb, cb) => s.issueOp u part ((lanesOf part).flatMap (fun l => laneCells f.a.toNat 32 l)) (fun acc =>
        .read acc f.acc.toNat f.a.toNat rb cb part)

/-- MXWR (R179): the sources are read between issue and retirement (R178). -/
def execMxwr (f : MX) (s : State) : Host.Outcome State Fault Refusal := s.issue fun u =>
  let part := u.g.participating u.slot s.turn f.toCommon
  s.byOwnerLanes u false part <|
    match s.tile u f with
    | none => s.raise u causeUndef 0
    | some (rb, cb) => s.issueOp u part [] (fun acc => .write acc f.acc.toNat f.a.toNat rb cb part
        ((lanesOf part).map (fun l => (List.range 32).map (fun j => u.g.rdV s.turn 1 (f.a.toNat + j) l))))

/-- MXZERO (R180). -/
def execMxzero (f : MX) (s : State) : Host.Outcome State Fault Refusal := s.issue fun u =>
  let part := u.g.participating u.slot s.turn f.toCommon
  s.byOwnerLanes u f.pair part <| s.issueOp u part [] (fun acc => .zero acc f.acc.toNat f.pair)

/-- MXST (R181). -/
def execMxst (f : MX) (s : State) : Host.Outcome State Fault Refusal := s.issue fun u =>
  let part := u.g.participating u.slot s.turn f.toCommon
  let a := (u.g.rdS u.slot s.turn 2 f.u.toNat).toNat
  s.byOwnerLanes u f.pair part <|
    if a / 2 ^ 22 ≠ 0 then s.raise u causeUndef 0
    else if a % 128 ≠ 0 then s.raise u causeMisalign 0
    else s.issueOp u part [] (fun acc => .store acc f.acc.toNat f.t.toNat a f.pair)

/-! ## Failing sub-arrays -/

/-- How many sub-arrays a set holds. -/
def subArrays (b : Byte) : Nat := ((List.range 8).filter (fun i => b.getLsbD i)).length

/-- The words of a machine-check record that name a core: its number on its die, and the die (R364). -/
def coreDetail (core : Nat) : Nat := core % 128 + 256 * coreDie core

/-- A machine-check record that a core raises, which carries its count (R288, R364). -/
def State.coreCheck (s : State) (core cls detail5 : Nat) : State :=
  s.machineCheckTo 0 (s.core core).lclk cls (coreDetail core) detail5

/-- Clears feature bits of a core (R37). -/
def State.clearFeatures (s : State) (core : Nat) (bits : BitVec 5) : State :=
  s.setCore core { s.core core with featm := (s.core core).featm &&& ~~~bits }

/-- The size of a block's save image (R339): its groups, its allotments, the arrays that its groups own. -/
def State.imageSize (s : State) (b : Block) : Nat :=
  let gs := (s.blockGroups b.id).filter Group.live
  let spad := match s.grid? b.grid with
    | some x => x.launch.spad
    | none => 0
  let mine := fun (m : Matrix) => gs.any (fun g => m.owner == some g.id)
  let around := (b.cores.flatMap (fun c => [c, pairOther c])).eraseDups
  4096 + (gs.map (fun g => 4096 * g.slabs + 12288)).foldl (· + ·) 0 + b.cores.length * ((spad + 4095) / 4096 * 4096) +
    163840 * (around.filter (fun c => mine (s.matrix c))).length

/-- Does a block hold a place of its context's save area? -/
def Block.imaged (b : Block) : Bool := b.state == .saving || b.state == .saved || b.state == .woken

/-- The first place of the save area with room for `n` bytes among the places taken. -/
def firstFit (total n : Nat) (taken : List (Nat × Nat)) : Option Nat :=
  let free := fun (a : Nat) => decide (a + n ≤ total) && taken.all (fun e => decide (a + n ≤ e.1) || decide (e.1 + e.2 ≤ a))
  (0 :: taken.map (fun e => e.1 + e.2)).foldl (fun m a => if free a then (match m with
    | none => some a
    | some b => some (min a b)) else m) none

/-- A slot of a block whose save is requested: parked at a pre-emption point it leaves its park without effect and issues again, but for
an arrival at a barrier, a watch, a sleep, an exchange and a self-test, which stand until the image is taken (R123, R182, R209, R338). -/
def Slot.quit (x : Slot) : Slot :=
  match x.wait with
  | none => x
  | some w =>
    match w.instr with
    | .sleep _ => x
    | .bar _ => x
    | .bara _ => x
    | .barw _ => x
    | .waitw _ => x
    | .xch _ => x
    | .mxtest _ => x
    | _ => { x with wait := none }

/-- The slots of a group leave their parks at a save request: an MXACQ leaves its FIFO, and an MCLEAVE has had no effect (R184, R209). -/
def State.quitParks (s : State) (g : Group) : State :=
  let s := (s.setGroup { g with a := g.a.quit, b := g.b.quit }).leaveFifo g
  { s with mgroups := s.mgroups.map (fun (m : MGroup) =>
      { m with members := m.members.map (fun (y : Member) => if y.gid = g.id then { y with leaving := y.leaving && g.life == .retired } else y) }) }

/-- A block takes room in the save area and is being saved from now on; none where the area lacks the room (R338). -/
def State.beginSave (s : State) (b : Block) : Option State :=
  let n := s.imageSize b
  let taken := (s.blocks.filter (fun y => y.cid == b.cid && y.imaged)).map (fun y => (y.savedBase, y.savedSize))
  (firstFit (bitsAt (s.ctxWord b.cid 5) 0 48) n taken).map (fun a =>
    (s.blockGroups b.id).foldl State.quitParks (s.setBlock { b with state := .saving, savedBase := a, savedSize := n }))

/-- A save requested of the resident blocks of a unit (R338, R242): all of them, or none. -/
def State.beginSaves (s : State) : List Block → Option State
  | [] => some s
  | b :: rest => if b.state = .resident then (s.beginSave b).bind (fun s => State.beginSaves s rest) else State.beginSaves s rest

/-- Could a save be requested of the unit of this block, with the room that the save area has? -/
def State.saveable (s : State) (b : Block) : Bool := b.state == .resident && (s.beginSaves (s.mates b)).isSome

/-- A save is requested of a block, and with it of its gang unit: they stop issuing at their next pre-emption points (R338). -/
def State.requestSave (s : State) (block : Nat) : State :=
  match s.block? block with
  | some b => if b.state = .resident then (s.beginSaves (s.mates b)).getD s else s
  | none => s

/-- What a failing maquette product leads to (R183, R378): the first failing sub-array is fenced and MXPAIR goes in the pair; a second
one takes MX away, and a block that owned the array is saved. -/
def State.failSubArrays (s : State) (core : Nat) (failing : Byte) : State :=
  let m := s.matrix core
  let all := m.fenced ||| failing
  if all = m.fenced then s
  else
    let s := s.setMatrix core { m with fenced := all }
    let s := (s.clearFeatures core 2).clearFeatures (pairOther core) 2
    let detail := all.toNat + m.count * 2 ^ 32
    let s := if subArrays m.fenced = 0 then s.coreCheck core 4 detail else s
    if subArrays all < 2 then s
    else
      let s := (s.clearFeatures core 1).coreCheck core 5 detail
      match m.owner.bind s.group? with
      | some g => s.requestSave g.block
      | none => s

/-- A maquette product on an array with these sub-arrays failing: the count of operations and the interval start anew (R378). -/
def State.maquette (s : State) (core : Nat) (failing : Byte) : State :=
  let s := s.failSubArrays core failing
  s.setMatrix core { s.matrix core with count := 0, lastTestFc := s.fc }

/-- MXTEST (R182): 128 ac later S[u] holds the failing sub-arrays of the test's free outcome. -/
def execMxtest (f : MX) (s : State) : Host.Outcome State Fault Refusal := s.issue fun u =>
  match u.slot.wait with
  | none => s.byOwner u f.pair <|
      s.park u.g u.name (.mxtest f) [] (.clockTest ((s.die (coreDie u.g.core)).clock.toNat + 128))
  | some w =>
    let due := match w.cond with
      | .clockTest ac => decide (ac ≤ (s.die (coreDie u.g.core)).clock.toNat)
      | _ => true
    if !due then s
    else
      let lea : Byte := BitVec.ofNat 8 (Config.pick s.turn 6 u.g.core)
      let fol : Byte := if f.pair then BitVec.ofNat 8 (Config.pick s.turn 6 (pairOther u.g.core)) else 0
      let g := u.g.writeNow s.turn (.s (sName u.slot f.u.toNat)) (BitVec.ofNat 64 (lea.toNat + 256 * fol.toNat))
      let s := (s.advance g u.name).maquette u.g.core lea
      if f.pair then s.maquette (pairOther u.g.core) fol else s

/-- MAQUETTE_TEST (R378): after 4,096 operations, or 1 ms since the last test. -/
def execMaquetteTest (s : State) : Host.Outcome State Fault Refusal := whenDue (
  let core := s.arg 0
  let m := s.matrix core
  if core < 512 ∧ s.coreRuns core ∧ (4096 ≤ m.count ∨ m.lastTestFc + 1600000 ≤ s.fc) then
    some (s.maquette core (BitVec.ofNat 8 (s.arg 1)))
  else none)

/-! ## The product -/

/-- The K pairs of one K-step (R171). -/
def kPerStep (t : Nat) : Nat := if t = 15 then 128 else if t = 11 ∨ t = 12 then 32 else 64

/-- The element of A at place `k` of step `st`, from a row's registers: its code, and for e2m1 its metadata (R171). -/
def aCode (t ks : Nat) (row : List Word) (st k : Nat) : Nat × Nat :=
  let w := fun (i : Nat) => (row.getD i 0).toNat
  if t = 15 then
    (w (16 * st + k / 8) / 16 ^ (k % 8) % 16, w (16 * ks + 2 * st + k / 32 / 2) / 2 ^ (16 * (k / 32 % 2)) % 2 ^ 16)
  else if kPerStep t = 32 then (w (16 * st + k / 2) / 2 ^ (16 * (k % 2)) % 2 ^ 16, 0)
  else (w (16 * st + k / 4) / 2 ^ (8 * (k % 4)) % 2 ^ 8, 0)

/-- The bytes of a step of B in the scratchpad, by physical offset (R172). -/
def stepBytes (t : Nat) : Nat := if t = 15 then 9216 else 8192

/-- The element of B at (k, j) of a step, from the step's bytes (R172). -/
def bCode (t swz : Nat) (bs : List Byte) (k j : Nat) : Nat × Nat :=
  let at_ := fun (o : Nat) => (bs.getD (swizzle swz o) 0).toNat
  if t = 15 then
    let c := at_ (16 * (4 * j + k / 32) + k % 32 / 2)
    let o := 8192 + 2 * (4 * j + k / 32)
    (if k % 2 = 0 then c % 16 else c / 16, at_ o + 256 * at_ (o + 1))
  else if kPerStep t = 32 then (at_ (256 * k + 2 * j) + 256 * at_ (256 * k + 2 * j + 1), 0)
  else (at_ (128 * k + j), 0)

/-- The exact value of an element (R70, R75). -/
def mxVal (t : Nat) (bsp : Bool) (c : Nat × Nat) : Val :=
  if t = 15 then decodeE2M1 c.1 (c.2 / 256) (c.2 % 256) bsp else (fmtOf t).widen c.1

/-- The exact sum of the products of a K-step (R78). -/
def stepSum (ps : List (Val × Val)) : Val :=
  match ps with
  | [] => .zero false
  | p :: rest => rest.foldl (fun v q => Val.add false v (q.1.mul q.2)) (p.1.mul p.2)

/-- One K-step added to an accumulator word (R78, R79). -/
def addStep (acc : Nat) (t tb : Nat) (bsp : Bool) (ps : List ((Nat × Nat) × (Nat × Nat))) (x : Nat) : Nat :=
  if acc = 1 then
    modBits 32 (ps.foldl (fun v p => v + readInt 8 (intSigned t) p.1.1 * readInt 8 (intSigned tb) p.2.1) (x : Int))
  else faddCode 9 x ((fmtOf 9).round 0 0 0 (stepSum (ps.map (fun p => (mxVal t bsp p.1, mxVal tb bsp p.2))))).1

/-- One element of the product: every step in ascending order (R78). -/
def mxElement (acc t tb ks swz : Nat) (bsp : Bool) (row : List Word) (b : List (List Byte)) (j x : Nat) : Nat :=
  (List.range ks).foldl (fun x st =>
    addStep acc t tb bsp ((List.range (kPerStep t)).map (fun k => (aCode t ks row st k, bCode tb swz (b.getD st []) k j))) x) x

/-- The bytes of a step of B: a byte outside the allotment reads zero; one of the block stored since the operation issued is undefined
(R172, R176). The spec names no error for a poisoned row that B is read from: its bytes read as stored (assumption 9). -/
def State.bStep (s : State) (core block addr n : Nat) (touched : List (Nat × Nat)) : List Byte :=
  let (base, size) := s.allot core block
  let bs := s.spRead core block addr n
  if touched.isEmpty then bs
  else (List.range n).map (fun i =>
    if addr + i < size && touched.any (fun e => e.1 ≤ base + addr + i && base + addr + i < e.1 + e.2) then
      (Config.freeWord s.turn (300000 + addr + i)).setWidth 8
    else bs.getD i 0)

/-- The place of a bank word (R173). -/
def bankPlace (bank row col : Nat) : Nat := bank * 16384 + 128 * row + col

/-- Replaces words of a row of a bank. -/
def Matrix.putRow (m : Matrix) (bank row col : Nat) (ws : List Word) : Matrix :=
  { m with acc := Sparse.setMany m.acc (bankPlace bank row col) ws }

/-- A row of a position: its product, or free values where the slice is undefined (R175, R176). -/
def State.productRow (s : State) (m : Matrix) (bank fa fb acc ks swz : Nat) (bsp za : Bool) (b : List (List Byte)) (row : Nat)
    (words : Option (List Word)) : Matrix :=
  m.putRow bank row 0 ((List.range 128).map (fun j =>
    match words with
    | none => (Config.freeWord s.turn (400000 + bankPlace bank row j)).setWidth 32
    | some ws => BitVec.ofNat 32 (mxElement acc fa fb ks swz bsp ws b j (if za then 0 else (Sparse.get m.acc (bankPlace bank row j)).toNat))))

/-- The accumulator rows of one position (R171, R176). -/
def State.productSlice (s : State) (owner bank fa fb acc ks swz : Nat) (bsp za : Bool) (b : List (List Byte)) (e : Nat × ASlice) : State :=
  let c := positionCore owner e.1
  let m := laneList.foldl (fun m l =>
    s.productRow m bank fa fb acc ks swz bsp za b (32 * (e.1 % 4) + l) (if e.2.words.isEmpty then none else some (e.2.words.getD l [])))
    (s.matrix c)
  s.setMatrix c { m with kind := m.kind.set bank (acc == 1) }

/-! ## Poisoned bank words -/

/-- The words of a bank that an operation reads, by core: rows and columns (R185). -/
def MxOp.reads (o : MxOp) (owner : Nat) : List (Nat × List Nat) :=
  match o with
  | .product _ bank _ _ _ _ _ za _ _ slices _ =>
    if za then [] else slices.map (fun e => (positionCore owner e.1, (List.range 4096).map (· + bankPlace bank (32 * (e.1 % 4)) 0)))
  | .read _ bank _ rb cb lanes =>
    [(positionCore owner rb, (lanesOf lanes).flatMap (fun l => (List.range 32).map (· + bankPlace bank (32 * (rb % 4) + l) (32 * cb))))]
  | .store _ bank _ _ pair =>
    (if pair then [owner, pairOther owner] else [owner]).map (fun c => (c, (List.range 16384).map (· + bankPlace bank 0 0)))
  | _ => []

/-- The words it overwrites (R185). -/
def MxOp.overwrites (o : MxOp) (owner : Nat) : List (Nat × List Nat) :=
  match o with
  | .product _ bank _ _ _ _ _ za _ _ slices _ =>
    if za then slices.map (fun e => (positionCore owner e.1, (List.range 4096).map (· + bankPlace bank (32 * (e.1 % 4)) 0))) else []
  | .write _ bank _ rb cb lanes _ =>
    [(positionCore owner rb, (lanesOf lanes).flatMap (fun l => (List.range 32).map (· + bankPlace bank (32 * (rb % 4) + l) (32 * cb))))]
  | .zero _ bank pair =>
    (if pair then [owner, pairOther owner] else [owner]).map (fun c => (c, (List.range 16384).map (· + bankPlace bank 0 0)))
  | _ => []

/-- The access that counts an operation. -/
def MxOp.access : MxOp → Nat
  | .product a _ _ _ _ _ _ _ _ _ _ _ => a
  | .read a _ _ _ _ _ => a
  | .write a _ _ _ _ _ _ => a
  | .zero a _ _ => a
  | .store a _ _ _ _ => a

/-- The words that turn out uncorrectable as an operation reads them: poisoned, with a record (R185, R364). A word is found by its place
in the leader's banks, or 32,768 above it in the follower's. -/
def State.spoilWords (s : State) (o : MxOp) (owner : Nat) (found : List Nat) : State :=
  (o.reads owner).foldl (fun s e =>
    let here := (found.filter (fun w => w / 32768 == (if e.1 = owner then 0 else 1))).map (· % 32768)
    (here.filter (fun w => e.2.contains w && !(s.matrix e.1).bad.contains w)).foldl (fun s w =>
      let m := s.matrix e.1
      (s.setMatrix e.1 { m with bad := w :: m.bad }).coreCheck e.1 6 (w / 16384 + 2 * (w % 16384))) s) s

/-- The rows, as lanes, of the poisoned words that an operation reads. -/
def State.badLanes (s : State) (o : MxOp) (owner : Nat) : Mask :=
  (o.reads owner).foldl (fun m e =>
    let hit := (s.matrix e.1).bad.filter e.2.contains
    m ||| maskOf (fun l => hit.any (fun w => w % 16384 / 128 % 32 == l))) 0

/-- The words an operation overwrites are sound. -/
def State.mendWords (s : State) (o : MxOp) (owner : Nat) : State :=
  (o.overwrites owner).foldl (fun s e =>
    let m := s.matrix e.1
    s.setMatrix e.1 { m with bad := m.bad.filter (fun w => !e.2.contains w) }) s

/-! ## Retirement -/

/-- The bytes of a row that MXST writes (R181): words as held, or rounded by RoundTo(…, 0, 0), so to nearest and without saturation whatever SAT
and FMT hold (assumption 22); undefined after an integer operation, and for a poisoned word. -/
def State.storeRow (s : State) (m : Matrix) (bank t row : Nat) : List Byte :=
  (List.range 128).flatMap (fun j =>
    let place := bankPlace bank row j
    let free := (Config.freeWord s.turn (500000 + place)).toNat
    let w := if m.bad.contains place then free % 2 ^ 32 else (Sparse.get m.acc place).toNat
    if t = 0 then leBytes 4 w
    else leBytes 2 (if m.kind.getD bank false then free % 2 ^ 16 else ((fmtOf t).round 0 0 0 ((fmtOf 9).widen w)).1))

/-- MXST's writes into a core's scratchpad, at one address, for the owner (R181, R191). -/
def State.storeBank (s : State) (gid core block bank t addr : Nat) : State :=
  let size := if t = 0 then 512 else 256
  let s := (List.range 128).foldl (fun s row =>
    s.spWrite core block (addr + size * row) (s.storeRow (s.matrix core) bank t row)) s
  s.raceCopies gid (some core) ((s.allot core block).1 + addr) (128 * size)

/-- The words MXWR puts into a row: those captured, free where a source register was written since (R178, R179). -/
def State.tileRow (s : State) (g : Group) (turn reg l : Nat) (ws : List Word) : List Word :=
  (List.range 32).map (fun j =>
    if g.wrote.any (fun e => turn < e.1 && e.2 == .v (reg + j) l) then (Config.freeWord s.turn (600000 + 32 * l + j)).setWidth 32
    else ws.getD j 0)

/-- The owner's slice that an operation took, turned undefined: it found the registers written (R178). -/
def ASlice.spoil (acc : Nat) (e : Nat × ASlice) : Nat × ASlice := if e.1 = 0 ∧ e.2.op = acc then (e.1, { e.2 with words := [] }) else e

/-- The copies of that slice, in the latch and in the operations that take it from there, turned undefined with it (R177, R178). -/
def Matrix.spoilLatch (m : Matrix) (acc : Nat) : Matrix :=
  { m with
    latch := m.latch.map (fun l => l.map (ASlice.spoil acc))
    ops := m.ops.map (fun o => match o with
      | .product a bank fa fb f ks bsp za pair baddr slices t => .product a bank fa fb f ks bsp za pair baddr (slices.map (ASlice.spoil acc)) t
      | o => o) }

/-- A tile that MXRD brings to a group's registers; a lane with a poisoned word keeps its old values (R98, R185). -/
def Group.readTile (g : Group) (turn since : Nat) (m : Matrix) (bank reg row col : Nat) (lanes : Mask) : Group :=
  if !g.live then g
  else
    let bad := fun (l : Nat) => (List.range 32).any (fun j => m.bad.contains (bankPlace bank (row + l) (col + j)))
    (lanesOf lanes).foldl (fun g l =>
      if bad l then g
      else (List.range 32).foldl (fun g j =>
        g.deliver turn since (.v (reg + j) l) ((Sparse.get m.acc (bankPlace bank (row + l) (col + j))).setWidth 64)) g) g

/-- What an operation does as it retires, for its owner on its core (R176, R179 to R181). MXWR leaves open whether the bank's last product was
one of integers: it stays as it was (assumption 22). -/
def State.retireOp (s : State) (g : Group) (o : MxOp) : State :=
  let c := g.core
  let turn := match g.access? o.access with
    | some a => a.turn
    | none => 0
  match o with
  | .product id bank fa fb acc ks bsp za _ baddr slices touched =>
    let raced := slices.any (fun e => e.1 == 0 && g.slicesRaced e.2)
    let slices := if raced then slices.map (ASlice.spoil id) else slices
    let b := (List.range ks).map (fun st => s.bStep c g.block (baddr % 2 ^ 22 + st * stepBytes fb) (stepBytes fb) touched)
    let s := if raced then s.setMatrix c ((s.matrix c).spoilLatch id) else s
    slices.foldl (fun s e => s.productSlice c bank fa fb acc ks (bitsAt baddr 22 2) bsp za b e) s
  | .read _ bank reg rb cb lanes =>
    s.setGroup (g.readTile s.turn turn (s.matrix (positionCore c rb)) bank reg (32 * (rb % 4)) (32 * cb) lanes)
  | .write _ bank reg rb cb lanes words =>
    let d := positionCore c rb
    let ls := lanesOf lanes
    s.setMatrix d ((List.range ls.length).foldl (fun m i =>
      let l := ls.getD i 0
      m.putRow bank (32 * (rb % 4) + l) (32 * cb) (s.tileRow g turn reg l (words.getD i []))) (s.matrix d))
  | .zero _ bank pair =>
    let clear := fun (s : State) (d : Nat) =>
      let m := s.matrix d
      s.setMatrix d { m with acc := Sparse.clearRange m.acc (bankPlace bank 0 0) (bankPlace (bank + 1) 0 0), kind := m.kind.set bank false }
    if pair then clear (clear s c) (pairOther c) else clear s c
  | .store _ bank t addr pair =>
    let s := s.storeBank g.id c g.block bank t addr
    if pair then s.storeBank g.id (pairOther c) g.block bank t addr else s

/-- MX_OP_RETIRE (R176, R185), whose TIERFAULT has tag 0, since no request made it (assumption 22): the oldest operation of a core's array, with the bank words found uncorrectable as it reads them. -/
def execMxOpRetire (s : State) : Host.Outcome State Fault Refusal := whenDue (do
  let core := s.arg 0
  let o ← (s.matrix core).ops.head?
  let gid ← (s.matrix core).owner
  let g ← s.group? gid
  if g.core ≠ core ∨ !s.coreRuns core then none
  else
    let s := s.spoilWords o core (s.args.drop 1)
    let bad := s.badLanes o core
    let s := (s.retireOp g o).mendWords o core
    let m := s.matrix core
    let rest := m.ops.drop 1
    let s := s.setMatrix core { m with ops := rest, count := m.count + 1 }
    let g ← s.group? gid
    let e : Failure := { lanes := bad, tier := 0, label := 0, reason := 10, tag := 0, lost := false }
    let pc := match g.access? o.access with
      | some a => a.pc
      | none => 0
    let s := if bad = 0 then s else s.setGroup { g with mxErrors := g.mxErrors ++ [(e, pc)] }
    let s := s.settleAccess gid o.access
    let g ← s.group? gid
    some ((s.releaseRetired g).syncFeeding))

end Sys2Proof.Machine
end

