-- ==== Sys2Proof/Machine/Copy.lean ====
section
/-! DEFINITION. The copy instructions (R189, R190, R193, R194) and the copy engine's work on a request (R192). -/
namespace Sys2Proof.Machine
open Sys2Proof

/-! ## CPY -/

/-- The octet's engine as the source of a request tag (R365). -/
def engineTag (octet : Nat) (seq : Word) : DWord :=
  BitVec.ofNat 64 (2 ^ 62 + octet / 4 * 2 ^ 60 + octet % 4 * 2 ^ 58 + seq.toNat)

/-- The next issue sequence number of an octet's engine. -/
def State.nextEngineSeq (s : State) (octet : Nat) : State × Word :=
  let n := Sparse.get s.engineSeq octet
  ({ s with engineSeq := Sparse.set s.engineSeq octet (n + 1) }, n)

/-- Inserts a slice in ascending group index (R192). -/
def insertSlice (index : Nat → Nat) (x : Slice) : List Slice → List Slice
  | [] => [x]
  | y :: rest => if index x.gid < index y.gid then x :: y :: rest else y :: insertSlice index x rest

/-- Adds a group's slice to the block's request of the same number, which the first slice makes (R190). -/
def State.addSlice (s : State) (g : Group) (x : Slice) : State × Nat :=
  let index := fun (gid : Nat) => match s.group? gid with
    | some y => y.index
    | none => 0
  match s.copyReq? g.block g.copies with
  | some r => (s.setCopyReq { r with slices := insertSlice index x r.slices }, r.id)
  | none =>
    let (id, s) := s.fresh
    let (s, seq) := s.nextEngineSeq (s.blockOctet g.block)
    let r : CopyReq := { id := id, block := g.block, number := g.copies, slices := [x], started := false, progress := 0,
                         suspended := none, stopped := none, finished := false, told := [], raced := [], seq := seq }
    ({ s with copyReqs := s.copyReqs ++ [r] }, id)

/-- CPY (R189, R190): K[u] and S[a] on to S[a + 6] or S191 are taken at issue; the slot parks only while the engine's queue is full. -/
def State.copy (s : State) (f : EF) (i : Instr) (store : Bool) : Host.Outcome State Fault Refusal := s.issue fun u =>
  let a := f.a.toNat
  if 191 < a + 1 then s.raise u causeUndef 0
  else
    let takes := u.g.uniformGuard s.turn f.toCommon
    let rd := fun (port n : Nat) => (u.g.rdS u.slot s.turn port n).toNat
    let regs := (List.range (min 7 (192 - a))).map (fun j => rd (10 + j) (a + j))
    let ops := [if takes then 1 else 0, (u.g.rdK s.turn 3 (f.u.toNat - 192)).toNat, rd 2 f.b.toNat] ++ regs
    s.await u i ops .engineRoom fun ops =>
      let x : Slice := { gid := u.g.id, store := store, k := BitVec.ofNat 64 (ops.getD 1 0), regs := (ops.drop 3).map (BitVec.ofNat 64),
                         spad := BitVec.ofNat 64 (ops.getD 2 0), first := bitsAt f.imm.toNat 0 16,
                         rows := if ops.getD 0 0 = 1 then bitsAt f.imm.toNat 16 16 else 0, record := [] }
      let (s, id) := s.addSlice u.g x
      (s.advance { u.g with copies := u.g.copies + 1, openBatch := u.g.openBatch ++ [id] } u.name).startCopies u.g.block

/-- CPY.ld. -/
def execCpyLd (f : EF) (s : State) : Host.Outcome State Fault Refusal := s.copy f (.cpyLd f) false
/-- CPY.st. -/
def execCpySt (f : EF) (s : State) : Host.Outcome State Fault Refusal := s.copy f (.cpySt f) true

/-! ## Batches -/

/-- Drops the requests that no batch still needs: those over, whose every batch has finished, and of whose stop every group of such a
batch has been told. -/
def State.pruneCopies (s : State) (block : Nat) : State :=
  let gs := s.blockGroups block
  let needed := fun (r : CopyReq) => gs.any (fun g => g.openBatch.contains r.id ||
    (s.unfinished g).any (fun b => b.requests.contains r.id) ||
    (r.stopped.isSome && g.live && !r.told.contains g.id && g.sealed.any (fun b => b.requests.contains r.id)))
  { s with copyReqs := s.copyReqs.filter (fun r => r.block != block || !(r.finished || r.stopped.isSome) || needed r) }

/-- CPSEAL (R193): at most 16 sealed batches are unfinished at once. -/
def execCpseal (f : EF) (s : State) : Host.Outcome State Fault Refusal := s.issue fun u =>
  s.await u (.cpseal f) [] .sealRoom fun _ =>
    let n := BitVec.ofNat 64 u.g.nextBatch
    s.advance ((u.g.seal f.eb.toNat).writeNow s.turn (.s (sName u.slot f.d.toNat)) n) u.name

/-- $efault of COPYFAULT (R194). -/
def copyEfault (p : Nat) (e : Failure) : DWord :=
  BitVec.ofNat 64 (p % 2 ^ 32 + e.reason % 16 * 2 ^ 32 + e.tier % 4 * 2 ^ 36 + e.label % 2 ^ 15 * 2 ^ 38)

/-- COPYFAULT at a CPWAIT, once for each group whose batch holds the request (R194). -/
def State.copyFault (s : State) (u : Issuer) (r : CopyReq) : State :=
  match r.stopped with
  | none => s
  | some (p, e) =>
    (s.setCopyReq { r with told := u.g.id :: r.told }).trap u.g u.name causeCopyFault (copyEfault p e) u.slot.mask e.tag

/-- CPWAIT (R193, R194): a completed wait acquires the batches' writes (R291). -/
def execCpwait (f : EF) (s : State) : Host.Outcome State Fault Refusal := s.issue fun u =>
  let n := match u.slot.wait with
    | some w => w.ops.getD 0 0
    | none => if f.ea = 1 then (u.g.rdS u.slot s.turn 1 f.a.toNat).toNat else f.imm.toNat
  match s.stoppedCopies u.g n with
  | r :: _ => s.copyFault u r
  | [] => s.await u (.cpwait f) [n] (.batches n) fun _ =>
      ((s.acquireAt u.g).advance u.g u.name).pruneCopies u.g.block

/-! ## The engine -/

/-- What the engine finds at an element, or as it reads a slice. -/
inductive Progress where
  | on
  | waits
  | lookup (f : LookFail) (need : BitVec 5)
  | stop (reason : Nat)
  deriving DecidableEq, Repr

/-- Reads a slice's record if it is not read yet, and checks the slice (R188, R189, R192). -/
def State.prepare (s : State) (x : Slice) : State × Slice × Progress :=
  match s.group? x.gid with
  | none => (s, x, .on)
  | some g =>
    let check := fun (x : Slice) =>
      if x.bad then Progress.stop 12 else if s.spIn g.core g.block 0 x.spadEnd then .on else .stop 13
    if x.empty then (s, x, .on)
    else if x.recordOff % 64 ≠ 0 then (s, x, .stop 12)
    else if !x.record.isEmpty then (s, x, check x)
    else
      match s.reach g.cid g.core x.k rightR [(x.recordOff, 64)] with
      | (s, .failed f) => (s, x, .lookup f rightR)
      | (s, .waits) => (s, x, .waits)
      | (s, .lands ls) =>
        let (s, bs) := s.engineGet (coreDie g.core) ls
        let x := { x with record := eightWords bs }
        (s, x, check x)

/-- Every slice prepared, until one stops the request. -/
def State.prepareAll (s : State) : List Slice → State × List Slice × Progress
  | [] => (s, [], .on)
  | x :: rest =>
    match s.prepare x with
    | (s, x, .on) =>
      let (s, rest, p) := State.prepareAll s rest
      (s, x :: rest, p)
    | (s, x, p) => (s, x :: rest, p)

/-- One element of a CPY.ld (R191). -/
def State.loadElem (s : State) (r : CopyReq) (g : Group) (x : Slice) (i : Nat) : State × Progress :=
  match s.reach g.cid g.core x.k rightR (linePieces (x.gaddr i) x.size) with
  | (s, .failed f) => (s, .lookup f rightR)
  | (s, .waits) => (s, .waits)
  | (s, .lands ls) =>
    if ls.any (fun e => s.egressOn g.id e.1.addr) then (s, .waits) else
    let (s, bs) := s.engineGet (coreDie g.core) ls
    let bs := if s.sourceRaced r x i then freeBytes s.turn (300000 + i) x.size else bs
    ((s.spWrite g.core g.block (x.saddr i) bs).charge g.cid 6 x.size, .on)

/-- One element of a CPY.st (R191). Its scratchpad side is a scratchpad read of the supplying group (R307): one that meets a poisoned row
fails with POISON, and the request stops there (assumption 19). -/
def State.storeElem (s : State) (r : CopyReq) (g : Group) (x : Slice) (i : Nat) : State × Progress :=
  let place := (s.allot g.core g.block).1 + x.saddr i
  let bs := if s.sourceRaced r x i then freeBytes s.turn (300000 + i) x.size else s.spRead g.core g.block (x.saddr i) x.size
  if (s.core g.core).spBad place x.size then (s, .stop 10)
  else match s.reach g.cid g.core x.k rightW (linePieces (x.gaddr i) x.size) with
  | (s, .failed f) => (s, .lookup f rightW)
  | (s, .waits) => (s, .waits)
  | (s, .lands ls) =>
    if ls.any (fun e => s.egressOn g.id e.1.addr) then (s, .waits)
    else ((s.enginePut (coreDie g.core) r.id ls bs).charge g.cid 6 x.size, .on)

/-- The element at the request's progress index (R191). -/
def State.copyElem (s : State) (r : CopyReq) : State × Progress :=
  match locate r.slices r.progress with
  | none => (s, .on)
  | some (x, i) =>
    match s.group? x.gid with
    | none => (s, .on)
    | some g =>
      if x.inbox i then (if x.store then s.storeElem r g x i else s.loadElem r g x i)
      else if x.oob = 2 then (s, .stop 11)
      else if x.oob = 0 && !x.store then ((s.spWrite g.core g.block (x.saddr i) x.fill).charge g.cid 6 x.size, .on)
      else (s, .on)

/-- Some elements in request order, until one holds the engine. -/
def State.copyElems (s : State) (r : CopyReq) : Nat → State × CopyReq × Progress
  | 0 => (s, r, .on)
  | n + 1 =>
    match s.copyElem r with
    | (s, .on) => State.copyElems s { r with progress := r.progress + 1 } n
    | (s, p) => (s, r, p)

/-- The request stops at its first failing element (R192). -/
def State.stopCopy (s : State) (r : CopyReq) (e : Failure) : State :=
  (s.setCopyReq { r with suspended := none, stopped := some (r.progress, e) }).pruneCopies r.block

/-- An element's lookup failed: the record goes to the owner and the engine waits at the element; a dropped record stops the
request (R361, R366). -/
def State.suspendCopy (s : State) (r : CopyReq) (f : LookFail) (need : BitVec 5) : State :=
  let octet := s.blockOctet r.block
  let tag := engineTag octet r.seq
  let cid := match s.block? r.block with
    | some b => b.cid
    | none => 0
  let (s, fq) := s.reportFailure f tag need cid (octet / 4)
  let e : Failure := { lanes := 0, tier := f.tier, label := f.label, reason := f.reason, tag := tag, lost := false }
  match fq with
  | none => s.stopCopy r e
  | some _ => s.setCopyReq { r with suspended := some (e, s.fc) }

/-- The elements of a request. -/
def CopyReq.total (r : CopyReq) : Nat := (r.slices.map (·.count)).foldl (· + ·) 0

/-- Does the engine of an octet wait at a faulting element (R367)? -/
def State.engineHeld (s : State) (octet : Nat) : Bool :=
  s.copyReqs.any (fun r => r.suspended.isSome && s.blockOctet r.block == octet)

/-- COPY_REQUEST_DONE (R192): the engine copies some elements of a started request, a free number of them (assumption 3): to its end, or
up to where it waits or stops. -/
def execCopyRequestDone (s : State) : Host.Outcome State Fault Refusal := whenDue (do
  let r ← s.copyReqs.find? (fun r => r.id == s.arg 0)
  if !r.started || r.finished || r.stopped.isSome || s.engineHeld (s.blockOctet r.block) then none
  else
    let (s1, slices, p) := if r.progress = 0 then s.prepareAll r.slices else (s, r.slices, .on)
    let r := { r with slices := slices }
    let left := r.total - r.progress
    let some_ := Config.pick s.turn 20 r.id
    let (s1, r', p) := match p with
      | .on => s1.copyElems r (if some_ = 0 then left else min some_ left)
      | p => (s1, r, p)
    match p with
    | .on =>
      some (if r'.progress < r'.total then s1.setCopyReq r'
        else (s1.setCopyReq { r' with finished := true }).pruneCopies r.block)
    | .waits => if r'.progress = r.progress then none else some (s1.setCopyReq r')
    | .lookup f need => some (s1.suspendCopy r' f need)
    | .stop reason =>
      some (s1.stopCopy r' { lanes := 0, tier := 0, label := 0, reason := reason, tag := engineTag (s.blockOctet r.block) r.seq,
                             lost := false }))

end Sys2Proof.Machine
end

