-- ==== Sys2Proof/Machine/Sync.lean ====
section
/-! DEFINITION. Barriers (R195), barrier objects (R197, R198), scratchpad queues (R204), waits on counters and on memory (R205, R206),
registers on demand (R207), LAUNCH (R208). -/
namespace Sys2Proof.Machine
open Sys2Proof

/-! ## Hardware barriers -/

/-- The issuing slot's arrival at a level, or the group's, in the current phase of its unit's barrier (R195). -/
def Issuer.arrivalOut (u : Issuer) (b : Barrier) : Bool :=
  u.g.arrivals.contains (b.level, b.phase, u.name == .b) || b.arrived.contains u.g.id

/-- The barrier of the issuing group's unit at a level. -/
def State.unitBarrier (s : State) (g : Group) (n : Nat) : Barrier := s.barrier (s.gridId g) n (g.unitPath (s.launch g).top n)

/-- A wait at a barrier is over: it acquires at the level's scope (R269), and the slot goes on. -/
def State.barrierDone (s : State) (u : Issuer) : State := (s.acquireAt u.g).advance u.g u.name

/-- The slot's arrival recorded, and the phase completed if that was the last (R195). -/
def State.arriveAt (s : State) (u : Issuer) (b : Barrier) : State × Group :=
  let g := { u.g with arrivals := u.g.arrivals.filter (fun e => e.1 != b.level || e.2.1 == b.phase) ++ [(b.level, b.phase, u.name == .b)] }
  ((((s.setGroup g).setBarrier b).settleBarriers).foldCount g.core, g)

/-- The arrive and wait parts of BAR, BARA and BARW at the current phase (R195). The captured operand tells a slot that waits for its
own phase, 1, from one whose second BARA waits to arrive, 0. -/
def State.barStep (s : State) (u : Issuer) (i : Instr) (n : Nat) (arrive wait : Bool) : State :=
  let b := s.unitBarrier u.g n
  let out := u.arrivalOut b
  if !arrive then (if out then s.park u.g u.name i [1] (.barrier n b.phase) else s.barrierDone u)
  else if out then s.park u.g u.name i [0] (.barrier n b.phase)
  else
    let (s, g) := s.arriveAt u b
    if !wait then s.advance g u.name
    else if b.phase < (s.unitBarrier g n).phase then s.barrierDone { u with g := g }
    else s.park g u.name i [1] (.barrier n b.phase)

/-- BAR, BARA and BARW (R195): UNDEF above the top level; BARSTALL above the block level without a gang there (R242). -/
def State.bar (s : State) (f : EF) (i : Instr) (arrive wait : Bool) : Host.Outcome State Fault Refusal := s.issue fun u =>
  let n := f.eb.toNat
  let l := s.launch u.g
  if l.top < n then s.raise u causeUndef 0
  else if l.blockLevel < n && l.gangLevels.all (fun m => decide (m < n)) then s.raise u causeBarStall (BitVec.ofNat 64 n)
  else
    match u.slot.wait with
    | some w =>
      if !s.condHolds u.g w then s
      else if w.ops.getD 0 0 = 1 then s.barrierDone u
      else s.barStep u i n arrive wait
    | none => s.barStep u i n arrive wait

/-- BAR: BARA, then BARW. -/
def execBar (f : EF) (s : State) : Host.Outcome State Fault Refusal := s.bar f (.bar f) true true
/-- BARA. -/
def execBara (f : EF) (s : State) : Host.Outcome State Fault Refusal := s.bar f (.bara f) true false
/-- BARW. -/
def execBarw (f : EF) (s : State) : Host.Outcome State Fault Refusal := s.bar f (.barw f) false true

/-! ## Objects -/

/-- The trap of an object in a poisoned row (R254). -/
def State.poisonTrap (s : State) (u : Issuer) : State := s.raise u causeTierFault (tierEfault 0 0 10 u.slot.pc)

/-- Runs an instruction on the object of `n` bytes that a word names: MISALIGN where R187 refuses it, the trap of R254 in a poisoned
row. The object's core and its place in the scratchpad are handed on. -/
def State.onObject (s : State) (u : Issuer) (w : DWord) (n : Nat) (k : Nat → Nat → State) : State :=
  let (core, a) := objectPlace u.g.core w
  let place := (s.allot core u.g.block).1 + a
  if !s.objectOk u.g w n then s.raise u causeMisalign 0
  else if s.objectBad core place n then s.poisonTrap u
  else k core place

/-- Register S[n] of the issuing slot, through a read port. -/
def Issuer.sreg (u : Issuer) (turn port n : Nat) : DWord := u.g.rdS u.slot turn port n

/-- The result of a blocking instruction, written before the slot issues again (R187). -/
def State.answer (s : State) (u : Issuer) (d : BitVec 9) (v : Nat) : State :=
  s.advance (u.g.writeNow s.turn (.s (sName u.slot d.toNat)) (BitVec.ofNat 64 v)) u.name

/-- BOINIT (R197): a count of 0 raises UNDEF. -/
def execBoinit (f : EF) (s : State) : Host.Outcome State Fault Refusal := s.issue fun u =>
  let count := (u.sreg s.turn 2 f.b.toNat).toNat % 2 ^ 32
  if count = 0 then s.raise u causeUndef 0
  else s.onObject u (u.sreg s.turn 1 f.a.toNat) 16 fun core place =>
    (s.initHeader core place { count := count, init := count, phase := 0, level := f.eb.toNat, frsn := 0, ftier := 0, ovr := false,
                               flt := false : BObj }.pack true).advance u.g u.name

/-- BOARR (R197): the phase arrived at is returned. -/
def execBoarr (f : EF) (s : State) : Host.Outcome State Fault Refusal := s.issue fun u =>
  s.onObject u (u.sreg s.turn 1 f.a.toNat) 16 fun core place =>
    let (s, phase) := (s.foldCount u.g.core).boArrive core place f.imm.toNat
    s.answer u f.d phase

/-- Marks every slot parked in BOWAIT on an object and phase: each takes BARSTALL (R198). -/
def State.stallAll (s : State) (core place : Nat) (phase : Word) : State :=
  let mark := fun (x : Slot) =>
    if x.objectWait == some (core, place, phase) then
      { x with wait := x.wait.map (fun (w : Wait) => { w with done := true, ops := w.ops ++ [1] }) }
    else x
  { s with groups := s.groups.map (fun g => if g.life = .resident then { g with a := mark g.a, b := mark g.b } else g) }

/-- What a BOWAIT that may go on does: the fault of a failed fill (R202), the stall of R198, or the acquire of the phase (R269). -/
def State.boDone (s : State) (u : Issuer) (core place : Nat) (phase : Word) : State :=
  let o := s.bobj core place
  if o.flt then s.raise u causeTierFault (tierEfault o.ftier 0 o.frsn u.slot.pc)
  else if (match u.slot.wait with
      | some w => w.ops.getD 3 0 == 1
      | none => false) then s.raise u causeBarStall (BitVec.ofNat 64 o.level)
  else if s.objectStalled u.g core place phase then (s.stallAll core place phase).raise u causeBarStall (BitVec.ofNat 64 o.level)
  else (s.acquireAt u.g).advance u.g u.name

/-- BOWAIT (R197). -/
def execBowait (f : EF) (s : State) : Host.Outcome State Fault Refusal := s.issue fun u =>
  match u.slot.wait with
  | some w =>
    if s.condHolds u.g w then
      (s.freeHeader (w.ops.getD 0 0) (w.ops.getD 1 0)).boDone u (w.ops.getD 0 0) (w.ops.getD 1 0) (BitVec.ofNat 32 (w.ops.getD 2 0))
    else s
  | none =>
    let phase := (u.sreg s.turn 2 f.b.toNat).setWidth 32
    s.onObject u (u.sreg s.turn 1 f.a.toNat) 16 fun core place =>
      let s := s.freeHeader core place
      s.await u (.bowait f) [core, place, phase.toNat] (.object core place phase) fun _ => s.boDone u core place phase

/-! ## Queues -/

/-- Is a slot of a group other than this one parked on the queue? -/
def State.parkedOn (s : State) (core place but : Nat) : Bool :=
  s.groups.any (fun g => g.life == .resident && g.id != but && [g.a, g.b].any (fun x => match x.wait with
    | some w => (match w.cond with
      | .queueRoom c a _ => c == core && a == place
      | .queueItem c a _ => c == core && a == place
      | _ => false)
    | none => false))

/-- QINIT (R204): on a queue that another group is parked on, its behaviour is undefined from then on. -/
def execQinit (f : EF) (s : State) : Host.Outcome State Fault Refusal := s.issue fun u =>
  let cap := f.imm.toNat
  s.onObject u (u.sreg s.turn 1 f.a.toNat) (16 + 4 * cap) fun core place =>
    let taken := s.parkedOn core place u.g.id
    let s := s.initHeader core place { head := 0, tail := 0, allow := cap, cap := cap : QObj }.pack false
    let c := s.core core
    (if taken then s.setCore core { c with spoiled := place :: c.spoiled } else s).advance u.g u.name

/-- Runs an instruction on a queue, all of it checked, by the capacity its header holds (R203). -/
def State.onQueue (s : State) (u : Issuer) (w : DWord) (k : State → Nat → Nat → State) : State :=
  s.onObject u w 16 fun core place =>
    let s := s.freeHeader core place
    s.onObject u w (16 + 4 * (s.qobj core place).cap) fun core place => k s core place

/-- QPUSH once its fence is done: it pushes, or parks for room (R204). -/
def State.pushStep (s : State) (u : Issuer) (i : Instr) (w : DWord) (handle : Nat) : State :=
  s.onQueue u w fun s core place =>
    let c : Cond := .queueRoom core place s.turn
    let room : Wait := { instr := i, ops := [], cond := c, done := false, turn := s.turn, fc := s.fc }
    if s.condHolds u.g room then ((s.foldCount u.g.core).qPush core place handle).advance u.g u.name
    else s.park u.g u.name i [w.toNat, handle, 1] c

/-- QPUSH (R204): first the wait of FENCE.release.clus. -/
def execQpush (f : EF) (s : State) : Host.Outcome State Fault Refusal := s.issue fun u =>
  let (w, handle, stage, turn) := match u.slot.wait with
    | some x => (BitVec.ofNat 64 (x.ops.getD 0 0), x.ops.getD 1 0, x.ops.getD 2 0, x.turn)
    | none => (u.sreg s.turn 1 f.a.toNat, (u.sreg s.turn 2 f.b.toNat).toNat % 2 ^ 32, 0, s.turn)
  if stage = 1 then
    (match u.slot.wait with
      | some x => if s.condHolds u.g x then s.onQueue u w fun s core place => ((s.foldCount u.g.core).qPush core place handle).advance u.g u.name else s
      | none => s)
  else s.onQueue u w fun s _ _ =>
    match oldestFailed (u.g.fenced false true turn) with
    | some a => s.deliverFailure u.g u.name a
    | none =>
      if s.fenceHolds u.g false true 2 turn then s.pushStep u (.qpush f) w handle
      else if u.slot.wait.isSome then s
      else s.park u.g u.name (.qpush f) [w.toNat, handle, 0] (.fence false true 2 s.turn)

/-- QPOP (R204): it acquires what the push's wait covered (R269). -/
def execQpop (f : EF) (s : State) : Host.Outcome State Fault Refusal := s.issue fun u =>
  let w := match u.slot.wait with
    | some x => BitVec.ofNat 64 (x.ops.getD 0 0)
    | none => u.sreg s.turn 1 f.a.toNat
  s.onQueue u w fun s core place =>
    s.await u (.qpop f) [w.toNat] (.queueItem core place s.turn) fun _ =>
      let (s, h) := s.qPop core place
      (s.acquireAt u.g).answer u f.d h

/-! ## Counters -/

/-- The paths of WAITC (R186). -/
def waitPath (n : Nat) : Path :=
  match n with
  | 0 => .ld
  | 1 => .st
  | 2 => .sp
  | 3 => .atom
  | 4 => .mx
  | _ => .mc

/-- WAITC (R205): a covering wait (R98). -/
def execWaitc (f : EF) (s : State) : Host.Outcome State Fault Refusal := s.issue fun u =>
  let p := waitPath f.eb.toNat
  let n := match u.slot.wait with
    | some w => w.ops.getD 0 0
    | none => if f.ea = 1 then (u.sreg s.turn 1 f.a.toNat).toNat else f.imm.toNat
  match oldestFailed (u.g.covered p n) with
  | some a => s.deliverFailure u.g u.name a
  | none => s.await u (.waitc f) [n] (.counter p n) fun _ => s.advance u.g u.name

/-! ## Words in memory -/

/-- The size in bytes of the word a WAITW waits on. -/
def watchSize (f : EF) : Nat := if f.imm.getLsbD 0 then 8 else 4

/-- The comparison of R206, by the condition codes of R114. -/
def watchHolds (f : EF) (v b : Nat) : Bool :=
  let rd := fun (x : Nat) => readInt (8 * watchSize f) (f.imm.getLsbD 1) (x % 2 ^ (8 * watchSize f))
  match f.eb.toNat with
  | 0 => rd v == rd b
  | 1 => rd v != rd b
  | 2 => decide (rd v < rd b)
  | 3 => decide (rd v ≤ rd b)
  | 4 => decide (rd b < rd v)
  | _ => decide (rd b ≤ rd v)

/-- The watches of a slot dropped. -/
def State.dropWatches (s : State) (gid : Nat) (n : SlotName) : State :=
  { s with watches := s.watches.filter (fun w => !(w.gid == gid && w.slot == n)) }

/-- A WAITW whose condition a read met: S[d] takes the word, extended (R206). -/
def State.watchDone (s : State) (u : Issuer) (f : EF) (v : Nat) : State :=
  let x := modBits 64 (readInt (8 * watchSize f) (f.imm.getLsbD 1) (v % 2 ^ (8 * watchSize f)))
  ((s.dropWatches u.g.id u.name).acquireAt u.g).answer u f.d x

/-- Parks a WAITW, keeping when it first parked: `ops` are its K value, offset, comparand, the fc of its last read, and 1 with the
word once a read of the home slice has met the condition. -/
def State.parkWatch (s : State) (u : Issuer) (f : EF) (ops : List Nat) (now : Bool) : State :=
  let w : Wait := match u.slot.wait with
    | some w => { w with ops := ops, done := now }
    | none => { instr := .waitw f, ops := ops, cond := .event, done := now, turn := s.turn, fc := s.fc }
  s.setGroup (u.g.setSlot u.name { u.slot with wait := some w })

/-- Has the group an earlier strong access still to be performed that may touch the word's granule (R263)? -/
def State.wordHeld (s : State) (g : Group) (off size : Nat) : Bool :=
  let o : LaneOp := { lane := 0, addr := off, data := 0, extra := 0, result := none, cells := [] }
  let r : Req := { Req.blank 0 g (.word size) s.fc with lanes := [o], left := 1 }
  s.reqs.any (fun x => x.gid == g.id && strong x.ord && x.left != 0 && !x.kind.ofSlot && mayShare x r)

/-- The acquire read of a WAITW, and what follows (R206): it completes; or a watch is registered at the word's home slice, which holds
128; or, with none free there or on another module, the word is read again later. The bytes of stores that the
group's L1 still holds are written below first: those of grp and core scope by any group that the L1 serves stand in it (R270, R272). -/
def State.watchRead (s : State) (u : Issuer) (f : EF) (k off cmp : Nat) : State :=
  let g := u.g
  let size := watchSize f
  match s.resolve g.cid g.core (coreDie g.core) (BitVec.ofNat 64 k) off rightR with
  | (s, .failed e) => s.slotFault g u.name (.word size) rightR e
  | (s, .lands l) =>
    if !s.servableAt l.addr || s.wordHeld g off size then s.parkWatch u f [k, off, cmp, s.fc] true
    else
      let line := lineOf l.addr
      let s := (s.l1.filter (fun x => s.sharesL1 g.core x.core && x.line == line)).foldl State.flushL1 s
      let (s, bs) := s.engineGet (coreDie g.core) [(l, size)]
      let v := leNat bs
      let s := s.dropWatches g.id u.name
      if watchHolds f v cmp then s.watchDone u f v
      else
        let s := s.acquireAt g
        let free := (s.watches.filter (fun w => sliceOf (lineOf w.addr) == sliceOf line)).length < 128
        if free && (remoteOf l.addr).isNone && !l.device then
          let (id, s) := s.fresh
          let w : Watch := { id := id, gid := g.id, slot := u.name, addr := l.addr, size := size, written := false }
          let s : State := { s with watches := s.watches ++ [w] }
          s.parkWatch u f [k, off, cmp, s.fc] false
        else s.parkWatch u f [k, off, cmp, s.fc] false
  | (s, _) => s.parkWatch u f [k, off, cmp, s.fc] true

/-- WAITW (R206). -/
def execWaitw (f : EF) (s : State) : Host.Outcome State Fault Refusal := s.issue fun u =>
  match u.slot.wait with
  | some w =>
    if !s.condHolds u.g w then s
    else if w.ops.getD 4 0 = 1 then s.watchDone u f (w.ops.getD 5 0)
    else s.watchRead u f (w.ops.getD 0 0) (w.ops.getD 1 0) (w.ops.getD 2 0)
  | none =>
    let off := bitsAt (u.sreg s.turn 1 f.a.toNat).toNat 0 48
    if off % watchSize f ≠ 0 then s.raise u causeMisalign 0
    else s.watchRead u f (u.g.rdK s.turn 3 (f.u.toNat - 192)).toNat off (u.sreg s.turn 2 f.b.toNat).toNat

/-- A slot parked in WAITW: its instruction and its wait. -/
def Slot.watching (x : Slot) : Option (EF × Wait) :=
  match x.wait with
  | some w => (match w.instr with
    | .waitw f => some (f, w)
    | _ => none)
  | none => none

/-- A block that waits saved is queued for relaunch, with its gang unit, once its watch finds the condition met (R206, R238). -/
def State.wakeBlock (s : State) (block : Nat) : State :=
  match s.block? block with
  | some b =>
    let unit := (s.mates b).map (·.id)
    { s with blocks := s.blocks.map (fun (y : Block) =>
        if unit.contains y.id ∧ y.waiting then { y with state := if y.state = .saved then .woken else y.state, waiting := false } else y) }
  | none => s

/-- WATCH_WAKE (R206): after a write to the word the slice reads it again; where the condition holds it wakes the group, or queues its
saved block. -/
def execWatchWake (s : State) : Host.Outcome State Fault Refusal := whenDue (do
  let w ← s.watches.find? (fun w => w.id == s.arg 0)
  let g ← s.group? w.gid
  let (f, x) ← (g.slot w.slot).watching
  if !w.written then none
  else
    let s := s.closeLine (lineOf w.addr)
    let v := s.loadN w.addr w.size
    let s : State := { s with watches := s.watches.map (fun y => if y.id = w.id then { y with written := false } else y) }
    if !watchHolds f v (x.ops.getD 2 0) then some s
    else if g.life = .saved then some (s.wakeBlock g.block)
    else some ((s.dropWatches g.id w.slot).setGroup (g.setSlot w.slot { g.slot w.slot with
      wait := some { x with done := true, ops := x.ops.take 4 ++ [1, v] } })))

/-- WAITW_POLL (R206): a parked WAITW without a watch reads its word again 65,536 fc after its last read. -/
def execWaitwPoll (s : State) : Host.Outcome State Fault Refusal := whenDue (do
  let u ← s.slotArg
  let (_, w) ← u.slot.watching
  if w.done || s.watches.any (fun x => x.gid == u.g.id && x.slot == u.name) || s.fc < w.ops.getD 3 0 + 65536 || u.g.life != .resident then
    none
  else some (s.wake u))

/-! ## Registers on demand -/

/-- RGROW (R207): granted slabs read zero (R29); GROWSTALL falls on the youngest placed group. -/
def execRgrow (f : EF) (s : State) : Host.Outcome State Fault Refusal := s.issue fun u =>
  let n := f.imm.toNat
  s.await u (.rgrow f) [] (.slabs n) fun _ =>
    if n ≤ u.g.slabs then s.advance u.g u.name
    else
      let turn := match u.slot.wait with
        | some w => w.turn
        | none => s.turn
      if s.growGranted u.g n turn then
        s.advance { u.g with
          slabs := n
          v := Sparse.clearRange u.g.v (laneKey (32 * u.g.slabs) 0) (laneKey (32 * n) 0)
          stale := u.g.stale.filter (fun e => match e.cell with
            | .v r _ => decide (r < 32 * u.g.slabs)
            | _ => true) } u.name
      else s.raise u causeGrowStall (BitVec.ofNat 64 n)

/-- RSHRINK (R207). -/
def execRshrink (f : EF) (s : State) : Host.Outcome State Fault Refusal := s.issue fun u =>
  let n := f.imm.toNat
  if u.g.slabs ≤ n then s.advance u.g u.name
  else s.await u (.rshrink f) [] (.settled n) fun _ => s.advance { u.g with slabs := n } u.name

/-! ## LAUNCH -/

/-- Sets a device-side queue's write index, when the new one is later, and lists the packets it publishes with the grid that does
(R208). -/
def State.publishTo (s : State) (cid q w grid : Nat) : State :=
  let old := s.dsqW cid q
  let n := indexDist w old
  if n = 0 ∨ 2 ^ 31 ≤ n then s
  else
    let mine := (List.range n).map (fun i => (cid, q, (old + i) % 2 ^ 32, grid))
    let s : State := { s with published := s.published ++ mine, dsqWait := s.dsqWait.filter (fun e => !(e.1 == cid && e.2.1 == q)) }
    s.storeN (s.dsqAddr cid q + 16) 4 w

/-- The last part of LAUNCH (R208): S[d] takes how far the index moves. -/
def State.launchDone (s : State) (u : Issuer) (f : EF) (q w : Nat) : State :=
  let n := indexDist w (s.dsqW u.g.cid q)
  (s.publishTo u.g.cid q w (s.gridId u.g)).answer u f.d n

/-- LAUNCH (R208): after the wait of FENCE.release.mod, LAUNCHFAIL where the queue is not configured or the index moves too far; then
a wait for room. -/
def execLaunch (f : EF) (s : State) : Host.Outcome State Fault Refusal := s.issue fun u =>
  let (v, stage, turn) := match u.slot.wait with
    | some x => (x.ops.getD 0 0, x.ops.getD 1 0, x.turn)
    | none => ((u.sreg s.turn 1 f.a.toNat).toNat, 0, s.turn)
  let q := bitsAt v 0 8
  let w := bitsAt v 32 32
  let cid := u.g.cid
  if 63 < q ∨ bitsAt v 8 24 ≠ 0 then s.raise u causeUndef 0
  else if stage = 1 then
    (match u.slot.wait with
      | some x => if s.condHolds u.g x then s.launchDone u f q w else s
      | none => s)
  else
    match oldestFailed (u.g.fenced false true turn) with
    | some a => s.deliverFailure u.g u.name a
    | none =>
      if !s.fenceHolds u.g false true 5 turn then
        (if u.slot.wait.isSome then s else s.park u.g u.name (.launch f) [v, 0] (.fence false true 5 s.turn))
      else if !s.dsqEnabled cid q then s.raise u causeLaunchFail 1
      else if s.dsqCap cid q < indexDist w (s.dsqW cid q) then s.raise u causeLaunchFail 2
      else if indexDist w (s.dsqRd cid q) ≤ s.dsqCap cid q then s.launchDone u f q w
      else s.park u.g u.name (.launch f) [v, 1] (.launchRoom cid q (BitVec.ofNat 32 w))

end Sys2Proof.Machine
end

