-- ==== Sys2Proof/Machine/Multicast.lean ====
section
/-! DEFINITION. Multicast groups: membership (R199, R200), group loads (R201), held entries, casts and late fills (R202, R302, R303). -/
namespace Sys2Proof.Machine
open Sys2Proof

/-! ## Membership -/

/-- The timer of a multicast group, in fc (R199). -/
def joinTimer (a : Nat) : Nat := if bitsAt a 32 21 = 0 then 4096 else bitsAt a 32 21

/-- Are the reserved bits of MCJOIN's operands zero, and its timer in range (R199)? -/
def joinLegal (a b : Nat) : Bool :=
  bitsAt a 53 11 == 0 && bitsAt a 32 21 ≤ 2 ^ 20 && bitsAt a 13 19 == 0 && bitsAt a 6 2 == 0 && bitsAt b 46 18 == 0 && bitsAt b 22 2 == 0

/-- What MCJOIN answers (R199): 1 where another member holds the index, 2 where the group is a member already, else 0. -/
def joinStatus (m : Option MGroup) (gid index : Nat) : Nat :=
  match m with
  | none => 0
  | some m =>
    if m.members.any (fun x => x.index == index && x.gid != gid) then 1
    else if m.members.any (fun x => x.gid == gid) then 2
    else 0

/-- The group enrolled under an index (R199); the multicast group is made, with its timer, by its first member. -/
def State.enrol (s : State) (g : Group) (a b : Nat) : State :=
  let die := coreDie g.core
  let n := bitsAt a 0 6
  let m : MGroup := (s.mgroup? die g.cid n).getD { die := die, cid := g.cid, number := n, timer := joinTimer a, members := [] }
  let x : Member := { index := bitsAt a 8 5, gid := g.id, object := (s.allot g.core g.block).1 + bitsAt b 24 22, dest := bitsAt b 0 22,
                      suspended := false, leaving := false }
  s.setMGroup { m with members := m.members ++ [x] }

/-- MCJOIN (R199). -/
def execMcjoin (f : EF) (s : State) : Host.Outcome State Fault Refusal := s.issue fun u =>
  let a := (u.sreg s.turn 1 f.a.toNat).toNat
  let b := (u.sreg s.turn 2 f.b.toNat).toNat
  let object := bitsAt b 24 22
  if !joinLegal a b then s.raise u causeUndef 0
  else if object % 16 ≠ 0 ∨ bitsAt b 0 22 % 128 ≠ 0 ∨ !s.spIn u.g.core u.g.block object 16 then s.raise u causeMisalign 0
  else
    let status := joinStatus (s.mgroup? (coreDie u.g.core) u.g.cid (bitsAt a 0 6)) u.g.id (bitsAt a 8 5)
    (if status = 0 then s.enrol u.g a b else s).answer u f.d status

/-- MCLEAVE (R200): held requests are withdrawn at once; the slot parks until the fills sent toward the member are written. -/
def execMcleave (f : EF) (s : State) : Host.Outcome State Fault Refusal := s.issue fun u =>
  let n := match u.slot.wait with
    | some w => w.ops.getD 0 0
    | none => (u.sreg s.turn 1 f.a.toNat).toNat
  if 64 ≤ n then s.raise u causeUndef 0
  else
    let s := if u.slot.wait.isSome then s else s.mcLeave u.g n
    s.await u (.mcleave f) [n] (.fills n) fun _ => s.advance u.g u.name

/-! ## Group loads -/

/-- Are MCLD's operands within their limits (R201)? -/
def mcldLegal (off len b d : Nat) : Bool :=
  off % 128 == 0 && len % 128 == 0 && 128 ≤ len && len ≤ 65536 && bitsAt b 6 26 == 0 && bitsAt d 22 42 == 0 && d % 128 == 0

/-- The request of one line of an MCLD: the lane's data is where in the member's destination the line goes (R201, R202). -/
def State.addLine (s : State) (g : Group) (acc n mask : Nat) (k : DWord) (off dest : Nat) : State :=
  let (id, s) := s.fresh
  let (s, seq) := s.nextSeq g.core
  let log := match g.access? acc with
    | some a => a.log.getD 0
    | none => 0
  let o : LaneOp := { lane := 0, addr := off, data := dest, extra := 0, result := none, cells := [] }
  { s with reqs := s.reqs ++ [{ Req.blank id g (.mcast n mask) s.fc with
      acc := acc, turn := s.turn, k0 := k, off0 := off, k := k, off := off, need := rightR, lanes := [o], left := 1, seq := seq, log := log,
      noL1 := true }] }

/-- MCLD (R201): UNDEF for a group that is no member. -/
def execMcld (f : EF) (s : State) : Host.Outcome State Fault Refusal := s.issue fun u =>
  let off := bitsAt (u.sreg s.turn 1 f.a.toNat).toNat 0 48
  let b := (u.sreg s.turn 2 f.b.toNat).toNat
  let d := (u.sreg s.turn 3 f.d.toNat).toNat
  let len := f.imm.toNat
  let n := bitsAt b 0 6
  let member := match s.mgroup? (coreDie u.g.core) u.g.cid n with
    | some m => m.members.any (fun x => x.gid == u.g.id)
    | none => false
  if !mcldLegal off len b d || !member then s.raise u causeUndef 0
  else
    let k := u.g.rdK s.turn 4 (f.u.toNat - 192)
    let (s, g, acc) := s.addAccess u ⟨.mc, false, false⟩ 0 0 1 []
    let s := (List.range (len / 128)).foldl (fun s i =>
      s.addLine g acc n (bitsAt b 32 32) k ((off + 128 * i) % 2 ^ 48) (d + 128 * i)) s
    s.advance g u.name

/-! ## Held entries -/

/-- Does an entry carry this key (R201)? -/
def Held.keyed (h : Held) (die cid n mask line : Nat) : Bool :=
  h.die == die && h.cid == cid && h.group == n && h.mask == mask && h.line == line

/-- Replaces the entry of the same number. -/
def State.setHeld (s : State) (h : Held) : State := { s with helds := s.helds.map (fun (y : Held) => if y.id = h.id then h else y) }

/-- The tier a request landed at. -/
def Req.landedAt (r : Req) : Nat := (r.passed.getLastD (0, 0, 0)).1

/-- A fill of its own to one member: a unicast fill, or a late fill (R201, R202). -/
def State.ownFill (s : State) (r : Req) (n : Nat) (x : Member) (dest : Nat) : State :=
  let (s, bs, reason) := s.readFill r.line (r.passed.getLastD (0, 0, 0)).2.2
  s.sendFill r.gid n r.core x.object (x.dest + dest) bs reason r.landedAt

/-- A line request of a member at its home slice (R201, R202, R303). -/
def State.enterHeld (s : State) (r : Req) (die n mask : Nat) (x : Member) (dest : Nat) : State :=
  if !mask.testBit x.index then s.ownFill r n x dest
  else
    match s.helds.find? (fun h => !h.spent && h.keyed die r.cid n mask r.line) with
    | some h =>
      let h := { h with requests := h.requests ++ [(x.index, r.gid, dest)] }
      (s.setHeld h).settleHelds
    | none =>
      match s.helds.find? (fun h => h.spent && h.keyed die r.cid n mask r.line && h.waiting.contains x.index) with
      | some h =>
        let h := { h with waiting := h.waiting.filter (· != x.index) }
        ((s.setHeld h).ownFill r n x dest).settleHelds
      | none =>
        let (id, s) := s.fresh
        let h : Held := { id := id, die := die, tier := r.landedAt, label := (r.passed.getLastD (0, 0, 0)).2.2, cid := r.cid, group := n, mask := mask, line := r.line, fc := s.fc,
                          requests := [(x.index, r.gid, dest)], spent := false, waiting := [] }
        let s : State := { s with helds := s.helds ++ [h] }
        s.settleHelds

/-- HELD_ENTRY_ENTER (R201, R303): the member's mc counter falls as the request enters, or as its own fill is sent (R38). A request whose
member has left meanwhile is withdrawn (R200). -/
def execHeldEntryEnter (s : State) : Host.Outcome State Fault Refusal := whenDue (do
  let r ← s.req? (s.arg 0)
  match r.kind with
  | .mcast n mask =>
    let die := coreDie r.core
    if r.phase != .ready || !s.servable r || s.egressOn r.gid (128 * r.line) then none
    else
      let s := s.touchRemote r
      (match (s.mgroup? die r.cid n).bind (fun m => m.members.find? (fun x => x.gid == r.gid && !x.leaving)) with
        | none => some (s.finishReq r)
        | some x => some ((s.enterHeld r die n mask x ((r.lanes.map (·.data)).headD 0)).finishReq r))
  | _ => none)

/-- HELD_ENTRY_TIMER (R202): the group's timer has run since the entry was made. -/
def execHeldEntryTimer (s : State) : Host.Outcome State Fault Refusal := whenDue (do
  let h ← s.helds.find? (fun h => h.id == s.arg 0)
  let m ← s.mgroup? h.die h.cid h.group
  if h.spent || s.fc < h.fc + m.timer then none else some (s.fire h).settleHelds)

/-- FILL_DELIVERY (R202): the line's bytes in the member's allotment, then BOARR 128 on its object; a failed reading writes none and
marks the object. A leaving member whose fills are all written leaves (R200). -/
def execFillDelivery (s : State) : Host.Outcome State Fault Refusal := whenDue (do
  let f ← s.fills.find? (fun f => f.id == s.arg 0)
  let g ← s.group? f.gid
  let s : State := { s with fills := s.fills.filter (fun (x : Fill) => x.id != f.id) }
  let s := if f.reason = 0 then ((s.spWrite f.core g.block f.dest f.bytes).boArrive f.core f.object 128).1
    else s.boFail f.core f.object f.reason f.tier
  match s.mgroup? (coreDie g.core) g.cid f.group with
  | some m => some (s.finishLeave m).settleHelds
  | none => some s)

end Sys2Proof.Machine
end

