-- ==== Sys2Proof/Machine/Submit.lean ====
section
/-! DEFINITION. How work reaches the module: the F-die's lookups, the hardware queues (R329, R330) and device-side queues (R341, R342),
packets and nodes (R331, R332), the launch record and its checks (R226, R227, R242, R334), HOST and COPY packets (R331). -/
namespace Sys2Proof.Machine
open Sys2Proof

/-! ## Lookups of the F-die -/

/-- The number that stands for the F-die where a requesting core is asked for: beyond every core. -/
def fdieCore : Nat := 512

/-- The F-die as the source of a request tag (R365). -/
def fdieTag (seq : Word) : DWord := BitVec.ofNat 64 (2 ^ 63 + seq.toNat)

/-- The tag of a request of a unit other than a core: the F-die, or an octet's copy engine for a COPY packet (R365). -/
def Req.unitTag (r : Req) : DWord := if r.core = fdieCore then fdieTag r.seq else engineTag (r.core - fdieCore - 1) r.seq

/-- What a unit's lookup comes to. -/
inductive Found where
  | lands (ls : List (Landing × Nat))
  | waits
  | failed
  deriving DecidableEq, Repr

/-- The lookup of a unit's bytes under a name. A failure is sent to its owner (R366): until the verdict the unit waits, under a key of its
own; a verdict FAIL, or a dropped record, ends it. -/
def State.unitReach (s : State) (unit key cid core : Nat) (k : DWord) (need : BitVec 5) (ps : List (Nat × Nat)) : State × Found :=
  match s.reqs.find? (fun r => r.core == unit && r.acc == key) with
  | some r => (match r.phase with
    | .lost => ({ s with reqs := s.reqs.filter (fun (x : Req) => x.id != r.id) }, .failed)
    | _ => (s, .waits))
  | none =>
    match s.reach cid core k need ps with
    | (s, .lands ls) => (s, .lands ls)
    | (s, .waits) => (s, .waits)
    | (s, .failed f) =>
      let octet := unit - fdieCore - 1
      let (s, seq) := s.nextEngineSeq (if unit = fdieCore then 100 else octet)
      let tag := if unit = fdieCore then fdieTag seq else engineTag octet seq
      let (s, fq) := s.reportFailure f tag need cid (if unit = fdieCore then 5 else octet / 4)
      match fq with
      | none => (s, .failed)
      | some _ =>
        let (id, s) := s.fresh
        let e : Failure := { lanes := 0, tier := f.tier, label := f.label, reason := f.reason, tag := tag, lost := false }
        let r : Req := { id := id, acc := key, gid := 0, core := unit, cid := cid, turn := s.turn, kind := .fetch, k0 := k, off0 := 0, k := k,
                         off := 0, rights := 31, need := need, phase := .suspended e fq s.fc, lanes := [], left := 0, ord := 0, scp := 0,
                         ch := 0, window := false, seq := seq, log := 0, passed := [], line := 0, mode := .coh, noL1 := false, fc := s.fc,
                         contribs := 1, list := 0, behind := 0, transients := 0, carriers := [] }
        ({ s with reqs := s.reqs ++ [r] }, .waits)

/-- The F-die's read of landed bytes. -/
def State.fdieGet (s : State) : List (Landing × Nat) → State × List Byte
  | [] => (s, [])
  | (l, n) :: rest =>
    let (s, bs) := if l.device then (s, s.deviceLoad (l.addr % 2 ^ 45) n) else (s.touchAt l.addr).readClosing l.addr n
    let (s, more) := State.fdieGet s rest
    (s, bs ++ more)

/-- The F-die's store of landed bytes, performed at mod scope. -/
def State.fdiePut (s : State) : List (Landing × Nat) → List Byte → State
  | [], _ => s
  | (l, n) :: rest, bs =>
    let line := lineOf l.addr
    let s := if l.device then s.deviceStore (l.addr % 2 ^ 45) (bs.take n)
      else
        let home := (homeOf line).getD 0
        let s := (s.l2.filter (fun x => x.line == line && x.die != home)).foldl (fun s x => s.invalidateHolder x.die line) s
        (s.ensureAlone l.mode home line).publish home none line (l.addr % 128) (bs.take n) []
    State.fdiePut s rest (bs.drop n)

/-- Runs of 64 bytes. -/
def runs64 (off n : Nat) : List (Nat × Nat) := (List.range n).map (fun i => ((off + 64 * i) % 2 ^ 48, 64))

/-! ## The launch record -/

/-- Word `i` of a run of bytes. -/
def wordAt (bs : List Byte) (i : Nat) : Nat := leNat ((bs.drop (8 * i)).take 8)

/-- The level words of a record, for levels 2 to 7 (R334). -/
def recordLevel (w : Nat) : Level :=
  { window := bitsAt w 32 10, count := bitsAt w 16 16, gang := bitsAt w 6 1 == 1, scope := bitsAt w 3 3, domain := bitsAt w 0 3 }

/-- A launch record's fields (R334). -/
def launchOfRecord (bs : List Byte) : Launch :=
  let w := wordAt bs
  { fuse := bitsAt (w 0) 21 1 == 1, feat := BitVec.ofNat 5 (bitsAt (w 0) 16 5), slabs := bitsAt (w 0) 11 5, top := bitsAt (w 0) 8 3,
    codeK := BitVec.ofNat 64 (w 1), codeOff := bitsAt (w 2) 0 48, lines := bitsAt (w 3) 0 24, entry := BitVec.ofNat 40 (w 4),
    trapPc := BitVec.ofNat 40 (w 5), kload := BitVec.ofNat 16 (bitsAt (w 6) 32 16), spad := bitsAt (w 6) 0 22,
    levels := (List.range (bitsAt (w 0) 8 3 - 1)).map (fun i => recordLevel (w (8 + i))),
    ks := (List.range 16).map (fun i => BitVec.ofNat 64 (w (16 + i))) }

/-- Does a level's word keep to R334? -/
def levelOk (w : Nat) : Bool :=
  let l := recordLevel w
  bitsAt w 42 22 == 0 && bitsAt w 7 9 == 0 && 2 ≤ l.domain && l.scope ≤ 6 && l.count != 0 && l.window ≤ 512 &&
    (l.window == 0 || l.domain == 5)

/-- Does a record keep to the table of R334? -/
def recordOk (bs : List Byte) : Bool :=
  let w := wordAt bs
  let l := launchOfRecord bs
  bitsAt (w 0) 22 42 == 0 && 1 ≤ l.slabs && l.slabs ≤ 16 && 2 ≤ l.top && bitsAt (w 0) 0 8 == 1 && kLegal l.codeK &&
    bitsAt (w 2) 48 16 == 0 && l.codeOff % 64 == 0 && bitsAt (w 3) 24 40 == 0 && l.lines != 0 && bitsAt (w 4) 40 24 == 0 &&
    bitsAt (w 5) 40 24 == 0 && bitsAt (w 6) 48 16 == 0 && bitsAt (w 6) 22 10 == 0 && l.spad % 128 == 0 && l.spad ≤ 3145728 &&
    w 7 == 0 && w 14 == 0 && w 15 == 0 && (List.range (l.top - 1)).all (fun i => levelOk (w (8 + i))) &&
    (List.range (7 - l.top)).all (fun i => w (7 + l.top + i) == 0) &&
    (!l.kload.getLsbD 15 || l.levels.all (fun x => x.window == 0)) &&
    (List.range 16).all (fun i => !l.kload.getLsbD i || kLegal (l.ks.getD i 0))

/-- The narrowest scope of a domain (R226). -/
def narrowest (domain : Nat) : Nat := domain - 1

/-- Do domains never decrease? -/
def neverFalls : List Level → Bool
  | x :: y :: rest => x.domain ≤ y.domain && neverFalls (y :: rest)
  | _ => true

/-- Does a launch keep to R226? -/
def Launch.levelsOk (l : Launch) : Bool :=
  (l.level 2).domain ≤ 3 && neverFalls l.levels && l.levels.all (fun x => narrowest x.domain ≤ x.scope) &&
    (l.levels.take (l.levels.length - 1)).all (fun x => x.domain ≤ 5) && l.levels.all (fun x => !(x.gang && x.domain == 7))

/-- The groups of a block (R227). -/
def Launch.groupCount (l : Launch) : Nat := l.unitsIn 1 l.blockLevel

/-- Is a block a CLUSTER block? -/
def Launch.onCluster (l : Launch) : Bool := (l.level l.blockLevel).domain == 3

/-- The core of the cluster and the quadrant of group `i` of a block (R231). -/
def Launch.seat (l : Launch) (i : Nat) : Nat × Nat := if l.onCluster then (i % 4, i / 4 % 4) else (0, i % 4)

/-- How many groups of a block a quadrant takes (R231). -/
def Launch.seats (l : Launch) (core quad : Nat) : Nat :=
  let n := l.groupCount
  let first := if l.onCluster then core + 4 * quad else quad
  let step := if l.onCluster then 16 else 4
  if !l.onCluster && core != 0 then 0 else (n + step - 1 - first) / step

/-- The cores of a cluster that a block uses, from the core or cluster it is placed at (R231). -/
def Launch.coresAt (l : Launch) (core : Nat) : List Nat :=
  if l.onCluster then (List.range (min l.groupCount 4)).map (fun i => core - core % 4 + i) else [core]

/-- Does a block fit an empty core or cluster (R227)? -/
def Launch.blockFits (l : Launch) : Bool :=
  l.groupCount ≤ (if l.onCluster then 384 else 96) &&
    (List.range 4).all (fun q => (List.range 4).all (fun c => l.seats c q ≤ 24 && l.seats c q * l.slabs ≤ 32))

/-- How many blocks of a launch an empty core, or cluster, takes. -/
def Launch.perPlace (l : Launch) : Nat :=
  let most := ((List.range 4).flatMap (fun c => (List.range 4).map (fun q => l.seats c q))).foldl max 1
  min (min (24 / most) (32 / (most * max l.slabs 1))) (if l.spad = 0 then 1000 else 3145728 / l.spad)

/-- The cores of an instance of a domain (R226): instances are numbered over the module. -/
def instanceCores (domain inst : Nat) : List Nat :=
  match domain with
  | 2 => [inst]
  | 3 => (List.range 4).map (· + 4 * inst)
  | 4 => (List.range 32).map (· + 32 * inst)
  | 5 => (List.range 128).map (· + 128 * inst)
  | _ => List.range 512

/-- The instance of a domain that a core lies in. -/
def instanceOf (domain core : Nat) : Nat :=
  match domain with
  | 2 => core
  | 3 => core / 4
  | 4 => core / 32
  | 5 => core / 128
  | _ => 0

/-- How many instances of a domain the module has. -/
def instanceCount (domain : Nat) : Nat := match domain with
  | 2 => 512
  | 3 => 128
  | 4 => 16
  | 5 => 4
  | _ => 1

/-- Does a core belong to the module as it stands: its die there, its cluster not disabled by R317, its mask covering what the launch
requires (R37, R243)? -/
def State.coreServes (s : State) (l : Launch) (core : Nat) : Bool :=
  !(s.die (coreDie core)).disabled && !(s.die (coreDie core)).lost && within l.feat (s.core core).featm &&
    !bitsAt (leNat ((s.boot.config.take 16).map (BitVec.ofNat 8))) (core / 4) 1 == 1

/-- The domain of the units of a level: at the block level, one core or one cluster (R226, R227). -/
def Launch.domainAt (l : Launch) (n : Nat) : Nat := (l.level n).domain

/-- The instances of a domain within an instance of another. -/
def innerInstances (small big inst : Nat) : List Nat :=
  (List.range (instanceCount small)).filter (fun i => instanceOf big ((instanceCores small i).headD 0) == inst)

/-- The bytes of die windows that a unit of the level `k` above the block level needs, those of the units in it among them (R230). -/
def Launch.windowNeed (l : Launch) : Nat → Nat
  | 0 => 0
  | k + 1 => 65536 * (l.level (l.blockLevel + k + 1)).window + (l.level (l.blockLevel + k + 1)).count * Launch.windowNeed l k

/-- How many units of a level bound to one die its windows let the die take, of the bytes that are free (R230). -/
def Launch.windowCap (l : Launch) (free : Nat → Nat) (k inst units : Nat) : Nat :=
  if l.domainAt (l.blockLevel + k) = 5 ∧ l.windowNeed k ≠ 0 then min units (free inst / l.windowNeed k) else units

/-- How many units of the level `k` above the block level an instance of its domain can hold, given how many blocks each core or
cluster takes, and the bytes that each die has free for windows (R228, R230, R242). -/
def Launch.holdsAt (l : Launch) (room free : Nat → Nat) : Nat → Nat → Nat
  | 0, inst => room inst
  | k + 1, inst =>
    let n := l.blockLevel + k
    l.windowCap free (k + 1) inst
      ((((innerInstances (l.domainAt n) (l.domainAt (n + 1)) inst).map (Launch.holdsAt l room free k)).foldl (· + ·) 0) /
        max 1 (l.level (n + 1)).count)

/-- The first core of a place: of a core or cluster by its number. -/
def Launch.placeCore (l : Launch) (place : Nat) : Nat := if l.onCluster then 4 * place else place

/-- How many blocks of a launch an empty core or cluster of the module takes. -/
def State.emptyRoom (s : State) (l : Launch) (place : Nat) : Nat :=
  if (l.coresAt (l.placeCore place)).all (s.coreServes l) then l.perPlace else 0

/-- Does each gang unit fit one empty instance of its domain (R242)? -/
def State.gangsFit (s : State) (l : Launch) : Bool :=
  l.gangLevels.all (fun n => (List.range (instanceCount (l.domainAt n))).any (fun i =>
    1 ≤ l.holdsAt (s.emptyRoom l) (fun _ => 67108864) (n - l.blockLevel) i))

/-- What accepting a KERNEL finds (R334): its launch; or the status it will complete with; or the F-die still waits. -/
inductive Accepted where
  | launch (l : Launch)
  | refused (status : Nat)
  | waits
  deriving DecidableEq, Repr

/-- The keys of the F-die's lookups for one queue: its packet's, its record's, its code segment's, and those of the stores that clear V of
a NODE and of a work packet. -/
def lookupKey (key i : Nat) : Nat := key + 2 ^ 24 * i

/-- Reads a launch record, resolves the code segment with right X page by page, and checks both (R226, R227, R242, R334). -/
def State.readLaunch (s : State) (key cid : Nat) (k : DWord) (off : Nat) : State × Accepted :=
  if off % 64 ≠ 0 ∨ !kLegal k then (s, .refused 2)
  else
    match s.unitReach fdieCore (lookupKey key 1) cid fdieCore k rightR (runs64 off 4) with
    | (s, .waits) => (s, .waits)
    | (s, .failed) => (s, .refused 2)
    | (s, .lands ls) =>
      let (s, bs) := s.fdieGet ls
      let l := launchOfRecord bs
      if !recordOk bs then (s, .refused 2)
      else
        let first := l.codeOff / 4096
        let pages := (List.range ((l.codeOff + 64 * l.lines - 1) / 4096 + 1 - first)).map (fun i =>
          (max l.codeOff (4096 * (first + i)) % 2 ^ 48, 64))
        match s.unitReach fdieCore (lookupKey key 2) cid fdieCore l.codeK rightX pages with
        | (s, .waits) => (s, .waits)
        | (s, .failed) => (s, .refused 2)
        | (s, .lands _) => if l.levelsOk && l.blockFits && s.gangsFit l then (s, .launch l) else (s, .refused 1)

/-! ## Packets -/

/-- A packet: eight words (R331). -/
abbrev Packet := List Nat

/-- TYPE. -/
def pType (p : Packet) : Nat := bitsAt (p.getD 0 0) 0 3
/-- V. -/
def pValid (p : Packet) : Bool := bitsAt (p.getD 0 0) 3 1 == 1
/-- BAND. -/
def pBand (p : Packet) : Nat := bitsAt (p.getD 0 0) 4 2
/-- SER. -/
def pSer (p : Packet) : Bool := bitsAt (p.getD 0 0) 6 1 == 1
/-- COUNT. -/
def pCount (p : Packet) : Nat := bitsAt (p.getD 0 0) 32 32

/-- A packet read from physical memory. -/
def State.readPacket (s : State) (a : Nat) : State × Packet :=
  let (s, bs) := s.readClosing a 64
  (s, (List.range 8).map (wordAt bs))

/-- Predecessor id `i` of a NODE (R332). -/
def nodePred (p : Packet) (i : Nat) : Nat := if i < 4 then bitsAt (p.getD 1 0) (16 * i) 16 else bitsAt (p.getD 2 0) (16 * (i - 4)) 16

/-- ECODE of a malformed packet, 0 for none (R330): a reserved TYPE; a nonzero field that R331 or R332 gives as reserved or zero. -/
def packetCode (p : Packet) : Nat :=
  let t := pType p
  let n := bitsAt (p.getD 0 0) 45 3
  let zero := fun (i : Nat) => p.getD i 0 == 0
  if t = 0 ∨ 6 ≤ t then 1
  else if bitsAt (p.getD 0 0) 7 25 ≠ 0 then 2
  else
    let bad := match t with
      | 2 => bitsAt (p.getD 0 0) 32 13 != 0 || (List.range 6).any (fun i => decide (n ≤ i) && nodePred p i != 0)
      | 3 => pCount p != 0 || !(zero 5 && zero 6)
      | 4 => pCount p != 0 || !((List.range 5).all (fun i => zero (2 + i)))
      | 5 => pCount p != 0 || !zero 2
      | _ => false
    if bad then 2 else 0

/-- The work kind of a packet's TYPE. -/
def kindOf (t : Nat) : WorkKind :=
  match t with
  | 1 => .kernel
  | 3 => .copy
  | 5 => .host
  | _ => .marker

/-- The home die of a tile operand (R335): a read lookup that raises no fault and sends no record. -/
def State.tileHome (s : State) (cid : Nat) (node : Option Packet) (i : Nat) : State × Option Nat :=
  match node with
  | none => (s, none)
  | some p =>
    let off := p.getD (4 + 2 * i) 0
    if bitsAt off 48 16 = 0 then (s, none)
    else
      match s.resolve cid fdieCore (coreDie fdieCore) (BitVec.ofNat 64 (p.getD (3 + 2 * i) 0)) (bitsAt off 0 48) rightR with
      | (s, .lands l) => (s, homeOf (lineOf l.addr))
      | (s, _) => (s, none)

/-- The home die of a work: that of operand 0; for a KERNEL else that of operand 1 (R335). -/
def State.workHome (s : State) (cid : Nat) (node : Option Packet) (kernel : Bool) : State × Option Nat :=
  match s.tileHome cid node 0 with
  | (s, some d) => (s, some d)
  | (s, none) => if kernel then s.tileHome cid node 1 else (s, none)

/-- The predecessors of a node that are still to complete: for each id, the most recent node of that id from the same queue (R332). -/
def State.predsOf (s : State) (queue : Nat) (dsq : Bool) (cid : Nat) (p : Packet) : List Nat :=
  let mine := s.works.filter (fun w => w.queue == queue && w.dsq == dsq && (!dsq || w.cid == cid))
  (List.range (min 6 (bitsAt (p.getD 0 0) 45 3))).filterMap (fun i =>
    match (mine.filter (fun w => w.node == some (nodePred p i))).getLast? with
    | some w => if w.status.isNone then some w.id else none
    | none => none)

/-- Is the status of a packet's own fields BADRECORD (R330): a KERNEL COUNT of 0, a COPY length of 0, a NODE NPRED of 7? -/
def fieldsBad (node : Option Packet) (p : Packet) : Bool :=
  (pType p == 1 && pCount p == 0) || (pType p == 3 && bitsAt (p.getD 4 0) 0 40 == 0) ||
    (match node with
      | some n => bitsAt (n.getD 0 0) 45 3 == 7
      | none => false)

/-- Has a work every predecessor complete, and with SER every earlier one of its queue (R331, R332)? -/
def State.workReady (s : State) (w : Work) : Bool :=
  w.preds.all (fun i => s.works.all (fun x => x.id != i || x.status.isSome)) &&
    (!w.ser || s.works.all (fun x => !(x.queue == w.queue && x.dsq == w.dsq && (!w.dsq || x.cid == w.cid) && decide (x.id < w.id)) ||
      x.status.isSome))

/-- Enters a work in the ready pool, and its grid when its launch is good. `parent`: the grid that launched it (R208, R239). -/
def State.enterWork (s : State) (queue : Nat) (dsq : Bool) (index cid band : Nat) (nopre : Bool) (parent : Option Nat)
    (node : Option Packet) (p : Packet) (a : Accepted) : State :=
  let (s, home) := s.workHome cid node (pType p == 1)
  let (id, s) := s.fresh
  let preds := match node with
    | some n => s.predsOf queue dsq cid n
    | none => []
  let w : Work :=
    { id := id, kind := kindOf (pType p), queue := queue, dsq := dsq, index := index, cid := cid, band := max (pBand p) band, ser := pSer p,
      k := BitVec.ofNat 64 (p.getD 1 0), words := p.map (BitVec.ofNat 64), done := bitsAt (p.getD 7 0) 0 48,
      node := node.map (fun n => bitsAt (n.getD 0 0) 48 16), preds := preds, home := home, grid := none, parent := parent, octet := none,
      started := false, copied := 0, result := none, status := none }
  let s := match parent.bind s.grid? with
    | some x => s.setGrid { x with children := x.children + 1 }
    | none => s
  match a with
  | .refused status => { s with works := s.works ++ [{ w with result := some status }] }
  | .waits => { s with works := s.works ++ [w] }
  | .launch l =>
    let (gid, s) := s.fresh
    let x : Grid :=
      { id := gid, work := id, cid := cid, band := w.band, nopre := nopre, launch := l, count := pCount p,
        args := (List.range 4).map (fun i => BitVec.ofNat 64 (p.getD (3 + i) 0)), placed := [], parent := parent, children := 0,
        faulted := false, failed := false, anyDie := false, homeDie := home, order := id, readyFc := if s.workReady w then some s.fc else none,
        affinityFc := s.fc, bound := [] }
    { s with works := s.works ++ [{ w with grid := some gid }], grids := s.grids ++ [x] }

/-- What accepting a packet of a known type takes: for a KERNEL its record (R334). -/
def State.acceptWork (s : State) (key cid : Nat) (node : Option Packet) (p : Packet) : State × Accepted :=
  if fieldsBad node p then (s, .refused 2)
  else if pType p = 1 then s.readLaunch key cid (BitVec.ofNat 64 (p.getD 1 0)) (bitsAt (p.getD 2 0) 0 48)
  else (s, .waits)

/-- The nodes of the ready pool, 4,096 at most (R330). The spec does not say when a node leaves the pool: the model keeps it until the status
of its work is set, so that running work counts (DESIGN CHOICE, assumption 15). -/
def State.poolFull (s : State) : Bool := 4096 ≤ (s.works.filter (fun w => w.status.isNone)).length

/-- The key of a device-side queue among the queue engines; a hardware queue's is its number. -/
def dsqKey (cid q : Nat) : Nat := 16 + 64 * cid + q

/-- The band of a queue, by its key (R329, R341). -/
def State.queueBand (s : State) (key : Nat) : Nat :=
  if key < 16 then s.field (queueBlock key + 0x20) 1 2 else bitsAt (s.dsqWord ((key - 16) / 64) ((key - 16) % 64) 3) 0 2

/-- Would a queue read its next packet, were the pool not full (R330, R342)? -/
def State.queueReads (s : State) (key : Nat) : Bool :=
  if key < 16 then
    let b := queueBlock key
    s.field (b + 0x20) 0 1 == 1 && s.field (b + 0x28) 1 1 == 0 && s.field (b + 0x18) 0 32 != s.field (b + 0x10) 0 32 &&
      !s.queueWait.contains key
  else
    let cid := (key - 16) / 64
    let q := (key - 16) % 64
    s.ctxValid cid && s.dsqEnabled cid q && s.dsqRd cid q != s.dsqW cid q && !s.dsqWait.any (fun e => e.1 == cid && e.2.1 == q)

/-- Does a queue of the same band wait for the pool ahead of this one (R330)? -/
def State.poolBehind (s : State) (key : Nat) : Bool :=
  (s.poolWait.takeWhile (· != key)).any (fun k => s.queueReads k && s.queueBand k == s.queueBand key)

/-- A queue engine waits for a free entry of the pool, after those that wait already (R330). -/
def State.poolQueued (s : State) (key : Nat) : Option State :=
  if s.poolWait.contains key then none else some { s with poolWait := s.poolWait ++ [key] }

/-- The engine has its turn. -/
def State.poolServed (s : State) (key : Nat) : State := { s with poolWait := s.poolWait.filter (· != key) }

/-! ## Hardware queues -/

/-- IDLE of a queue as its indices stand (R329). -/
def State.syncIdle (s : State) (q : Nat) : State :=
  let b := queueBlock q
  s.setField (b + 0x28) 0 1 (if s.field (b + 0x10) 0 32 = s.field (b + 0x18) 0 32 then 1 else 0)

/-- A queue stops: ERR, ECODE, an interrupt (R330). -/
def State.queueError (s : State) (q code : Nat) : State :=
  let b := queueBlock q
  ((s.setField (b + 0x28) 8 8 code).setField (b + 0x28) 1 1 1).interrupt 1 q

/-- QUEUE_DOORBELL (R329, R330): a write index beyond the ring is not taken; either way the engine reads a packet with V = 0 again. -/
def execQueueDoorbell (s : State) : Host.Outcome State Fault Refusal := whenDue (
  let q := s.arg 0
  let b := queueBlock q
  if 16 ≤ q then none
  else
    let s : State := { s with queueWait := s.queueWait.filter (· != q) }
    if 2 ^ s.field (b + 8) 0 5 < indexDist (s.arg 1 % 2 ^ 32) (s.field (b + 0x18) 0 32) then some (s.queueError q 4)
    else some ((s.setField (b + 0x10) 0 32 (s.arg 1)).syncIdle q))

/-- QUEUE_ERR_CLEAR (R330): the engine reads packet RD again. -/
def execQueueErrClear (s : State) : Host.Outcome State Fault Refusal := whenDue (
  let q := s.arg 0
  let b := queueBlock q
  if 16 ≤ q ∨ s.field (b + 0x28) 1 1 = 0 then none else some (s.setField (b + 0x28) 1 1 0))

/-- The queue waits at a packet whose V is 0 until the next doorbell (R330). -/
def State.queueHolds (s : State) (q : Nat) : State := { s with queueWait := q :: s.queueWait }

/-- RD after some packets. -/
def State.queueAdvance (s : State) (q n : Nat) : State :=
  let b := queueBlock q
  (s.setField (b + 0x18) 0 32 ((s.field (b + 0x18) 0 32 + n) % 2 ^ 32)).syncIdle q

/-- A work packet read from a hardware queue, after its NODE if it has one: `n` packets in all. -/
def State.takePacket (s : State) (q n rd : Nat) (node : Option Packet) (p : Packet) : Option State :=
  let b := queueBlock q
  let cid := s.field (b + 0x20) 4 16
  let code := packetCode p
  if !pValid p then some (s.queueHolds q)
  else if code ≠ 0 then some (s.queueError q code)
  else if pType p = 2 then some (s.queueError q 3)
  else
    match s.acceptWork q cid node p with
    | (s', .waits) =>
      -- A KERNEL whose record the F-die still waits for is not accepted yet; the state keeps the lookup.
      if pType p = 1 && !fieldsBad node p then (if s' = s then none else some s')
      else some ((s'.enterWork q false ((rd + n - 1) % 2 ^ 32) cid (s'.field (b + 0x20) 1 2) (s'.field (b + 0x20) 3 1 == 1) none node p
        .waits).queueAdvance q n)
    | (s', a) => some ((s'.enterWork q false ((rd + n - 1) % 2 ^ 32) cid (s'.field (b + 0x20) 1 2) (s'.field (b + 0x20) 3 1 == 1) none node
        p a).queueAdvance q n)

/-- QUEUE_PACKET_READ (R330): packet RD, with the work packet after it when it is a NODE. -/
def execQueuePacketRead (s : State) : Host.Outcome State Fault Refusal := whenDue (
  let q := s.arg 0
  let b := queueBlock q
  let rd := s.field (b + 0x18) 0 32
  let wr := s.field (b + 0x10) 0 32
  let at_ := fun (i : Nat) => s.field b 0 48 + 64 * (i % 2 ^ s.field (b + 8) 0 5)
  if 16 ≤ q ∨ s.field (b + 0x20) 0 1 = 0 ∨ s.field (b + 0x28) 1 1 = 1 ∨ rd = wr ∨ s.queueWait.contains q ∨ s.poolBehind q then none
  else if s.poolFull then s.poolQueued q
  else
    let (s, p) := (s.poolServed q).readPacket (at_ rd)
    if !pValid p then some (s.queueHolds q)
    else if pType p ≠ 2 ∨ packetCode p ≠ 0 then s.takePacket q 1 rd none p
    else if (rd + 1) % 2 ^ 32 = wr then some (s.queueHolds q)
    else
      let (s, w) := s.readPacket (at_ (rd + 1))
      s.takePacket q 2 rd (some p) w)

/-! ## Device-side queues -/

/-- The read index of a device-side queue moved on (R342); the packets passed are no longer listed as published. -/
def State.dsqAdvance (s : State) (cid q n : Nat) : State :=
  let rd := s.dsqRd cid q
  let gone := (List.range n).map (fun i => (rd + i) % 2 ^ 32)
  let s : State := { s with published := s.published.filter (fun e => !(e.1 == cid && e.2.1 == q && gone.contains e.2.2.1)) }
  s.storeN (s.dsqAddr cid q + 20) 4 ((rd + n) % 2 ^ 32)

/-- Where the distributor's writes of V = 0 land (R342): none while a lookup waits; a write whose lookup fails is lost. -/
def State.reachValid (s : State) (key cid : Nat) (k : DWord) : List (Nat × Packet) → State × Option (List (List (Landing × Nat) × Packet))
  | [] => (s, some [])
  | (off, p) :: rest =>
    match s.unitReach fdieCore (lookupKey key (3 + rest.length)) cid fdieCore k rightW [(off % 2 ^ 48, 8)] with
    | (s, .waits) => (s, none)
    | (s, .failed) => State.reachValid s key cid k rest
    | (s, .lands ls) =>
      match State.reachValid s key cid k rest with
      | (s, some more) => (s, some ((ls, p) :: more))
      | (s, none) => (s, none)

/-- The distributor's writes of some packets' word 0 with V = 0, relaxed stores at mod scope (R342). -/
def State.clearValid (s : State) (ws : List (List (Landing × Nat) × Packet)) : State :=
  ws.foldl (fun s e => s.fdiePut e.1 (leBytes 8 ((e.2.getD 0 0) - (if pValid e.2 then 8 else 0)))) s

/-- A packet of a device-side queue, read through the context's tiers. -/
def State.dsqPacket (s : State) (cid q i : Nat) : State × Found × Packet :=
  let off := bitsAt (s.dsqWord cid q 1) 0 48 + 64 * (i % s.dsqCap cid q)
  match s.unitReach fdieCore (dsqKey cid q) cid fdieCore (BitVec.ofNat 64 (s.dsqWord cid q 0)) rightR (runs64 off 1) with
  | (s, .lands ls) =>
    let (s, bs) := s.fdieGet ls
    (s, .lands ls, (List.range 8).map (wordAt bs))
  | (s, f) => (s, f, [])

/-- The queue stands at a packet whose V is 0, until the next LAUNCH to it or for 65,536 fc (R342). -/
def State.dsqHolds (s : State) (cid q : Nat) : State := { s with dsqWait := (cid, q, s.fc) :: s.dsqWait }

/-- A work packet of a device-side queue accepted, after its NODE if it has one, `n` packets in all; the writes that clear V come before RD
moves, and the packet waits while a lookup for one of them does. -/
def State.takeDsq (s : State) (cid q n : Nat) (node : Option Packet) (p : Packet) (found : Bool) : Option State :=
  let k := BitVec.ofNat 64 (s.dsqWord cid q 0)
  let rd := s.dsqRd cid q
  let off := fun (i : Nat) => bitsAt (s.dsqWord cid q 1) 0 48 + 64 * (i % s.dsqCap cid q)
  let index := (rd + n - 1) % 2 ^ 32
  let parent := (s.published.find? (fun e => e.1 == cid && e.2.1 == q && e.2.2.1 == index)).map (·.2.2.2)
  let bad := !found || packetCode p != 0 || pType p == 2 || pType p == 5
  let stores := (match node with
    | some m => [(off rd, m)]
    | none => []) ++ (if found then [(off index, p)] else [])
  let finish := fun (t : State) (a : Accepted) =>
    match t.reachValid (dsqKey cid q) cid k stores with
    | (t, none) => if t = s then none else some t
    | (t, some ws) =>
      some (((t.enterWork q true index cid (bitsAt (t.dsqWord cid q 3) 0 2) false parent node p a).clearValid ws).dsqAdvance cid q n)
  if found && !pValid p then some (s.dsqHolds cid q)
  else if bad then finish s (.refused 2)
  else
    match s.acceptWork (dsqKey cid q) cid node p with
    | (s', .waits) =>
      if pType p = 1 && !fieldsBad node p then (if s' = s then none else some s') else finish s' .waits
    | (s', a) => finish s' a

/-- DSQ_READ (R342): the packet at the read index, with the work packet after it when it is a NODE. -/
def execDsqRead (s : State) : Host.Outcome State Fault Refusal := whenDue (
  let cid := s.arg 0
  let q := s.arg 1
  let rd := s.dsqRd cid q
  if 64 ≤ q ∨ !s.ctxValid cid ∨ !s.dsqEnabled cid q ∨ rd = s.dsqW cid q ∨
      s.dsqWait.any (fun e => e.1 == cid && e.2.1 == q) ∨ s.poolBehind (dsqKey cid q) then none
  else if s.poolFull then s.poolQueued (dsqKey cid q)
  else
    match (s.poolServed (dsqKey cid q)).dsqPacket cid q rd with
    | (s', .waits, _) => if s' = s then none else some s'
    | (s', .failed, _) => s'.takeDsq cid q 1 none [] false
    | (s', .lands _, p) =>
      if !pValid p then some (s'.dsqHolds cid q)
      else if pType p ≠ 2 ∨ packetCode p ≠ 0 then s'.takeDsq cid q 1 none p true
      else if (rd + 1) % 2 ^ 32 = s'.dsqW cid q then some (s'.dsqHolds cid q)
      else
        match s'.dsqPacket cid q ((rd + 1) % 2 ^ 32) with
        | (s'', .waits, _) => if s'' = s then none else some s''
        | (s'', .failed, _) => s''.takeDsq cid q 2 (some p) [] false
        | (s'', .lands _, w) => s''.takeDsq cid q 2 (some p) w true)

/-- DSQ_VALID_TIMEOUT (R342): 65,536 fc at a packet whose V is 0, and the distributor reads it again. -/
def execDsqValidTimeout (s : State) : Host.Outcome State Fault Refusal := whenDue (do
  let e ← s.dsqWait.find? (fun e => e.1 == s.arg 0 && e.2.1 == s.arg 1)
  if s.fc < e.2.2 + 65536 then none else some { s with dsqWait := s.dsqWait.erase e })

/-! ## HOST and COPY packets -/

/-- Replaces a work. -/
def State.setWork (s : State) (w : Work) : State := { s with works := s.works.map (fun (x : Work) => if x.id = w.id then w else x) }

/-- The work of this number, still to complete. -/
def State.work? (s : State) (id : Nat) : Option Work := s.works.find? (fun w => w.id == id && w.status.isNone)

/-- Has a work a predecessor that completed with a nonzero status (R332)? -/
def State.depFails (s : State) (w : Work) : Bool := w.preds.any (fun i => s.works.any (fun x => x.id == i && (x.status.getD 0) != 0))

/-- May a work start: ready, with no failed predecessor, no status decided at acceptance, its context live (R328, R332)? -/
def State.mayStart (s : State) (w : Work) : Bool := s.workReady w && !s.depFails w && w.result.isNone && s.ctxValid w.cid

/-- HOST_PACKET (R331): the driver is interrupted with the queue's number and the argument words. -/
def execHostPacket (s : State) : Host.Outcome State Fault Refusal := whenDue (do
  let w ← s.work? (s.arg 0)
  if w.kind != .host || w.started || !s.mayStart w || !s.dispatches then none
  else
    let args := (List.range 4).map (fun i => (w.words.getD (3 + i) 0).toNat * 2 ^ (4 + 64 * i))
    some ((s.setWork { w with started := true }).interrupt 2 (w.queue + args.foldl (· + ·) 0)))

/-- HOSTDONE (R329, R331): the oldest open HOST packet of the queue will complete with this status. -/
def execHostdone (s : State) : Host.Outcome State Fault Refusal := whenDue (do
  let w ← s.works.find? (fun w => w.kind == .host && !w.dsq && w.queue == s.arg 0 && w.started && w.result.isNone)
  some (s.setWork { w with result := some (s.arg 1 % 256) }))

/-- The octets that may take a COPY packet (R335): those of its home die, else all whose die is there. -/
def State.copyOctets (s : State) (home : Option Nat) : List Nat :=
  let there := (List.range 16).filter (fun o => !(s.die (o / 4)).disabled && !(s.die (o / 4)).lost)
  match home with
  | some d => let mine := there.filter (fun o => o / 4 == d)
    if mine.isEmpty then there else mine
  | none => there

/-- The requests queued at an octet's engine: of blocks, and COPY packets under way. -/
def State.engineLoad (s : State) (octet : Nat) : Nat :=
  s.engineQueue octet + (s.works.filter (fun w => w.kind == .copy && w.octet == some octet && w.result.isNone)).length

/-- The engine with the fewest queued requests among some octets. -/
def State.leastLoaded (s : State) : List Nat → Option Nat
  | [] => none
  | o :: rest =>
    match State.leastLoaded s rest with
    | none => some o
    | some p => if s.engineLoad p < s.engineLoad o then some p else some o

/-- One byte of a COPY packet (R331): a weak load, then a weak store. None: the engine waits at it. -/
def State.copyByte (s : State) (w : Work) (octet : Nat) : State × Option Bool :=
  let core := 32 * octet
  let unit := fdieCore + 1 + octet
  let off := fun (i : Nat) => (bitsAt (w.words.getD i 0).toNat 0 48 + w.copied) % 2 ^ 48
  match s.unitReach unit w.id w.cid core w.k rightR [(off 2, 1)] with
  | (s, .waits) => (s, none)
  | (s, .failed) => (s, some false)
  | (s, .lands from_) =>
    match s.unitReach unit w.id w.cid core w.k rightW [(off 3, 1)] with
    | (s, .waits) => (s, none)
    | (s, .failed) => (s, some false)
    | (s, .lands dest) =>
      let (s, bs) := s.engineGet (octet / 4) from_
      ((s.enginePut (octet / 4) w.id dest bs).charge w.cid 6 1, some true)

/-- Some bytes in ascending address, until one holds the engine or stops the copy. -/
def State.copyBytes (s : State) (w : Work) (octet : Nat) : Nat → State × Work
  | 0 => (s, w)
  | n + 1 =>
    match s.copyByte w octet with
    | (s, none) => (s, w)
    | (s, some false) => (s, { w with result := some 3 })
    | (s, some true) => State.copyBytes s { w with copied := w.copied + 1 } octet n

/-- COPY_PACKET (R331, R335): the engine takes the packet, and copies some of its bytes, a free number of them (assumption 3). -/
def execCopyPacket (s : State) : Host.Outcome State Fault Refusal := whenDue (do
  let w ← s.work? (s.arg 0)
  if w.kind != .copy || w.result.isSome || (!w.started && !(s.mayStart w && s.dispatches)) then none
  else
    let octet ← (match w.octet with
      | some o => some o
      | none => s.leastLoaded (s.copyOctets w.home))
    if s.engineHeld octet then none
    else
      let len := bitsAt (w.words.getD 4 0).toNat 0 40
      let left := len - w.copied
      let some_ := Config.pick s.turn 21 w.id
      let w := { w with octet := some octet, started := true }
      let (s1, w1) := s.copyBytes w octet (if some_ = 0 then left else min some_ left)
      let w1 := if w1.copied = len then { w1 with result := some 0 } else w1
      some (s1.setWork w1))

end Sys2Proof.Machine
end

