-- ==== Sys2Proof/Machine/Place.lean ====
section
/-! DEFINITION. The distributor: the room of cores (R231), placement in the order of R336 with the preference of R335, gangs (R337,
R242), the saves it requests (R206, R336), the release of a block's room (R233). -/
namespace Sys2Proof.Machine
open Sys2Proof

/-! ## Room -/

/-- May the distributor place on a core: running, dispatch going on, its die not being reset, its mask covering what the launch requires
(R243, R319, R374)? -/
def State.placeable (s : State) (l : Launch) (core : Nat) : Bool :=
  s.coreServes l core && s.coreRuns core && !(s.reg (clgateReg (coreDie core))).getLsbD (core / 4 % 32) && s.dispatches && (match s.dieReset with
    | some r => r.die != coreDie core
    | none => true)

/-- The groups that hold room in a quadrant as placement counts it: those of every block not yet released and not saved (R233), but for
the blocks of `skip`. -/
def State.placedGroups (s : State) (skip : List Nat) (core quad : Nat) : List Group :=
  s.groups.filter (fun g => g.core == core && grpQuad g.grp == quad && g.life != .saved && !skip.contains g.block)

/-- The slabs free in a quadrant for placement. -/
def State.roomSlabs (s : State) (skip : List Nat) (core quad : Nat) : Nat :=
  32 - ((s.placedGroups skip core quad).map (·.slabs)).foldl (· + ·) 0

/-- The scratchpad bytes free on a core (R144). -/
def State.roomSpad (s : State) (skip : List Nat) (core : Nat) : Nat :=
  3145728 - (((s.core core).room.filter (fun e => !skip.contains e.1)).map (fun e => e.2.2)).foldl (· + ·) 0

/-- How many more blocks of a launch a core, or a cluster, takes (R29, R231). -/
def State.placeRoom (s : State) (skip : List Nat) (l : Launch) (place : Nat) : Nat :=
  let cores := l.coresAt (l.placeCore place)
  if !cores.all (s.placeable l) then 0
  else
    cores.foldl (fun m core =>
      let c := if l.onCluster then core % 4 else 0
      let m := if l.spad = 0 then m else min m (s.roomSpad skip core / l.spad)
      (List.range 4).foldl (fun m q =>
        let n := l.seats c q
        if n = 0 then m
        else min m (min ((24 - (s.placedGroups skip core q).length) / n) (s.roomSlabs skip core q / (n * max 1 l.slabs)))) m) 24

/-! ## Units and instances -/

/-- The instance that a unit of a grid is bound to, once a block of it has been placed (R228). -/
def Grid.boundTo (x : Grid) (unit : List Nat) : Option Nat := (x.bound.find? (fun e => e.1 == unit)).map (·.2)

/-- The levels above the block level, from the top one down. -/
def Launch.upperLevels (l : Launch) : List Nat := (List.range (l.top - l.blockLevel)).map (fun i => l.top - i)

/-- Does a core lie in the instances that the units of a block are bound to (R228)? -/
def Grid.bindsTo (x : Grid) (path : List Nat) (core : Nat) : Bool :=
  x.launch.upperLevels.all (fun n => match x.boundTo (x.launch.unitPrefix path n) with
    | some i => instanceOf (x.launch.domainAt n) core == i
    | none => true)

/-- Does the preference for a home die let a block go to a core: on that die, or none named, or a unit of it bound to a die already
(R335)? -/
def Grid.atHome (x : Grid) (path : List Nat) (core : Nat) : Bool :=
  match x.homeDie with
  | none => true
  | some d => coreDie core == d || x.launch.upperLevels.any (fun n => x.launch.domainAt n ≤ 5 &&
      (x.boundTo (x.launch.unitPrefix path n)).isSome)

/-- Do two instances share a core? -/
def sharesCore (d i e j : Nat) : Bool :=
  if d ≤ e then instanceOf e ((instanceCores d i).headD 0) == j else instanceOf d ((instanceCores e j).headD 0) == i

/-- The unit of a block that is placed whole. -/
def Grid.wholeUnit (x : Grid) (path : List Nat) : List Nat := x.launch.unitPrefix path x.launch.wholeLevel

/-- The domain of the instance that a waiting gang asks for. -/
def State.gangDomain (s : State) (g : Gang) : Nat :=
  match s.grid? g.grid with
  | some x => x.launch.domainAt x.launch.wholeLevel
  | none => 6

/-- Has another unit's gang reserved an instance that holds this core (R337)? -/
def State.reserved (s : State) (grid : Nat) (unit : List Nat) (core : Nat) : Bool :=
  s.gangs.any (fun g => !g.failed && !(g.grid == grid && g.path == unit) && (match g.inst with
    | some i => instanceOf (s.gangDomain g) core == i
    | none => false))

/-- The bytes of a die's L2 pinned for windows (R230). -/
def State.pinned (s : State) (die : Nat) : Nat :=
  ((s.windows.filter (fun w => w.die == die)).map (·.bytes)).foldl (· + ·) 0

/-- The die window of a unit. -/
def State.unitWindow? (s : State) (grid : Nat) (unit : List Nat) : Option Window :=
  s.windows.find? (fun w => w.grid == grid && w.path == unit)

/-- The levels of a launch that declare a window, with its bytes. -/
def Launch.windowLevels (l : Launch) : List (Nat × Nat) :=
  (l.upperLevels.map (fun n => (n, 65536 * (l.level n).window))).filter (fun e => e.2 != 0)

/-- The bytes of a die's L2 that more windows may take (R230). -/
def State.windowRoom (s : State) (die : Nat) : Nat := 67108864 - s.pinned die

/-- Do the windows that a block's units still lack fit the die, and with them those of a gang unit that is bound to one die (R230)? -/
def State.windowsFit (s : State) (x : Grid) (path : List Nat) (die : Nat) : Bool :=
  let l := x.launch
  let inner := fun (n : Nat) => decide (n ≤ l.wholeLevel ∧ l.domainAt l.wholeLevel ≤ 5)
  let lacking := l.windowLevels.filter (fun e => !inner e.1 && (s.unitWindow? x.id (l.unitPrefix path e.1)).isNone)
  let gang := if l.domainAt l.wholeLevel ≤ 5 then l.windowNeed (l.wholeLevel - l.blockLevel) else 0
  (lacking.map (·.2)).foldl (· + ·) 0 + gang ≤ s.windowRoom die

/-- Is there room for a block of a grid at this core, with the blocks of `skip` away: its room, its bindings, its windows, no reservation;
and the whole of its gang unit within the instance (R231, R242)? -/
def State.fitsCore (s : State) (skip : List Nat) (x : Grid) (path : List Nat) (core : Nat) : Bool :=
  let l := x.launch
  let b := l.blockLevel
  x.bindsTo path core && !s.reserved x.id (x.wholeUnit path) core && s.windowsFit x path (coreDie core) &&
    (List.range (l.wholeLevel - b + 1)).all (fun k =>
      1 ≤ l.holdsAt (s.placeRoom skip l) s.windowRoom k (instanceOf (l.domainAt (b + k)) core))

/-- Has a grid's home die room for a block (R335)? -/
def State.homeHasRoom (s : State) (skip : List Nat) (x : Grid) (path : List Nat) : Bool :=
  (List.range (instanceCount (x.launch.domainAt x.launch.blockLevel))).any (fun p =>
    x.atHome path (x.launch.placeCore p) && s.fitsCore skip x path (x.launch.placeCore p))

/-- May a block of a grid go to this core: there is room, and it lies on the home die, or that has had none for 20 µs (R335)? -/
def State.fitsAt (s : State) (skip : List Nat) (x : Grid) (path : List Nat) (core : Nat) : Bool :=
  s.fitsCore skip x path core && (x.atHome path core || (x.anyDie && !s.homeHasRoom skip x path))

/-- May a block of a grid go anywhere? -/
def State.fitsSomewhere (s : State) (skip : List Nat) (x : Grid) (path : List Nat) : Bool :=
  (List.range (instanceCount (x.launch.domainAt x.launch.blockLevel))).any (fun p => s.fitsAt skip x path (x.launch.placeCore p))

/-! ## Units still to place -/

/-- How many units each level has, from the top one down to the block level. -/
def Grid.counts (x : Grid) : List Nat := x.count :: x.launch.upperLevels.map (fun n => (x.launch.level n).count)

/-- Is a path one of the grid's blocks? -/
def Grid.legalPath (x : Grid) (path : List Nat) : Bool :=
  path.length == x.counts.length && (List.range path.length).all (fun i => path.getD i 0 < x.counts.getD i 0)

/-- One unplaced block under each unit that has some, the first by index (R336: the units of a grid have no order). -/
def freshUnder : List Nat → List (List Nat) → List (List Nat)
  | [], placed => if placed.isEmpty then [[]] else []
  | n :: ns, placed =>
    let used := (placed.map (fun p => p.headD 0)).eraseDups
    let new := (List.range (used.length + 1)).find? (fun i => !used.contains i)
    (match new with
      | some i => if i < n then [i :: ns.map (fun _ => 0)] else []
      | none => []) ++
    used.flatMap (fun i => (freshUnder ns ((placed.filter (fun p => p.headD 0 == i)).map (·.drop 1))).map (i :: ·))

/-- Blocks of a grid that wait unplaced, one under each unit. -/
def Grid.waiting (x : Grid) : List (List Nat) := freshUnder x.counts x.placed

/-- May a grid's units be placed: its work ready, its context live, no gang of it failed (R328, R332, R337)? -/
def State.gridPlaces (s : State) (x : Grid) : Bool :=
  !x.failed && s.ctxValid x.cid && (match s.work? x.work with
    | some w => s.mayStart w
    | none => false)

/-! ## Order -/

/-- Does some waiting unit of the module satisfy a test? -/
def State.someWaiting (s : State) (p : Grid → List Nat → Bool) : Bool :=
  s.grids.any (fun x => s.gridPlaces x && x.waiting.any (fun path => p x path))

/-- Are there operand-log entries for a block's failed accesses on a cluster (R39)? -/
def State.logsFit (s : State) (b : Block) (cluster : Nat) : Bool :=
  let gs := (s.blockGroups b.id).filter Group.live
  (List.range 4).all (fun c => (List.range 4).all (fun q =>
    let need := ((gs.filter (fun g => g.core % 4 == c && grpQuad g.grp == q)).flatMap (fun g => g.accs.filterMap (·.log))).length
    decide (need = 0) || decide (need + (s.logUsed (4 * cluster + c) q).length ≤ 64)))

/-- Could a saved block resume on a cluster: the same positions, its slabs, its allotment, within the instances it is bound to, on the die
of its windows and of its memberships (R199, R230, R234, R243)? Arrays that others own it waits for once resumed (R184). -/
def State.resumesAt (s : State) (b : Block) (cluster : Nat) : Bool :=
  match s.grid? b.grid with
  | none => false
  | some x =>
    let gs := (s.blockGroups b.id).filter Group.live
    let cores := b.cores.map (fun c => 4 * cluster + c % 4)
    let here := fun (g : Group) => 4 * cluster + g.core % 4
    let slabsIn := fun (c q : Nat) => ((gs.filter (fun g => here g == c && grpQuad g.grp == q)).map (·.slabs)).foldl (· + ·) 0
    let first := cores.headD 0
    let joined := s.mgroups.any (fun m => m.members.any (fun y => gs.any (fun g => g.id == y.gid)))
    s.logsFit b cluster && cores.all (s.placeable x.launch) && x.bindsTo b.path first && !s.reserved x.id (x.wholeUnit b.path) first &&
      cores.all (fun c => x.launch.spad ≤ s.roomSpad [] c) &&
      cores.all (fun c => (List.range 4).all (fun q => slabsIn c q ≤ s.roomSlabs [] c q)) &&
      gs.all (fun g => !(s.placedGroups [] (here g) (grpQuad g.grp)).any (fun y => y.grp == g.grp)) &&
      (s.windows.all (fun w => !(w.grid == b.grid && w.path == b.path.take w.path.length) || w.die == cluster / 32)) &&
      (!joined || cluster / 32 == b.cluster / 32) &&
      !s.staleCopies.any (fun c => c.die == cluster / 32 && c.writers.any (fun i => gs.any (fun g => g.id == i)))

/-- Has the save of a block's whole unit ended (R337, R338)? -/
def State.unitSaved (s : State) (b : Block) : Bool :=
  (s.mates b).all (fun y => y.state == .saved || y.state == .woken || y.state == .retired || y.state == .released)

/-- A saved block's room taken on a cluster, to see what else fits. -/
def State.trialAt (s : State) (b : Block) (spad cluster : Nat) : State :=
  let s := (b.cores.map (fun c => 4 * cluster + c % 4)).foldl (fun (s : State) c =>
    s.setCore c { s.core c with room := (s.core c).room ++ [(b.id, 0, spad)] }) s
  { s with groups := s.groups.map (fun (g : Group) =>
      if g.block = b.id ∧ g.life = .saved then { g with life := .resident, core := 4 * cluster + g.core % 4 } else g) }

/-- Do some saved blocks fit together, each on the first cluster that takes it beside those before it (R242)? -/
def State.unitFits (s : State) : List Block → Bool
  | [] => true
  | b :: rest =>
    match (List.range 128).find? (s.resumesAt b), s.grid? b.grid with
    | some c, some x => State.unitFits (s.trialAt b x.launch.spad c) rest
    | _, _ => false

/-- Is a block queued for relaunch: woken, or saved and not to wait for its watches (R206, R238, R336)? -/
def State.relaunches (s : State) (b : Block) : Bool := (b.state == .woken || (b.state == .saved && !b.waiting)) && s.unitSaved b

/-- Could a block resume somewhere, with the rest of its unit (R242)? -/
def State.resumesSomewhere (s : State) (b : Block) : Bool :=
  s.relaunches b && s.unitFits ((s.mates b).filter (fun y => y.state == .saved || y.state == .woken))

/-- Its rank in the order of R336: its band; woken, then saved, then unplaced; the order of its packet. -/
def State.blockRank (s : State) (b : Block) : Nat × Nat × Nat :=
  match s.grid? b.grid with
  | some x => (x.band, if b.state == .woken then 0 else 1, x.order)
  | none => (3, 1, 0)

/-- Does one rank come before another? -/
def rankBefore (p q : Nat × Nat × Nat) : Bool :=
  decide (p.1 < q.1) || (p.1 == q.1 && (decide (p.2.1 < q.2.1) || (p.2.1 == q.2.1 && decide (p.2.2 < q.2.2))))

/-- Could a unit of a lower rank be placed or resumed now (R336)? -/
def State.othersFirst (s : State) (rank : Nat × Nat × Nat) : Bool :=
  s.blocks.any (fun b => rankBefore (s.blockRank b) rank && s.resumesSomewhere b) ||
    s.someWaiting (fun x path => rankBefore (x.band, 2, x.order) rank && s.fitsSomewhere [] x path)

/-! ## Placing -/

/-- A zeroed stretch of a core's scratchpad, with no object and no poison in it. -/
def Core.clearRun (c : Core) (a n : Nat) : Core :=
  let out := fun (o : Nat) => !(decide (a ≤ o ∧ o < a + n))
  { c with
    spad := c.spad.filter (fun e => out e.1)
    objects := c.objects.filter out
    spoiled := c.spoiled.filter out
    poisoned := c.poisoned.filter (fun p => out (128 * p.1)) }

/-- Gives a block an allotment on a core, which reads zero (R144, R231). Its place is virtual: beyond every allotment there. -/
def State.allotOn (s : State) (block size core : Nat) : State :=
  let c := s.core core
  let base := (c.room.map (fun e => e.2.1 + e.2.2)).foldl max 0
  s.setCore core { c.clearRun base size with room := c.room ++ [(block, base, size)] }

/-- The lowest free position of a quadrant (R231). -/
def State.lowestFree (s : State) (core quad : Nat) : Nat :=
  24 * quad + ((List.range 24).find? (fun i => !(s.placedGroups [] core quad).any (fun g => g.grp == 24 * quad + i))).getD 0

/-- The level indices of group `i` of a block (R36). -/
def Launch.indices (l : Launch) (path : List Nat) (i : Nat) : List Nat :=
  (List.range 8).map (fun n =>
    if n = 0 ∨ l.top < n then 0
    else if n < l.blockLevel then i / l.unitsIn 1 n % max 1 (l.level (n + 1)).count
    else path.getD (l.top - n) 0)

/-- The level sizes of a grid (R36). -/
def Grid.dims (x : Grid) : List Nat :=
  (List.range 8).map (fun n =>
    if n = 0 then 32 else if n < x.launch.top then (x.launch.level (n + 1)).count else if n = x.launch.top then x.count else 1)

/-- The K registers at the start (R15, R230): under KLOAD; K15 the window of the innermost level that declares one. -/
def State.startK (s : State) (x : Grid) (path : List Nat) : Sparse 64 :=
  let k := (List.range 16).foldl (fun (m : Sparse 64) i => if x.launch.kload.getLsbD i then Sparse.set m i (x.launch.ks.getD i 0) else m) []
  match x.launch.windowLevels.getLast?.bind (fun e => s.unitWindow? x.id (x.launch.unitPrefix path e.1)) with
  | some w => Sparse.set k 15 w.k
  | none => k

/-- Starts group `i` of a block (R15, R86, R231, R331). -/
def State.startGroup (s : State) (x : Grid) (block first : Nat) (path : List Nat) (i : Nat) : State × Nat :=
  let l := x.launch
  let (c, q) := l.seat i
  let core := first + c
  let (id, s) := s.fresh
  let args := (List.range 4).foldl (fun (m : Sparse 64) j => Sparse.set m j (x.args.getD j 0)) []
  let g : Group :=
    { id := id, core := core, grp := s.lowestFree core q, cid := x.cid, block := block, index := i, lvlIdx := l.indices path i,
      lvlDim := x.dims, life := .resident, slabs := l.slabs, v := [], s := args, k := s.startK x path, p := [], q := [],
      a := { Slot.empty with st := .run, pc := l.entry, mask := 0xFFFFFFFF, check := true }, b := .empty, stale := [], late := [],
      wrote := [], accs := [], copies := 0, openBatch := [], sealed := [], nextBatch := 0, arrivals := [], mxErrors := [], feeding := false,
      relTurn := 0 }
  ({ s with groups := s.groups ++ [g] }, id)

/-- Starts some groups in index order. -/
def State.startGroups (s : State) (x : Grid) (block first : Nat) (path : List Nat) : List Nat → State × List Nat
  | [] => (s, [])
  | i :: rest =>
    let (s, id) := s.startGroup x block first path i
    let (s, ids) := State.startGroups s x block first path rest
    (s, id :: ids)

/-- Pins the windows that a block's units still lack; they read zero (R230). -/
def State.pinWindows (s : State) (x : Grid) (path : List Nat) (die : Nat) : State :=
  x.launch.windowLevels.foldl (fun (s : State) e =>
    let unit := x.launch.unitPrefix path e.1
    match s.unitWindow? x.id unit with
    | some _ => s
    | none =>
      let (id, s) := s.fresh
      let w : Window := { id := id, grid := x.id, path := unit, cid := x.cid, die := die, bytes := e.2, k := windowK id }
      let inside := fun (a : Nat) => decide (windowBase id ≤ a ∧ a < windowBase id + e.2)
      { s with windows := s.windows ++ [w], mem := s.mem.filter (fun c => !inside c.1), poison := s.poison.filter (fun l => !inside (128 * l)) }) s

/-- Places a block at a core, or at the core's cluster (R231): its windows, its allotments, its groups; its units are bound to the
instances it lies in (R228). -/
def State.placeBlock (s : State) (grid : Nat) (path : List Nat) (core : Nat) : State :=
  match s.grid? grid with
  | none => s
  | some x =>
    let l := x.launch
    let cores := l.coresAt core
    let first := cores.headD 0
    let fused := s.fusedAt first
    let s := s.pinWindows x path (coreDie first)
    let (id, s) := s.fresh
    let s := cores.foldl (fun (s : State) c => s.allotOn id l.spad c) s
    let (s, ids) := s.startGroups x id first path (List.range l.groupCount)
    let new := (l.upperLevels.filter (fun n => (x.boundTo (l.unitPrefix path n)).isNone)).map (fun n =>
      (l.unitPrefix path n, instanceOf (l.domainAt n) first))
    let b : Block :=
      { id := id, grid := grid, cid := x.cid, path := path, cluster := first / 4, cores := cores, groups := ids, state := .resident,
        placedFc := s.fc, stalledFc := some s.fc, images := [], arrays := [], savedBase := 0, savedSize := 0, savedLclk := 0, waiting := false,
        owed := [], replays := [] }
    let s := ({ s with blocks := s.blocks ++ [b] } : State).reFuse (first / 4) fused
    let home := x.atHome path first
    s.setGrid { x with placed := x.placed ++ [path], bound := x.bound ++ new, anyDie := x.anyDie && !home,
                       affinityFc := if home then s.fc else x.affinityFc }

/-- All paths of some counts. -/
def allPaths : List Nat → List (List Nat)
  | [] => [[]]
  | n :: ns => (List.range n).flatMap (fun i => (allPaths ns).map (i :: ·))

/-- The length of the common beginning of two paths. -/
def common : List Nat → List Nat → Nat
  | x :: xs, y :: ys => if x = y then common xs ys + 1 else 0
  | _, _ => 0

/-- The blocks of a gang unit but one, those nearest to it first, so that a unit is filled before the next is begun. -/
def Grid.gangOrder (x : Grid) (path : List Nat) : List (List Nat) :=
  let unit := x.wholeUnit path
  let all := (allPaths (x.counts.drop unit.length)).map (unit ++ ·)
  (List.range (path.length + 1)).flatMap (fun i => all.filter (fun p => p != path && common p path == path.length - i))

/-- The place of a further block of a gang unit, level by level: the instance its unit is bound to, or one of the model's free choice
that still holds a whole one (assumption 3). `k` levels below the level of `inst`. -/
def State.chooseCore (s : State) (x : Grid) (path : List Nat) : Nat → Nat → Nat
  | 0, inst => x.launch.placeCore inst
  | k + 1, inst =>
    let l := x.launch
    let n := l.blockLevel + k
    let room := (innerInstances (l.domainAt n) (l.domainAt (n + 1)) inst).filter (fun i =>
      1 ≤ l.holdsAt (s.placeRoom [] l) s.windowRoom k i)
    match (if k = 0 then none else x.boundTo (l.unitPrefix path n)) with
    | some i => State.chooseCore s x path k i
    | none => State.chooseCore s x path k (room.getD (Config.pick s.turn 22 s.nextId % max 1 room.length) 0)

/-- Places the rest of a gang unit, whose first block has been placed (R242). -/
def State.placeRest (s : State) (grid inst : Nat) : List (List Nat) → State
  | [] => s
  | p :: rest =>
    match s.grid? grid with
    | none => s
    | some x => State.placeRest (s.placeBlock grid p (s.chooseCore x p (x.launch.wholeLevel - x.launch.blockLevel) inst)) grid inst rest

/-- The gang of a unit, while it waits. -/
def State.gang? (s : State) (grid : Nat) (unit : List Nat) : Option Gang := s.gangs.find? (fun g => g.grid == grid && g.path == unit)

/-- BLOCK_PLACE (R231, R242, R336): the block, and with it the rest of its gang unit, once no unit of an earlier rank could be placed. -/
def execBlockPlace (s : State) : Host.Outcome State Fault Refusal := whenDue (do
  let x ← s.grid? (s.arg 0)
  let core := s.arg 1
  let path := s.args.drop 2
  if !s.gridPlaces x || 512 ≤ core || !x.legalPath path || x.placed.contains path || !s.fitsAt [] x path core ||
      s.othersFirst (x.band, 2, x.order) then none
  else
    let unit := x.wholeUnit path
    let s := s.placeBlock x.id path core
    let s := if x.launch.wholeLevel = x.launch.blockLevel then s
      else s.placeRest x.id (instanceOf (x.launch.domainAt x.launch.wholeLevel) core) (x.gangOrder path)
    some { s with gangs := s.gangs.filter (fun (g : Gang) => !(g.grid == x.id && g.path == unit)) })

/-- AFFINITY_TIMEOUT (R335): for 20 µs, since its work became ready or one was placed there, no block of the grid has found room on the
home die: those that wait may go to any. -/
def execAffinityTimeout (s : State) : Host.Outcome State Fault Refusal := whenDue (do
  let x ← s.grid? (s.arg 0)
  let since := max x.affinityFc (x.readyFc.getD 0)
  if !s.gridPlaces x || x.anyDie || x.homeDie.isNone || s.fc < since + 32000 || x.waiting.any (s.fitsSomewhere [] x) then none
  else some (s.setGrid { x with anyDie := true }))

/-! ## Saves requested -/

/-- May a block be saved for other work: resident for 1 ms, from a queue without NOPRE, its image with room in the save area (R336,
R338)? -/
def State.preemptible (s : State) (b : Block) : Bool :=
  s.saveable b && decide (b.placedFc + 1600000 ≤ s.fc) && (match s.grid? b.grid with
    | some x => !x.nopre
    | none => false)

/-- The band of a block. -/
def State.bandOf (s : State) (b : Block) : Nat := (s.grid? b.grid).elim 3 (·.band)

/-- Is a block the next to be saved among some: the highest band number, then the longest resident (R336)? -/
def State.nextSaved (s : State) (bs : List Block) (b : Block) : Bool :=
  bs.all (fun y => decide (s.bandOf y < s.bandOf b) || (s.bandOf y == s.bandOf b && decide (b.placedFc ≤ y.placedFc)))

/-- The blocks being saved. -/
def State.saving (s : State) : List Nat := (s.blocks.filter (fun b => b.state == .saving)).map (·.id)

/-- SAVE_REQUEST (R336): a block of a band numerically greater than that of a unit which waits and would not fit with the saves under
way. -/
def execSaveRequest (s : State) : Host.Outcome State Fault Refusal := whenDue (do
  let b ← s.block? (s.arg 0)
  let wants := fun (y : Block) => s.preemptible y && s.someWaiting (fun x path =>
    decide (x.band < s.bandOf y) && !s.fitsSomewhere s.saving x path)
  if wants b && s.nextSaved (s.blocks.filter wants) b then some (s.requestSave b.id) else none)

/-- The kind of wait that R206 counts: WAITW, BAR, BARW, BOWAIT, QPUSH or QPOP. -/
def Slot.stalled (x : Slot) : Bool :=
  x.st != .run || (match x.wait with
    | some w => (match w.instr with
      | .waitw _ => true
      | .bar _ => true
      | .barw _ => true
      | .bowait _ => true
      | .qpush _ => true
      | .qpop _ => true
      | _ => false)
    | none => false)

/-- Has every live group of a block stood still in such waits for some fc (R206)? -/
def State.stoodStill (s : State) (b : Block) (fc : Nat) : Bool :=
  ((s.blockGroups b.id).filter Group.live).all (fun g => g.a.stalled && g.b.stalled) && (match b.stalledFc with
    | some t => decide (t + fc ≤ s.fc)
    | none => false)

/-- WAITW_SAVE_THRESHOLD (R206, R338): the block, with its gang unit, has stood still in such waits with a watch for its context's
threshold; where the save area has no room, it is tried again after a further threshold. -/
def execWaitwSaveThreshold (s : State) : Host.Outcome State Fault Refusal := whenDue (do
  let b ← s.block? (s.arg 0)
  let us := bitsAt (s.ctxWord b.cid 0) 32 32
  let unit := (s.mates b).filter (fun y => y.state == .resident)
  let watched := unit.any (fun y => (s.blockGroups y.id).any (fun g => g.live && s.watches.any (fun w => w.gid == g.id)))
  let again := fun (s : State) => { s with blocks := s.blocks.map (fun (y : Block) =>
    if unit.any (fun z => z.id == y.id) then { y with stalledFc := some s.fc } else y) }
  if b.state != .resident || !watched || !unit.all (fun y => s.stoodStill y (1600 * (if us = 0 then 100 else us))) then none
  else if !s.saveable b then some (again s)
  else
    let s := s.requestSave b.id
    some { s with blocks := s.blocks.map (fun (y : Block) => if unit.any (fun z => z.id == y.id) then { y with waiting := true } else y) })

/-! ## Gangs -/

/-- Does a gang unit wait without room: ready, unplaced, no place for it (R337)? -/
def State.gangWaits (s : State) (x : Grid) (unit : List Nat) : Bool :=
  s.gridPlaces x && x.launch.wholeLevel != x.launch.blockLevel &&
    unit.length + x.launch.wholeLevel == x.launch.top + 1 && (List.range unit.length).all (fun i => unit.getD i 0 < x.counts.getD i 0) &&
    !x.placed.any (fun p => x.wholeUnit p == unit) &&
    !s.fitsSomewhere [] x (unit ++ (x.counts.drop unit.length).map (fun _ => 0))

/-- How long a gang has waited since it first became placeable in band order (R337). -/
def State.gangAge (s : State) (x : Grid) (unit : List Nat) : Nat :=
  match s.gang? x.id unit with
  | some g => s.fc - g.sinceFc
  | none => 0

/-- The gang units of a grid of which no block has been placed. -/
def Grid.waitingUnits (x : Grid) : List (List Nat) :=
  if x.launch.wholeLevel = x.launch.blockLevel then []
  else (allPaths (x.counts.take (x.launch.top + 1 - x.launch.wholeLevel))).filter (fun u => !x.placed.any (fun p => x.wholeUnit p == u))

/-- The gangs whose turn in band order has come and that find no room: their time runs from here (R337). -/
def State.noteGangs (s : State) : State :=
  let new := s.grids.flatMap (fun x => (x.waitingUnits.filter (fun u => (s.gang? x.id u).isNone && s.gangWaits x u &&
    !s.othersFirst (x.band, 2, x.order))).map (fun u => ({ grid := x.id, path := u, sinceFc := s.fc, inst := none, failed := false } : Gang)))
  { s with gangs := s.gangs ++ new }

/-- The instances a gang could reserve: it fits them when empty, they lie where its units are bound, and no reservation touches them. -/
def State.reservable (s : State) (x : Grid) (unit : List Nat) : List Nat :=
  let l := x.launch
  let d := l.domainAt l.wholeLevel
  (List.range (instanceCount d)).filter (fun i =>
    let core := (instanceCores d i).headD 0
    decide (1 ≤ l.holdsAt (s.emptyRoom l) (fun _ => 67108864) (l.wholeLevel - l.blockLevel) i) && x.bindsTo unit core &&
      !s.gangs.any (fun g => !g.failed && (match g.inst with
        | some j => sharesCore d i (s.gangDomain g) j
        | none => false)))

/-- The free cores of an instance whose masks cover the launch's. -/
def State.freeCores (s : State) (l : Launch) (d i : Nat) : Nat :=
  ((instanceCores d i).filter (fun c => s.placeable l c && (List.range 4).all (fun q => (s.placedGroups [] c q).isEmpty))).length

/-- Does an older gang still want a reservation (R337)? -/
def State.olderGang (s : State) (g : Gang) : Bool :=
  s.gangs.any (fun y => y.sinceFc < g.sinceFc && y.inst.isNone && !y.failed && (match s.grid? y.grid with
    | some x => s.gangWaits x y.path && decide (1600000 ≤ s.gangAge x y.path) && !(s.reservable x y.path).isEmpty
    | none => false))

/-- GANG_RESERVE (R337): at 1 ms, the instance with the most free cores, the lowest index on a tie. -/
def execGangReserve (s : State) : Host.Outcome State Fault Refusal := whenDue (do
  let x ← s.grid? (s.arg 0)
  let i := s.arg 1
  let unit := s.args.drop 2
  let g ← s.gang? x.id unit
  let free := s.freeCores x.launch (x.launch.domainAt x.launch.wholeLevel)
  let all := s.reservable x unit
  if !s.gangWaits x unit || s.gangAge x unit < 1600000 || g.inst.isSome || s.olderGang g || !all.contains i ||
      !all.all (fun j => decide (free j < free i) || (free j == free i && decide (i ≤ j))) then none
  else some { s with gangs := s.gangs.map (fun (y : Gang) => if y.grid = x.id ∧ y.path = unit then { y with inst := some i } else y) })

/-- GANG_EVICT (R337): at 10 ms, the next block of the reserved instance is to be saved, until the gang fits. One block a step. -/
def execGangEvict (s : State) : Host.Outcome State Fault Refusal := whenDue (do
  let x ← s.grid? (s.arg 0)
  let unit := s.args.drop 1
  let g ← s.gang? x.id unit
  let i ← g.inst
  let l := x.launch
  let d := l.domainAt l.wholeLevel
  let enough := 1 ≤ l.holdsAt (s.placeRoom s.saving l) s.windowRoom (l.wholeLevel - l.blockLevel) i
  let all := s.blocks.filter (fun b => s.preemptible b && instanceOf d (b.cores.headD 0) == i)
  let b ← all.find? (s.nextSaved all)
  if g.failed || !s.gangWaits x unit || s.gangAge x unit < 16000000 || enough then none else some (s.requestSave b.id))

/-- GANG_TIMEOUT (R337): at 100 ms the gang fails, and its grid places no further units. -/
def execGangTimeout (s : State) : Host.Outcome State Fault Refusal := whenDue (do
  let x ← s.grid? (s.arg 0)
  let unit := s.args.drop 1
  if !s.gangWaits x unit || s.gangAge x unit < 160000000 then none
  else
    let s := s.setGrid { x with failed := true }
    some { s with gangs := s.gangs.filter (fun (g : Gang) => g.grid != x.id) })

/-! ## Release -/

/-- Are the copies with a slice of a block over, and the fills toward its members counted (R233)? -/
def State.blockQuiet (s : State) (b : Block) : Bool :=
  let gs := s.blockGroups b.id
  !s.copyReqs.any (fun r => r.block == b.id && r.started && !r.finished && r.stopped.isNone) &&
    !s.fills.any (fun f => gs.any (fun g => g.id == f.gid))

/-- Takes a block's room away on a core. -/
def State.freeRoom (s : State) (block core : Nat) : State :=
  let c := s.core core
  s.setCore core { c with room := c.room.filter (fun e => e.1 != block) }

/-- BLOCK_RELEASE (R233): a retired block's room is freed once its counters are zero, its copies over and its fills counted. -/
def execBlockRelease (s : State) : Host.Outcome State Fault Refusal := whenDue (do
  let b ← s.block? (s.arg 0)
  let gs := s.blockGroups b.id
  if b.state != .retired || !gs.all (fun g => g.accs.isEmpty) || !s.blockQuiet b then none
  else
    let s := b.cores.foldl (fun (s : State) c => s.freeRoom b.id c) s
    let s : State := { s with groups := s.groups.filter (fun (g : Group) => g.block != b.id),
                              copyReqs := s.copyReqs.filter (fun (r : CopyReq) => r.block != b.id) }
    some ((s.setBlock { b with state := .released }).reFuse b.cluster (s.fusedAt (4 * b.cluster))))

end Sys2Proof.Machine
end

