-- ==== Sys2Proof/Machine/Save.lean ====
section
/-! DEFINITION. Saving a block and resuming it (R165, R184, R209, R234, R238, R338, R339). -/
namespace Sys2Proof.Machine
open Sys2Proof

/-! ## When a block's save ends -/

/-- Does a request hold up the save of its group: all but failed ones, a slot's own, and stores that an egress has accepted (R165)? -/
def Req.delaysSave (r : Req) : Bool :=
  !r.kind.ofSlot && !r.accepted && (match r.phase with
    | .suspended _ _ _ => false
    | _ => true)

/-- Does a slot hold up its save: a spill move, a self-test in progress (R87, R182)? -/
def Slot.delaysSave (x : Slot) : Bool :=
  x.moving || (match x.wait with
    | some w => (match w.cond with
      | .clockTest _ => true
      | _ => false)
    | none => false)

/-- May the image of a block be taken (R338)? -/
def State.saveReady (s : State) (b : Block) : Bool :=
  let gs := s.blockGroups b.id
  let mine := fun (gid : Nat) => gs.any (fun g => g.id == gid)
  s.blockQuiet b && !s.reqs.any (fun r => mine r.gid && r.delaysSave) && !s.spReqs.any (fun r => mine r.gid) &&
    gs.all (fun g => !g.a.delaysSave && !g.b.delaysSave && (!s.owns g g.core || (s.matrix g.core).ops.isEmpty))

/-! ## Taking the image -/

/-- What a save leaves of a parked slot's wait (R93, R195, R209): a sleep is over, an arrival at a barrier and a watch stand, every other
instruction issues again. -/
def Slot.saved (x : Slot) : Slot :=
  let x := { x with refetching := none, refetched := [] }
  match x.wait with
  | none => x
  | some w =>
    match w.instr with
    | .sleep _ => x.advance
    | .bar _ => x
    | .bara _ => x
    | .barw _ => x
    | .waitw _ => x
    | _ => { x with wait := none }

/-- A slot's stack with the entries that lie in the spill area read back (R87, R339). -/
def State.spillBack (s : State) (g : Group) (n : SlotName) : Slot :=
  let x := g.slot n
  let len := x.spill.length
  { x with spill := (List.range len).filterMap (fun i => (x.spill[i]?).map (fun e =>
      if e.cached then e else { Spill.ofBytes (s.bytes (s.spillAddr g (spillIndex n (len - 1 - i))) 32) e.stamp with cached := false })) }

/-- Has a group a slice of a copy request of its block that is not over (R89, R190)? -/
def State.copies (s : State) (g : Group) : Bool :=
  s.copyReqs.any (fun r => r.block == g.block && !r.finished && r.stopped.isNone && r.slices.any (fun x => x.gid == g.id))

/-- A group's part of the image; a retired group leaves nothing behind but its slices of requests that still await others (R89, R209). -/
def State.saveGroup (s : State) (g : Group) : State :=
  if g.live then
    s.setGroup { g with life := .saved, a := (s.spillBack g .a).saved, b := (s.spillBack g .b).saved }
  else if s.copies g then s
  else { s with groups := s.groups.filter (fun (x : Group) => x.id != g.id) }

/-- A member's requests in held entries, withdrawn, as requests that its resumption reissues (R200, R209). -/
def State.keepHeld (s : State) (g : Group) : State :=
  let mine := s.helds.filter (fun h => !h.spent && h.die == coreDie g.core && h.cid == g.cid)
  mine.foldl (fun (s : State) h => (h.requests.filter (fun r => r.2.1 == g.id)).foldl (fun (s : State) e =>
    let (id, s) := s.fresh
    let o : LaneOp := { lane := 0, addr := 0, data := e.2.2, extra := 0, result := none, cells := [] }
    let r : Req := { Req.blank id g (.mcast h.group h.mask) s.fc with
      turn := s.turn, phase := .entered, lanes := [o], left := 1, line := h.line, passed := [(h.tier, 70000, 0)], noL1 := true }
    { s with reqs := s.reqs ++ [r] }) s) s

/-- Suspends the memberships of a group (R200, R209): its object is known by its place in the allotment from now on. -/
def State.suspendMember (s : State) (g : Group) : State :=
  let base := (s.allot g.core g.block).1
  let mine := s.mgroups.filter (fun m => m.members.any (fun y => y.gid == g.id))
  let s := s.keepHeld g
  let s := mine.foldl (fun (s : State) m =>
    (m.members.filter (fun y => y.gid == g.id)).foldl (fun (s : State) y => s.withdraw m.die m.cid m.number y.index g.id true) s) s
  { s with mgroups := s.mgroups.map (fun (m : MGroup) => { m with members := m.members.map (fun (y : Member) =>
      if y.gid = g.id then { y with suspended := true, object := y.object - base } else y) }) }

/-- The image of a core's scratchpad (R339). -/
def State.spImage (s : State) (block core : Nat) : SpImage :=
  let c := s.core core
  let (base, size) := s.allot core block
  let inside := fun (a : Nat) => decide (base ≤ a ∧ a < base + size)
  { core := core
    bytes := (c.spad.filter (fun e => inside e.1)).map (fun e => (e.1 - base, e.2))
    objects := (c.objects.filter inside).map (· - base)
    spoiled := (c.spoiled.filter inside).map (· - base)
    poisoned := (c.poisoned.filter (fun p => inside (128 * p.1))).map (fun p => (p.1 - base / 128, p.2.map (· - base / 4))) }

/-- The arrays of a block, with the pending MXRDYs of its groups (R184): those it owns, and those at which a group of it has one. -/
def State.arraysOf (s : State) (b : Block) : List (Nat × Matrix) :=
  let gs := s.blockGroups b.id
  let mine := fun (gid : Nat) => gs.any (fun g => g.id == gid)
  let around := (b.cores.flatMap (fun c => [c, pairOther c])).eraseDups
  (around.map (fun c =>
    let m := s.matrix c
    let own := match m.owner with
      | some o => mine o
      | none => false
    (c, { m with owner := if own then m.owner else none, ready := m.ready.filter (fun a => mine a.gid) }))).filter (fun e =>
      e.2.owner.isSome || !e.2.ready.isEmpty)

/-- The block's arrays given up, and its pending MXRDYs taken away, with the arrays granted on (R168, R184). -/
def State.giveUpArrays (s : State) (b : Block) (saved : List (Nat × Matrix)) : State :=
  let gs := s.blockGroups b.id
  let s := saved.foldl (fun (s : State) e =>
    let m := s.matrix e.1
    let ready := m.ready.filter (fun a => !gs.any (fun g => g.id == a.gid))
    s.setMatrix e.1 (if e.2.owner.isSome then { m.freed with ready := ready } else { m with ready := ready })) s
  let s := gs.foldl (fun (s : State) g => s.leaveFifo g) s
  saved.foldl (fun (s : State) e => s.grantArrays e.1) s

/-- The image as it lies in memory: the spec gives it no layout, so its bytes are free (R339). -/
def imageBytes (turn n : Nat) : List Byte :=
  (List.range n).map (fun i => (leBytes 8 (Config.freeWord turn (400000 + i / 8)).toNat).getD (i % 8) 0)

/-- Did a watch wake a slot of the group while its save went on? -/
def Group.woken (g : Group) : Bool :=
  [g.a, g.b].any (fun x => match x.watching with
    | some (_, w) => w.done
    | none => false)

/-- BLOCK_SAVED (R338, R339): the image is taken, its room in the save area is written, and the block's cores are freed. -/
def execBlockSaved (s : State) : Host.Outcome State Fault Refusal := whenDue (do
  let b ← s.block? (s.arg 0)
  if b.state != .saving || !s.saveReady b then none
  else
    let gs := s.blockGroups b.id
    let mine := fun (gid : Nat) => gs.any (fun g => g.id == gid)
    let s := (s.l1.filter (fun l => l.writers.any mine)).foldl State.flushL1 s
    let s := (gs.foldl State.suspendMember s).settleHelds
    let arrays := s.arraysOf b
    let images := b.cores.map (s.spImage b.id)
    let s := gs.foldl State.saveGroup s
    let s := (s.giveUpArrays b arrays).syncFeeding
    let s := b.cores.foldl (fun (s : State) c => s.freeRoom b.id c) s
    let s : State := { s with reqs := s.reqs.filter (fun (r : Req) => !(mine r.gid && r.kind.ofSlot)) }
    let s := s.storeBytes (bitsAt (s.ctxWord b.cid 4) 0 48 + b.savedBase) (imageBytes s.turn b.savedSize)
    let counts := b.cores.map (fun c => (s.core c).lclk)
    let lclk := counts.foldl (fun a c => if a.toNat < c.toNat then c else a) 0
    let s := (s.setBlock { b with state := .saved, images := images, arrays := arrays, savedLclk := lclk }).reFuse b.cluster
      (s.fusedAt (4 * b.cluster))
    some (if gs.any Group.woken then s.wakeBlock b.id else s))

/-! ## Resumption -/

/-- The image of a scratchpad put back at a block's new allotment. -/
def State.loadImage (s : State) (block core : Nat) (m : SpImage) : State :=
  let c := s.core core
  let base := (s.allot core block).1
  s.setCore core { c with
    spad := m.bytes.foldl (fun (p : Sparse 8) e => Sparse.set p (base + e.1) e.2) c.spad
    objects := c.objects ++ m.objects.map (· + base)
    spoiled := c.spoiled ++ m.spoiled.map (· + base)
    poisoned := c.poisoned ++ m.poisoned.map (fun p => (p.1 + base / 128, p.2.map (· + base / 4))) }

/-- Operand-log entries of the new quadrant for the accesses that hold one (R39). -/
def State.relog (s : State) (gid : Nat) : List Access → State
  | [] => s
  | a :: rest =>
    match s.group? gid, a.log with
    | some g, some _ =>
      let e := s.freeLog (g.setAccess { a with log := none })
      let s := s.setGroup (g.setAccess { a with log := e })
      let s : State := { s with reqs := s.reqs.map (fun (r : Req) => if r.gid = gid ∧ r.acc = a.id then { r with log := e.getD 0 } else r) }
      State.relog s gid rest
    | _, _ => State.relog s gid rest

/-- A slot as its block resumes: a WAITW issues again (R209). -/
def Slot.resumed (x : Slot) : Slot := if x.watching.isSome then { x with wait := none } else x

/-- Entries of a slot's stack that lie in the spill area, written at the group's new place (R328). -/
def State.spillOut (s : State) (g : Group) (n : SlotName) : State :=
  let x := g.slot n
  let len := x.spill.length
  (List.range len).foldl (fun s i => match x.spill[i]? with
    | some e => if e.cached then s else s.storeBytes (s.spillAddr g (spillIndex n (len - 1 - i))) e.bytes
    | none => s) s

/-- A group put back on a core of its new cluster (R234); of a retired one only its place moves, for its copies. -/
def State.resumeGroup (s : State) (cluster : Nat) (g : Group) : State :=
  if g.life != .saved then s.setGroup { g with core := 4 * cluster + g.core % 4 }
  else
    let g := { g with core := 4 * cluster + g.core % 4, life := .resident, a := g.a.resumed, b := g.b.resumed,
                      accs := g.accs.map (fun a => if a.log.isSome then { a with log := some 64 } else a) }
    let s := ((s.setGroup g).spillOut g .a).spillOut g .b
    let s : State := { s with watches := s.watches.filter (fun (w : Watch) => w.gid != g.id) }
    s.relog g.id g.accs

/-- Acts on the verdict that came while the group was saved, or replays a failed request (R339, R366). -/
def State.resumeReq (s : State) (core : Nat) (r : Req) : State :=
  let r := { r with core := core }
  match r.phase with
  | .suspended _ _ _ => s.setReq r.restart
  | .kept true _ => s.setReq r.restart
  | .kept false f => s.settleFail r f
  | .entered => s.setReq { r with phase := .ready }
  | _ => s.setReq r

/-- Ends the suspension of a group's memberships (R209, R339). -/
def State.rejoin (s : State) (g : Group) : State :=
  let base := (s.allot g.core g.block).1
  { s with mgroups := s.mgroups.map (fun (m : MGroup) => { m with members := m.members.map (fun (y : Member) =>
      if y.gid = g.id ∧ y.suspended then { y with suspended := false, object := y.object + base } else y) }) }

/-- The requests of some groups that are replayed as their block resumes (R165, R339). -/
def State.replaysOf (s : State) (mine : Nat → Bool) : List Nat :=
  (s.reqs.filter (fun r => mine r.gid && (match r.phase with
    | .suspended _ _ _ => true
    | .kept again _ => again
    | _ => false))).map (·.id)

/-- The pending MXRDYs of a saved array put back; the array itself is taken back once it is free (R184). -/
def State.putReady (s : State) (core : Nat) (x : Matrix) : State :=
  if x.owner.isSome then s
  else s.setMatrix core { s.matrix core with ready := (s.matrix core).ready ++ x.ready }

/-- A block is restored on a cluster (R234, R339): its allotments, its groups at their positions, its replays begun, its arrays asked back
ahead of their FIFOs (R184), its memberships no longer suspended; a slot whose sleep the save ended meets its join (R86). -/
def State.resumeBlock (s : State) (b : Block) (spad cluster : Nat) : State :=
  let at_ := fun (c : Nat) => 4 * cluster + c % 4
  let cores := b.cores.map at_
  let s := cores.foldl (fun (s : State) c => s.allotOn b.id spad c) s
  let s := b.images.foldl (fun (s : State) m => s.loadImage b.id (at_ m.core) m) s
  let gs := s.blockGroups b.id
  let live := gs.filter Group.live
  let mine := fun (gid : Nat) => live.any (fun g => g.id == gid)
  let s := gs.foldl (fun (s : State) g => s.resumeGroup cluster g) s
  let s := cores.foldl (fun (s : State) c => s.setCore c { s.core c with lclk := mergeCount (s.core c).lclk b.savedLclk }) s
  let replays := s.replaysOf mine
  let s := (s.reqs.filter (fun r => mine r.gid)).foldl (fun (s : State) r => s.resumeReq (at_ r.core) r) s
  let owed := (b.arrays.filter (fun e => e.2.owner.isSome)).map (fun e => (at_ e.1, e.2))
  let fused := s.fusedAt (4 * cluster)
  let s := s.setBlock { b with cluster := cluster, cores := cores, state := .resident, placedFc := s.fc, stalledFc := some s.fc,
                               images := [], arrays := [], savedBase := 0, savedSize := 0, waiting := false, owed := owed, replays := replays }
  let s := s.reFuse cluster fused
  let s := b.arrays.foldl (fun (s : State) e => s.putReady (at_ e.1) e.2) s
  let s := owed.foldl (fun (s : State) e => s.grantArrays e.1) s
  let s := ((s.blockGroups b.id).foldl State.rejoin s).settleHelds
  let s := ((s.blockGroups b.id).foldl State.acquireAt s).syncFeeding
  live.foldl (fun (s : State) g => s.settleSlots g.id) s

/-- The pairs of a list of operands. -/
def pairsOf : List Nat → List (Nat × Nat)
  | a :: b :: rest => (a, b) :: pairsOf rest
  | _ => []

/-- Some blocks restored one after the other, each where it fits beside those before it. -/
def State.resumeAll (s : State) : List (Nat × Nat) → Option State
  | [] => some s
  | (id, cluster) :: rest => do
    let b ← s.block? id
    let x ← s.grid? b.grid
    if 128 ≤ cluster || !s.resumesAt b cluster then none
    else State.resumeAll (s.resumeBlock b x.launch.spad cluster) rest

/-- Are these the saved blocks of a unit, each once, and each to be relaunched (R242)? -/
def State.wholeUnitOf (s : State) (b : Block) (ids : List Nat) : Bool :=
  let unit := (s.mates b).filter (fun y => y.state == .saved || y.state == .woken)
  unit.all (fun y => s.relaunches y && ids.contains y.id) && ids.length == unit.length && ids.contains b.id

/-- BLOCK_RESUME (R234, R238, R242, R339): a saved block, and with it the rest of its gang unit, each restored on a cluster, in the order
of R336. -/
def execBlockResume (s : State) : Host.Outcome State Fault Refusal := whenDue (do
  let b ← s.block? (s.arg 0)
  let places := pairsOf s.args
  if !s.wholeUnitOf b (places.map (·.1)) || s.othersFirst (s.blockRank b) then none
  else s.resumeAll places)

end Sys2Proof.Machine
end

