-- ==== Sys2Proof/Machine/Complete.lean ====
section
/-! DEFINITION. The end of work (R333, R334) and the life of a context (R328, R395, R400, R401). -/
namespace Sys2Proof.Machine
open Sys2Proof

/-! ## Completion -/

/-- The blocks of a grid. -/
def State.gridBlocks (s : State) (grid : Nat) : List Block := s.blocks.filter (fun b => b.grid == grid)

/-- Does a copy on another die still lack a write of one of these groups, or of a unit that is no group any more (R283, R333)? -/
def State.unshown (s : State) (gids : List Nat) : Bool :=
  s.staleCopies.any (fun c => c.writers.any (fun i => gids.contains i || !s.groups.any (fun g => g.id == i)))

/-- Are the accesses of a grid's groups performed at mod scope (R333)? -/
def State.gridPerformed (s : State) (x : Grid) : Bool :=
  let gids := (s.gridBlocks x.id).flatMap (·.groups)
  !s.l1.any (fun l => l.writers.any gids.contains) && !s.unshown gids && !s.reqs.any (fun r => gids.contains r.gid)

/-- Have all blocks of a grid been placed? -/
def Grid.allPlaced (x : Grid) : Bool := x.placed.length == x.count * x.launch.unitsIn x.launch.blockLevel x.launch.top

/-- The status that a work would complete with now, if it may complete (R333): work that has not started when its context's VALID is
cleared is cancelled (R328). A predecessor's failure comes before the work's own. -/
def State.finalStatus (s : State) (w : Work) : Option Nat :=
  match w.grid.bind s.grid? with
  | some x =>
    let finished := (s.gridBlocks x.id).all (fun b => b.state == .released) && x.children == 0 && s.gridPerformed x
    let cancelled := !x.allPlaced && !s.ctxValid x.cid
    if s.workReady w && s.depFails w then some 5
    else if !finished then none
    else if cancelled then some 4
    else if x.failed then some 1
    else if x.allPlaced then some (if x.faulted then 3 else 0)
    else none
  | none =>
    if !s.workReady w then none
    else if s.depFails w then some 5
    else
      match w.result with
      | some r => if w.kind == .copy && s.unshown [w.id] then none else some r
      | none => if !w.started && !s.ctxValid w.cid then some 4 else if w.kind == .marker then some 0 else none

/-- The F-die's count after the messages of a grid's cores (R288); its low 56 bits are not zero (R333). -/
def State.countCompletion (s : State) (w : Work) : State :=
  let cores := match w.grid with
    | some g => (s.gridBlocks g).flatMap (fun (b : Block) => b.cores)
    | none => []
  let s := cores.foldl (fun (s : State) c => s.mergeClock (s.core c).lclk) (s.mergeClock 0)
  if s.flclk.toNat % 2 ^ 56 = 0 then s.mergeClock 0 else s

/-- Writes the completion value, as a release at mod scope (R333). None: its lookup waits. A lookup that fails has its record sent, and the
value is lost. -/
def State.writeCompletion (s : State) (w : Work) (status : Nat) : Option State :=
  if w.done = 0 then some s
  else
    match s.reach w.cid fdieCore w.k rightW [(w.done, 8)] with
    | (s, .lands ls) => some (s.fdiePut ls (leBytes 8 (status * 2 ^ 56 + s.flclk.toNat % 2 ^ 56)))
    | (s, .failed f) =>
      let (s, seq) := s.nextEngineSeq 100
      some (s.reportFailure f (fdieTag seq) rightW w.cid 5).1
    | (_, .waits) => none

/-- The STATUS record of a nonzero status (R333, R363). -/
def State.statusRecord (s : State) (w : Work) (status : Nat) : State :=
  if status = 0 then s
  else (s.sendRecord 0 0 [0, recordWord2 6 0 0 0 0 w.cid, status, w.queue + (if w.dsq then 32 else 0) + w.index * 2 ^ 32, 0, 0, 0]).1

/-- A completed grid leaves: its blocks, barriers, windows and waiting gangs. -/
def State.dropGrid (s : State) (grid : Nat) : State :=
  { s with grids := s.grids.filter (fun (x : Grid) => x.id != grid), blocks := s.blocks.filter (fun (b : Block) => b.grid != grid),
           barriers := s.barriers.filter (fun (b : Barrier) => b.grid != grid), windows := s.windows.filter (fun (w : Window) => w.grid != grid),
           gangs := s.gangs.filter (fun (g : Gang) => g.grid != grid) }

/-- The works that are still to complete, or whose status a successor is to see (R332). -/
def State.pruneWorks (s : State) : State :=
  { s with works := s.works.filter (fun (w : Work) => w.status.isNone || s.works.any (fun x => x.status.isNone && x.preds.contains w.id)) }

/-- Notes when the grids that wait for predecessors become ready: the times of R335 run from then. -/
def State.noteReady (s : State) : State :=
  { s with grids := s.grids.map (fun (x : Grid) =>
      match s.work? x.work with
      | some w => if x.readyFc.isNone && s.workReady w then { x with readyFc := some s.fc } else x
      | none => x) }

/-- WORK_COMPLETE (R333). -/
def execWorkComplete (s : State) : Host.Outcome State Fault Refusal := whenDue (do
  let w ← s.work? (s.arg 0)
  let status ← s.finalStatus w
  let s ← (s.countCompletion w).writeCompletion w status
  let s := (s.setWork { w with status := some status }).statusRecord w status
  let s := match w.parent.bind s.grid? with
    | some x => s.setGrid { x with children := x.children - 1 }
    | none => s
  let s := match w.grid with
    | some g => s.dropGrid g
    | none => s
  some s.noteReady.pruneWorks)

/-! ## Contexts -/

/-- The live record of a context (R395). -/
def State.meter? (s : State) (cid : Nat) : Option Meter := s.fleet.live.find? (fun m => m.cid == cid)

/-- VALID of a context's entry. -/
def State.setValid (s : State) (cid : Nat) (v : Bool) : State :=
  s.storeN (ctxBase cid) 4 ((s.ctxWord cid 0 % 2 ^ 32) / 2 * 2 + (if v then 1 else 0))

/-- A fresh live record: the tag of the entry, every counter zero (R395). -/
def State.newMeter (s : State) (cid : Nat) : Meter :=
  { cid := cid, words := BitVec.ofNat 64 (s.ctxWord cid 1) :: BitVec.ofNat 64 cid :: List.replicate 14 0, pj := 0, read := false, seq := 0 }

/-- Are the retired buffer and its overflow area full (R401)? -/
def State.recordsFull (s : State) : Bool := 256 ≤ s.fleet.overflow.length

/-- CONTEXT_ACTIVATE (R328, R395): VALID is set and the context's record starts; while no record has room the write is held, and VALID
reads 0 (R401). -/
def execContextActivate (s : State) : Host.Outcome State Fault Refusal := whenDue (
  let cid := s.arg 0 % 65536
  match s.meter? cid with
  | some _ => if s.ctxValid cid then none else some (s.setValid cid true)
  | none =>
    if s.recordsFull then
      if s.fleet.heldValid.contains cid && !s.ctxValid cid then none
      else
        let s := s.setValid cid false
        some { s with fleet := { s.fleet with heldValid := cid :: s.fleet.heldValid.filter (· != cid) } }
    else
      let s := s.setValid cid true
      some { s with fleet := { s.fleet with live := s.fleet.live ++ [s.newMeter cid], heldValid := s.fleet.heldValid.filter (· != cid) } })

/-- CONTEXT_INVALIDATE (R328): VALID is cleared; a held write of it is withdrawn. -/
def execContextInvalidate (s : State) : Host.Outcome State Fault Refusal := whenDue (
  let cid := s.arg 0 % 65536
  if !s.ctxValid cid && !s.fleet.heldValid.contains cid then none
  else
    let s := s.setValid cid false
    some { s with fleet := { s.fleet with heldValid := s.fleet.heldValid.filter (· != cid) } })

/-- Traffic at DRAM and at the Span ports whose amounts the model does not follow: free amounts, the pool's a part of the ports'
(R396, assumption 16). -/
def Meter.accrue (m : Meter) (turn : Nat) : Meter :=
  let n := fun (i : Nat) => Config.pick turn 30 (4 * m.cid + i)
  let add := fun (ws : List DWord) (w n : Nat) => ws.set w (ws.getD w 0 + BitVec.ofNat 64 n)
  { m with words := add (add (add m.words 8 (128 * n 0)) 9 (n 1)) 10 (min (n 1) (n 2)) }

/-- Energy charged to a record: whole µJ to ENERGY, the rest carried (R397). -/
def Meter.energy (m : Meter) (pj : Nat) : Meter :=
  let t := m.pj + pj
  { m with pj := t % 1000000, words := m.words.set 11 (m.words.getD 11 0 + BitVec.ofNat 64 (t / 1000000)) }

/-- A record enters the retired buffer, or its overflow area (R400, R401). -/
def Fleet.retire (f : Fleet) (m : Meter) : Fleet :=
  let f := { f with live := f.live.filter (fun x => x.cid != m.cid), nextSeq := (f.nextSeq + 1) % 2 ^ 32 }
  if f.retired.length < 16384 ∧ f.overflow.isEmpty then { f with retired := f.retired ++ [m] } else { f with overflow := f.overflow ++ [m] }

/-- CONTEXT_RETIRE (R400): once VALID is clear and every unit of the context is over, its charges are closed, the part-interval's energy a
free amount, and its final record enters the buffer. -/
def execContextRetire (s : State) : Host.Outcome State Fault Refusal := whenDue (do
  let m ← s.meter? (s.arg 0)
  let left := s.works.any (fun w => w.cid == m.cid && w.status.isNone) || s.groups.any (fun g => g.cid == m.cid)
  if s.ctxValid m.cid || left || (s.recordsFull && 16384 ≤ s.fleet.retired.length) then none
  else
    let part := Config.pick s.turn 31 m.cid
    let m := (m.accrue s.turn).energy part
    let seq := s.fleet.nextSeq
    let w1 := BitVec.ofNat 64 (m.cid + 2 ^ 16 + seq * 2 ^ 32)
    let m := { m with seq := seq, words := (m.words.set 1 w1).set 2 s.flclk }
    some { s with fleet := { s.fleet.retire m with ctxPj := s.fleet.ctxPj + part } })

end Sys2Proof.Machine
end

