-- ==== Sys2Proof/Machine/Contain.lean ====
section
/-! DEFINITION. Containment (R370 to R378): failure domains and their loss, a commanded die reset, links, poison, scratchpad banks. -/
namespace Sys2Proof.Machine
open Sys2Proof

/-! ## Requests that end at once -/

/-- A request of any unit completes with an error, without an owner's verdict: every contributor of a merged one; a unit that waits
finds its lookup failed (R156, R366, R373). -/
def State.endOne (s : State) (r : Req) (reason : Nat) : State :=
  if r.core ≥ fdieCore then s.setReq { r with phase := .lost }
  else
    match r.kind with
    | .prf => s.finishReq r
    | _ => s.settleFail r (s.errorOf r { r.poisonFail with reason := reason })

/-- The same for a request and, where it is a merged one, those it stands for. -/
def State.endReq (s : State) (r : Req) (reason : Nat) : State :=
  if r.gid = 0 ∧ r.core < fdieCore then
    let (s, rs) := s.unmerge r.id 16
    rs.foldl (fun s r => s.endOne r reason) s
  else s.endOne r reason

/-- Ends every request that a test picks, each found anew as the state then holds it. -/
def State.endReqs (s : State) (reason : Nat) (p : Req → Bool) : State :=
  ((s.reqs.filter p).map (·.id)).foldl (fun (s : State) i => match s.req? i with
    | some r => if p r then s.endReq r reason else s
    | none => s) s

/-- Is a request under way toward its landing or at it, not yet performed? -/
def Req.unperformed (r : Req) : Bool :=
  match r.phase with
  | .replied => false
  | .lost => false
  | .kept _ _ => false
  | .entered => false
  | .merged _ => false
  | _ => true

/-! ## Failure domains -/

/-- The incarnation of a failure domain (R370). -/
def State.incarnation (s : State) (domain : Nat) : Nat :=
  if domain < 0x100 then s.incarnations.getD domain 0
  else
    match s.remote? (domain - 0x100) with
    | some x => x.incarnation
    | none => 0

/-- Declaring a domain dead, or a rejoin, increments its number. -/
def State.nextIncarnation (s : State) (domain : Nat) : State :=
  if domain < 0x100 then { s with incarnations := s.incarnations.set domain ((s.incarnations.getD domain 0 + 1) % 65536) }
  else
    match s.remote? (domain - 0x100) with
    | some x => s.setRemote { x with incarnation := (x.incarnation + 1) % 65536 }
    | none => s

/-- The lines of a directory region. -/
def Region.lines (r : Region) : List Nat := (List.range (2 ^ (r.log - 7))).map (· + r.base / 128)

/-- Each home poisons the lines its directory records for a lost holder; a region whole (R373, step 1). -/
def State.poisonHeld (s : State) (holder : Nat) : State :=
  let hit := s.regions.filter (fun r => r.die != holder && r.holders.contains holder)
  let s := (hit.flatMap Region.lines).foldl State.poisonLine s
  { s with regions := s.regions.map (fun (r : Region) => { r with holders := r.holders.filter (· != holder) }) }

/-- The die whose slice holds a node of the merge tree; the module's nodes stand at the home (R259). -/
def nodeDie (n : Nat) : Option Nat :=
  if n < 1000 then none
  else if n < 2000 then some ((n - 1000) / 64)
  else if n < 3000 then some ((n - 2000) / 32)
  else if n < 4000 then some ((n - 3000) / 4)
  else if n < 5000 then some (n - 4000)
  else none

/-- Does a die hold a partial of the line, in an L1 or at a node of its slice (R258, R259)? The home holds those of the module's nodes. -/
def OpenLine.partialOn (o : OpenLine) (die : Nat) : Bool :=
  o.parts.any (fun p => coreDie p.1 == die) || o.fused.any (fun p => p.1 / 32 == die) ||
    o.evicted.any (fun p => (nodeDie p.1).getD ((homeOf o.line).getD 4) == die)

/-- Poisons the lines OPEN with a partial on a die (R258, R373, step 2). -/
def State.poisonOpen (s : State) (die : Nat) : State :=
  let hit := fun (o : OpenLine) => o.partialOn die
  let s := ((s.opens.filter hit).map (·.line)).foldl State.poisonLine s
  { s with opens := s.opens.filter (fun (o : OpenLine) => !hit o) }

/-- The held entries of homes that are gone: each request in them gets a fill that failed with UNREACHABLE (R202, R373). -/
def State.failHelds (s : State) (gone : Nat → Bool) : State :=
  let s := (s.helds.filter (fun h => gone h.line)).foldl (fun (s : State) h => s.castTo h [] 9 h.requests) s
  { s with helds := s.helds.filter (fun (h : Held) => !gone h.line) }

/-- A group of a lost die ends with a GROUP record of cause 0 and its grid completes FAULTED (R373, step 5); nothing of it is left under
way. -/
def State.loseGroup (s : State) (g : Group) : State :=
  let s : State := { s with reqs := s.reqs.filter (fun (r : Req) => r.gid != g.id), spReqs := s.spReqs.filter (fun (r : SpReq) => r.gid != g.id),
                            fills := s.fills.filter (fun (f : Fill) => f.gid != g.id) }
  let g := { g with accs := [], mxErrors := [] }
  let s := s.setGroup g
  if g.life = .resident then s.endGroup g 0 0 g.a.pc 0 else s

/-- What a lost or reset die held: its caches, its directory, its copies, its cached entries. -/
def State.clearDie (s : State) (d : Nat) : State :=
  { s with l1 := s.l1.filter (fun (l : L1Line) => coreDie l.core != d), l2 := s.l2.filter (fun (x : L2Line) => x.die != d),
           regions := s.regions.filter (fun (r : Region) => r.die != d), helds := s.helds.filter (fun (h : Held) => homeOf h.line != some d),
           cache := s.cache.filter (fun (c : CachedEntry) => !(c.tier == .core && coreDie c.core == d) && tierDie c.tier c.inst != some d),
           persistent := s.persistent.filter (fun e => coreDie e.1 != d) }

/-- The arrays of a die's cores as a reset leaves them; sub-arrays stay fenced. -/
def State.clearArrays (s : State) (d : Nat) : State :=
  { s with cores := s.cores.map (fun (e : Nat × Core) =>
      if coreDie e.1 = d then (e.1, { e.2 with matrix := { Matrix.empty with fenced := e.2.matrix.fenced } }) else e) }

/-- BOOTSTAT.CDIS of a die (R315). -/
def State.setCdis (s : State) (d : Nat) : State := s.setField bootstat d 1 1

/-- What follows when a C-die is declared dead (R373), in its order. -/
def State.loseDie (s : State) (d : Nat) : State :=
  let s := (s.poisonHeld d).poisonOpen d
  let mine := s.groups.filter (fun g => coreDie g.core == d && g.life != .saved)
  let stopped := mine.flatMap (fun g => [g.block])
  let toNode := fun (r : Req) => r.unperformed && (match r.phase with
    | .at t i => tierDie t i == some d
    | .held t i _ => tierDie t i == some d
    | .suspended _ _ _ => false
    | _ => homeOf r.line == some d)
  let s := s.endReqs 9 (fun r => toNode r && !mine.any (fun g => g.id == r.gid))
  let s := s.failHelds (fun line => homeOf line == some d)
  let s := mine.foldl (fun (s : State) g => match s.group? g.id with
    | some g => s.loseGroup g
    | none => s) s
  let s : State := { s with copyReqs := s.copyReqs.filter (fun (r : CopyReq) => !stopped.contains r.block),
                            works := s.works.map (fun (w : Work) => match w.octet with
                              | some o => if o / 4 = d ∧ w.kind = .copy ∧ w.result.isNone then { w with result := some 3 } else w
                              | none => w) }
  let s := ((s.staleCopies.filter (fun c => c.die == d)).map (·.line)).foldl (fun (s : State) line => s.copyGone d line) s
  let s := (s.clearDie d).clearArrays d
  (s.setDie d { s.die d with lost := true }).setCdis d

/-- What a far module's death means for the requests on their way to it (R389): UNREACHABLE at tier 2. A store that an egress had accepted
is lost without an error. -/
def State.loseRemote (s : State) (m : Nat) : State :=
  let there := fun (r : Req) => (match r.phase with
    | .at t i => t == .remote && i == m
    | .held t i _ => t == .remote && i == m
    | .suspended _ _ _ => false
    | .replied => r.left != 0 && remoteOf (128 * r.line) == some m
    | _ => r.unperformed && remoteOf (128 * r.line) == some m)
  let port := fun (r : Req) => { r with passed := r.passed.filter (fun e => e.1 < 3) }
  let s : State := { s with reqs := (s.reqs.filter (fun (r : Req) => !(there r && r.accepted))).map (fun (r : Req) => if there r then port r else r) }
  let s := s.endReqs 9 there
  let s := s.failHelds (fun line => remoteOf (128 * line) == some m)
  match s.remote? m with
  | some x => s.setRemote { x with dead := true }
  | none => s

/-- Is a message of a pair still without its acknowledgement? -/
def State.unanswered (s : State) (c : Control) : Bool :=
  s.staleCopies.any (fun x => x.die == c.receiver && homeOf x.line == some c.sender)

/-- CONTROL_RESEND (R371): every 65,536 fc; after eight, the receiver is reported and probed. -/
def execControlResend (s : State) : Host.Outcome State Fault Refusal := whenDue (do
  let c ← s.controls.find? (fun c => c.sender == s.arg 0 && c.receiver == s.arg 1)
  if !s.unanswered c || 9 ≤ c.resends || s.fc < c.fc + 65536 then none
  else
    let n : Control := { c with fc := s.fc, resends := c.resends + 1 }
    some { s with controls := s.controls.map (fun (x : Control) => if x = c then n else x) })

/-- DOMDEAD (R370, R371, R373): a reported domain of the module has not answered its probe for 1 ms; a far domain's probe is the PORT
firmware's. -/
def execDomdead (s : State) : Host.Outcome State Fault Refusal := whenDue (
  let d := s.arg 0
  let reported := s.controls.any (fun c => c.receiver == d && c.resends == 9 && s.unanswered c && decide (c.fc + 1600000 ≤ s.fc))
  if d < 4 then
    if !reported || (s.die d).lost then none
    else
      let s := s.nextIncarnation d
      some ((s.loseDie d).machineCheck 8 d (s.incarnation d))
  else if d = 4 then
    if !reported then none
    else
      let s := s.nextIncarnation d
      let s := ((s.staleCopies.filter (fun c => c.die == 4)).map (·.line)).foldl (fun (s : State) line => s.copyGone 4 line) (s.poisonHeld 4)
      some (s.machineCheck 8 d (s.incarnation d))
  else
    match s.remote? (d - 0x100) with
    | none => none
    | some x =>
      if x.dead then none
      else
        let s := s.nextIncarnation d
        some ((s.loseRemote (d - 0x100)).machineCheckTo 1 0 8 d (s.incarnation d)))

/-- LATE (R372): a message of an old incarnation is dropped, and recorded. -/
def execLate (s : State) : Host.Outcome State Fault Refusal := whenDue (
  let d := s.arg 0
  let old := s.arg 1
  let now := s.incarnation d
  if now ≤ old then none
  else some (s.sendRecord (if d < 0x100 then 0 else 1) (s.die d).lclk
    [0, recordWord2 5 0 0 0 0 0, d % 65536 + old * 65536, now * 65536 + s.arg 2 % 256, 128 * s.arg 3, 0, 0]).1)

/-! ## Commanded die reset -/

/-- The blocks of a die that hold room there. -/
def State.blocksOn (s : State) (d : Nat) : List Block :=
  s.blocks.filter (fun b => b.cluster / 32 == d && (b.state == .resident || b.state == .saving))

/-- Ends the groups of a block, whose grid completes FAULTED; `record`: each with a GROUP record. -/
def State.endBlock (s : State) (record : Bool) (b : Block) : State :=
  (s.blockGroups b.id).foldl (fun (s : State) g =>
    match s.group? g.id with
    | none => s
    | some g =>
      if !g.live then s
      else if record then s.endGroup g 0 0 g.a.pc 0
      else
        let s := s.retire g
        match s.grid? b.grid with
        | some x => s.setGrid { x with faulted := true }
        | none => s) s

/-- Requests saves of some blocks; a unit for which the save area has no room ends FAULTED when `end_` (R374). -/
def State.evacuate (s : State) (end_ : Bool) (bs : List Block) : State :=
  bs.foldl (fun (s : State) b =>
    match s.block? b.id with
    | none => s
    | some b => if b.state != .resident then s
      else if s.saveable b then s.requestSave b.id
      else if end_ then s.endBlock false b
      else s) s

/-- DIE_RESET (R374): a write of GO while neither BUSY is set; the die's units are saved. -/
def execDieReset (s : State) : Host.Outcome State Fault Refusal := whenDue (
  let d := s.arg 0 % 4
  if s.field dierst 3 1 = 1 ∨ s.field pmstat 14 1 = 1 then none
  else
    let s := s.setReg dierst (BitVec.ofNat 64 (d + 8))
    let s : State := { s with dieReset := some { die := d, fc := s.fc, evacuated := false } }
    some (s.evacuate true (s.blocksOn d)))

/-- Steps 2 and 3 of R374: lines with a partial on the die are closed, dirty lines go home, and no directory records the die. -/
def State.flushDie (s : State) (d : Nat) : State :=
  let hit := fun (o : OpenLine) => o.partialOn d
  let s := ((s.opens.filter hit).map (·.line)).foldl State.closeLine s
  let s := (s.l1.filter (fun l => coreDie l.core == d)).foldl State.evictL1 s
  let s := ((s.staleCopies.filter (fun c => c.die == d)).map (·.line)).foldl (fun (s : State) line => s.copyGone d line) s
  { s with l2 := s.l2.filter (fun (x : L2Line) => x.die != d), persistent := s.persistent.filter (fun e => coreDie e.1 != d)
           regions := s.regions.map (fun (r : Region) => { r with holders := r.holders.filter (· != d) }) }

/-- The feature mask after a start's maquette test (R37, R183): MX where fewer than two sub-arrays fail, MXPAIR where none fails in the
pair; the other bits as the part has them. -/
def State.testedMask (s : State) (core : Nat) : BitVec 5 :=
  let bad := fun (c : Nat) => subArrays (s.matrix c).fenced
  let f : BitVec 5 := 31
  let f := if 2 ≤ bad core then f &&& ~~~1 else f
  if bad (pairEven core) + bad (pairEven core + 1) = 0 then f else f &&& ~~~2

/-- A start's self-test of a core: its sub-arrays that fail (R37, R313 step 9). -/
def State.testCore (s : State) (core : Nat) (failing : Byte) : State :=
  let s := s.setMatrix core { Matrix.empty with fenced := failing, lastTestFc := s.fc }
  let s := s.setCore core { s.core core with featm := s.testedMask core }
  s.setCore (pairOther core) { s.core (pairOther core) with featm := s.testedMask (pairOther core) }

/-- A core after a loss of its power: nothing survives but its counts, its marks and what its last test found (R319, R323). -/
def State.resetCore (s : State) (core : Nat) : State :=
  let c := s.core core
  s.setCore core { Core.reset with featm := c.featm, lclk := c.lclk, seq := c.seq, mark := c.mark, banks := c.banks, corr := c.corr,
                                   matrix := { Matrix.empty with fenced := c.matrix.fenced } }

/-- A die and its cores after a start: $clock counts anew (R35), a marked bank may be found good, the arrays are tested anew; both outcomes
are free (R319, R377, R378). -/
def State.restartDie (s : State) (d : Nat) : State :=
  let cores := (List.range 128).map (· + 128 * d)
  let s := s.setDie d { s.die d with clock := 0 }
  let s := cores.foldl State.resetCore s
  let s := cores.foldl (fun (s : State) c =>
    if Config.pick s.turn 34 c % 2 = 0 then s else s.setCore c { s.core c with mark := none, banks := [] }) s
  cores.foldl (fun (s : State) c => s.testCore c (BitVec.ofNat 8 (Config.pick s.turn 32 c))) s

/-- DIE_EVACUATED (R374): once no unit is left on the die, steps 2, 3 and 5; then, by a second such event, the die rejoins, or has failed
to (operand 0). -/
def execDieEvacuated (s : State) : Host.Outcome State Fault Refusal := whenDue (do
  let x ← s.dieReset
  let d := x.die
  let left := s.blocks.any (fun b => b.cluster / 32 == d && (b.state == .resident || b.state == .saving || b.state == .retired))
  if !x.evacuated then
    if left then none
    else
      let s := (s.flushDie d).nextIncarnation d
      let s := s.clearDie d
      some { s with dieReset := some { x with evacuated := true } }
  else
    let s : State := { s with dieReset := none }
    let s := s.setField dierst 3 1 0
    if s.arg 0 = 0 then some (((s.setField dierst 4 4 2).setDie d { s.die d with disabled := true }).setCdis d)
    else some (s.restartDie d))

/-- DIE_RESET_TIMEOUT (R374): 100 ms, and the die is treated as lost. -/
def execDieResetTimeout (s : State) : Host.Outcome State Fault Refusal := whenDue (do
  let x ← s.dieReset
  if x.evacuated || s.fc < x.fc + 160000000 then none
  else
    let s : State := { s with dieReset := none }
    let s := ((s.setField dierst 3 1 0).setField dierst 4 4 1).nextIncarnation x.die
    some (s.loseDie x.die))

/-- EGRESS_WAIT_TIMEOUT (R374): a request has waited 1 s for a die that resets. -/
def execEgressWaitTimeout (s : State) : Host.Outcome State Fault Refusal := whenDue (do
  let r ← s.req? (s.arg 0)
  match r.phase with
  | .egress fc => if s.fc < fc + 1600000000 then none else some (s.endReq r 9)
  | _ => none)

/-! ## Links -/

/-- FLIT_CRC_ERROR (R375): counted at the receiver; the flit is sent again. -/
def execFlitCrcError (s : State) : Host.Outcome State Fault Refusal := whenDue (
  let r := linkReg (s.arg 0) (s.arg 1)
  if 4 ≤ s.arg 0 ∨ 6 ≤ s.arg 1 ∨ !s.linkUp (s.arg 0) (s.arg 1) then none
  else some (s.setField r 0 32 (min (2 ^ 32 - 1) (s.field r 0 32 + 1))))

/-- LINK_RETRAIN (R375): the link is down while it retrains. -/
def execLinkRetrain (s : State) : Host.Outcome State Fault Refusal := whenDue (
  let d := s.arg 0
  let n := s.arg 1
  let r := linkReg d n
  if 4 ≤ d ∨ 6 ≤ n ∨ !s.linkUp d n then none
  else
    let s := (s.setField r 32 16 (min 65535 (s.field r 32 16 + 1))).setField r 63 1 0
    some (s.setDie d { s.die d with retraining := n :: (s.die d).retraining.filter (· != n) }))

/-- LINKDOWN (R375): still down when retraining ends; reported, and traffic takes the other routes. -/
def execLinkdown (s : State) : Host.Outcome State Fault Refusal := whenDue (
  let d := s.arg 0
  let n := s.arg 1
  if !(s.die d).retraining.contains n then none
  else
    let s := s.setDie d { s.die d with retraining := (s.die d).retraining.filter (· != n) }
    some (s.machineCheck 9 n (if n < 3 then d else 3 * d + (n - 3))))

/-- What a far module holds as its link comes up: bytes of its memory, extents in staging, versioned regions, in threes of operands
(assumption 6). -/
def State.peerHolds (s : State) (m : Nat) : List Nat → State
  | kind :: a :: b :: rest =>
    let s := match kind, s.remote? m with
      | 0, _ => s.storeBytes (remoteBase m + a % 2 ^ 48) [BitVec.ofNat 8 b]
      | 1, some x => s.setRemote { x with staging := a :: x.staging.filter (· != a) }
      | 2, some x => s.setRemote { x with regions := (a, b) :: x.regions.filter (fun e => e.1 != a) }
      | _, _ => s
    State.peerHolds s m rest
  | _ => s

/-- LINK_TRAINED (R375, R379, R380): a link comes up; a Span port learns its peer. A port whose peer has this module's own id stays
down. -/
def execLinkTrained (s : State) : Host.Outcome State Fault Refusal := whenDue (
  let d := s.arg 0
  let n := s.arg 1
  let peer := s.arg 2 % 1024
  let port := 3 * d + (n - 3)
  let off := (s.die d).lost || (s.die d).disabled || s.field bootstat 20 4 == 0
  if 4 ≤ d ∨ 6 ≤ n ∨ s.linkUp d n ∨ off then none
  else if n < 3 then
    let s := s.setDie d { s.die d with retraining := (s.die d).retraining.filter (· != n) }
    some (s.setField (linkReg d n) 63 1 1)
  else if s.field (spctl port) 0 1 = 0 ∨ peer = s.field modid 0 10 then none
  else
    let pool := s.arg 3 != 0
    let s := s.setDie d { s.die d with retraining := (s.die d).retraining.filter (· != n) }
    let s := ((s.setField (linkReg d n) 63 1 1).setField (spctl port) 16 10 peer).setField (spctl port) 26 1 (if pool then 1 else 0)
    let s := match s.remote? peer with
      | some x => s.setRemote { x with pool := pool, dead := false }
      | none =>
        let x : Remote := { id := peer, pool := pool, incarnation := 0, dead := false, flash := [], hints := [], staging := [],
                            regions := [], revokes := [], revoked := [], accessed := [] }
        { s with remotes := s.remotes ++ [x] }
    some (s.peerHolds peer (s.args.drop 4)))

/-! ## Poison and banks -/

/-- Is a line one of a die window, which stands in the ways that it takes of its slice (R230, R250)? -/
def State.windowLine (s : State) (line : Nat) : Bool :=
  s.windows.any (fun w => decide (windowBase w.id ≤ 128 * line ∧ 128 * line < windowBase w.id + w.bytes))

/-- LINEPOISON (R258, R376): an uncorrectable error in DRAM, or in a line that an L2 holds, a die window's among them. -/
def execLinepoison (s : State) : Host.Outcome State Fault Refusal := whenDue (
  let line := s.arg 0
  let inL2 := s.arg 1 != 0
  if s.windowLine line && inL2 then some ((s.poisonLine line).machineCheck 7 (128 * line % 2 ^ 48) 1)
  else if 2 ^ 41 ≤ line ∨ !s.populated (128 * line) ∨ 4 ≤ paNode (128 * line) ∨ (inL2 ∧ !s.l2.any (fun x => x.line == line)) then none
  else some ((s.poisonLine line).machineCheck 7 (128 * line) (if inL2 then 1 else 0)))

/-- PCLR (R376): every copy is recalled, the line is zeroed, its poison cleared; a line homed elsewhere is ignored. -/
def execPclr (s : State) : Host.Outcome State Fault Refusal := whenDue (
  let d := s.arg 0
  let line := s.arg 1 % 2 ^ 41
  if homeOf line ≠ some d ∨ !s.populated (128 * line) then none
  else
    let holders := (s.staleCopies.filter (fun c => c.line == line)).map (·.die)
    let s := holders.foldl (fun (s : State) h => s.copyGone h line) s
    let s : State := { s with l1 := s.l1.filter (fun (l : L1Line) => l.line != line), l2 := s.l2.filter (fun (x : L2Line) => x.line != line),
                              opens := s.opens.filter (fun (o : OpenLine) => o.line != line), poison := s.poison.filter (· != line) }
    some (s.storeBytes (128 * line) (List.replicate 128 0)))

/-- SPMARK (R253, R377): a corrected symbol error of a bank: counted; at 16 the core's first bank is marked, a second one reported. -/
def execSpmark (s : State) : Host.Outcome State Fault Refusal := whenDue (
  let core := s.arg 0
  let bank := s.arg 1
  if 512 ≤ core ∨ 36 ≤ bank then none
  else
    let c := s.core core
    let counts := (List.range 36).map (fun i => c.banks.getD i 0 + (if i = bank then 1 else 0))
    let c := { c with corr := min (2 ^ 32 - 1) (c.corr + 1), banks := counts }
    if counts.getD bank 0 ≠ 16 then some (s.setCore core c)
    else
      match c.mark with
      | none => some ((s.setCore core { c with mark := some bank }).coreCheck core 2 bank)
      | some _ => some ((s.setCore core c).coreCheck core 3 bank))

end Sys2Proof.Machine
end

