-- ==== Sys2Proof/Machine/Admin.lean ====
section
/-! DEFINITION. What owners do: tier commands and shootdown (R347 to R349), verdicts (R366, R367), the write-back scanner and the storage
port engine (R354, R355). -/
namespace Sys2Proof.Machine
open Sys2Proof

/-! ## Tier commands -/

/-- The tier of a number: 0 CORE, 1 DIE, 2 PORT, 3 REMOTE. -/
def tierOf (n : Nat) : Option Tier :=
  match n with
  | 0 => some .core
  | 1 => some .die
  | 2 => some .port
  | 3 => some .remote
  | _ => none

/-- How many instances a tier has that a command block can name. -/
def tierCount : Tier → Nat
  | .core => 65536
  | .die => 4
  | _ => 12

/-- The table instance that a command acts on: the ingress tables of this module's ports at the REMOTE tier (R382). -/
def commandInst (t : Tier) (number : Nat) : Nat :=
  match t with
  | .remote => 1024 + number
  | _ => number

/-- A command names its tier instance and starts where none is running: TCMD holds it (R347). -/
def State.command (s : State) (op : Nat) : Option (Tier × Nat × Nat × State) :=
  match tierOf (s.arg 0) with
  | none => none
  | some t =>
    let number := s.arg 1
    let label := s.arg 2 % 2 ^ 15
    let b := tierBlock t number
    if tierCount t ≤ number ∨ s.field (b + 8) 0 1 = 1 then none
    else some (t, number, label, s.setReg b (BitVec.ofNat 64 ((if t = .core then number * 2 ^ 32 else 0) + op * 2 ^ 28 + label)))

/-- ERR of a command block. -/
def State.tierErr (s : State) (t : Tier) (number err : Nat) : State := s.setField (tierBlock t number + 8) 8 8 err

/-- BUSY of a command block. -/
def State.tierBusy (s : State) (t : Tier) (number : Nat) (b : Bool) : State :=
  s.setField (tierBlock t number + 8) 0 1 (if b then 1 else 0)

/-- HOLD of an entry, in memory and in every cached copy (R348). -/
def State.setHold (s : State) (t : Tier) (number label : Nat) (h : Bool) : State :=
  let inst := commandInst t number
  if s.tableSize t inst ≤ label then s
  else
    let s := s.closeLine (lineOf (s.entryAddr t inst label))
    let s := s.putEntry t inst label ((s.entryInMem t inst label).withHold h)
    { s with cache := s.cache.map (fun (c : CachedEntry) =>
        if c.tier = t ∧ c.inst = inst ∧ c.label = label then { c with words := (c.entry.withHold h).words } else c) }

/-- HOLD (R348). -/
def execHold (s : State) : Host.Outcome State Fault Refusal := whenDue (do
  let (t, n, label, s) ← s.command 1
  some (s.setHold t n label true))

/-- RELEASE (R348): requests that wait look the entry up again, by their next lookups. -/
def execRelease (s : State) : Host.Outcome State Fault Refusal := whenDue (do
  let (t, n, label, s) ← s.command 5
  some (s.setHold t n label false))

/-- INVAL (R346, R348). -/
def execInval (s : State) : Host.Outcome State Fault Refusal := whenDue (do
  let (t, n, label, s) ← s.command 7
  some (s.dropCached t (commandInst t n) label))

/-- WRITE (R348): ERR 2 where the entry is neither held nor BLOCK; ERR 1 for a malformed one; HOLD kept, GEN advanced. -/
def execWrite (s : State) : Host.Outcome State Fault Refusal := whenDue (do
  let (t, n, label, s) ← s.command 4
  let inst := commandInst t n
  let b := tierBlock t n
  let new : Entry := { w0 := (s.reg (b + 0x10)).toNat, w1 := (s.reg (b + 0x18)).toNat, w2 := (s.reg (b + 0x20)).toNat, w3 := (s.reg (b + 0x28)).toNat }
  if s.tableSize t inst ≤ label then some s
  else
    let s := s.closeLine (lineOf (s.entryAddr t inst label))
    let old := s.entryInMem t inst label
    if !old.hold && old.act != 0 then some (s.tierErr t n 2)
    else if new.malformed t then some (s.tierErr t n 1)
    else
      let w0 := putField (putField (BitVec.ofNat 64 new.w0) 2 1 (if old.hold then 1 else 0)) 37 27 (old.gen + 1)
      some ((s.putEntry t inst label { new with w0 := w0.toNat }).dropCached t inst label))

/-- The request under way in a command block. -/
def State.running (s : State) (op : Nat) : Option TierCmd :=
  s.cmds.find? (fun c => some c.tier == tierOf (s.arg 0) && c.inst == s.arg 1 && c.op == op)

/-- A command that goes on is listed; BUSY is set. -/
def State.beginCmd (s : State) (t : Tier) (n label op : Nat) : State :=
  let c : TierCmd := { tier := t, inst := n, op := op, cid := if t = .core then n else 0, label := label, fc := s.fc }
  ({ s with cmds := s.cmds ++ [c] } : State).tierBusy t n true

/-- A listed command is over. -/
def State.endCmd (s : State) (c : TierCmd) : State :=
  ({ s with cmds := s.cmds.filter (· != c) } : State).tierBusy c.tier c.inst false

/-- DRAIN (R348): over at once where nothing is in flight, else BUSY until a second such event finds that so. -/
def execDrain (s : State) : Host.Outcome State Fault Refusal := whenDue (
  match s.running 2 with
  | some c => if (s.inFlight c.tier (commandInst c.tier c.inst) c.label).isEmpty then some (s.endCmd c) else none
  | none => do
    let (t, n, label, s) ← s.command 2
    some (if (s.inFlight t (commandInst t n) label).isEmpty then s else s.beginCmd t n label 2))

/-- DRAIN_TIMEOUT (R348): ERR 3 after TDTO. -/
def execDrainTimeout (s : State) : Host.Outcome State Fault Refusal := whenDue (do
  let c ← s.running 2
  if s.fc < c.fc + 1600 * s.field (tierBlock c.tier c.inst + 0x40) 0 32 then none
  else some ((s.endCmd c).tierErr c.tier c.inst 3))

/-- FORCE on the requests under an entry (R348): those not yet performed complete with REVOKED, INFL becomes 0. A merged request whose
contributors are not all under the entry is taken apart, and the others start anew. -/
def State.forceEntry (s : State) (t : Tier) (inst label : Nat) : State :=
  let key := (t.num, inst, label)
  let under := fun (r : Req) => r.passed.contains key && (t != .core || r.cid == inst)
  let tops := s.reqs.filter (fun r => r.gid == 0 && r.core < fdieCore && r.unperformed)
  let s := (tops.map (·.id)).foldl (fun (s : State) i =>
    let (s', rs) := s.unmerge i 16
    if rs.any under || (s.reqs.any (fun r => r.id == i && under r)) then
      rs.foldl (fun (s : State) r => if under r then s else s.setReq r.restart) s'
    else s) s
  let hit := fun (r : Req) => under r && (r.unperformed || (match r.phase with
    | .merged m => !s.records.any (fun x => x.id == m)
    | _ => false))
  let e := fun (r : Req) =>
    let f : Failure := { lanes := r.left, tier := t.num, label := label, reason := 8, tag := s.tagOf r, lost := false }
    f
  let s := ((s.reqs.filter hit).map (·.id)).foldl (fun (s : State) i => match s.req? i with
    | none => s
    | some r =>
      if r.core ≥ fdieCore then s.setReq { r with phase := .lost }
      else
        match r.kind with
        | .prf => s.finishReq r
        | _ => s.settleFail r (e r)) s
  { s with reqs := s.reqs.map (fun (r : Req) => { r with passed := r.passed.filter (fun p => !(p == key && (t != .core || r.cid == inst))) }) }

/-- FORCE (R348). -/
def execForce (s : State) : Host.Outcome State Fault Refusal := whenDue (do
  let (t, n, label, s) ← s.command 6
  some (s.forceEntry t (commandInst t n) label))

/-! ## Shootdown -/

/-- The copies of a physical range shot down (R349): lines OPEN are merged, L1 copies are written back and invalidated, copies on other dies
recalled, the stores that waited for them performed. -/
def State.shootRange (s : State) (a n : Nat) : State :=
  let inside := fun (line : Nat) => decide (a ≤ 128 * line ∧ 128 * line < a + n)
  let s := ((s.opens.filter (fun o => inside o.line)).map (·.line)).foldl State.closeLine s
  let s := (s.l1.filter (fun l => inside l.line)).foldl State.evictL1 s
  let s := (s.staleCopies.filter (fun c => inside c.line)).foldl (fun (s : State) c => s.copyGone c.die c.line) s
  { s with l2 := s.l2.filter (fun (x : L2Line) => !inside x.line) }

/-- Is a store that has passed its tier checks still to be performed at mod scope in a range (R349)? -/
def State.storesDue (s : State) (a n : Nat) : Bool :=
  s.reqs.any (fun r => decide (a ≤ 128 * r.line ∧ 128 * r.line < a + n) && r.left != 0 && (match r.phase with
      | .ready => true
      | .missing => true
      | .ingress _ => true
      | .replied => true
      | _ => false) &&
    (match r.kind with
      | .store _ => true
      | _ => false))

/-- The range of a command block's SHOOT. -/
def State.shootArgs (s : State) (t : Tier) (n : Nat) : Nat × Nat :=
  (s.field (tierBlock t n + 0x30) 12 36 * 4096, s.field (tierBlock t n + 0x38) 0 36 * 4096)

/-- The dies that do not answer a shootdown are lost (R349, R364, R373). -/
def State.shootLost (s : State) (t : Tier) (n : Nat) : List Nat → State
  | [] => s
  | d :: rest =>
    let s := if 4 ≤ d ∨ (s.die d).lost then s
      else
        let s := (s.nextIncarnation d).loseDie d
        (s.machineCheck 10 n d).tierErr t n 4
    State.shootLost s t n rest

/-- SHOOT (R348, R349): over at once, or BUSY until a second such event finds the stores to the range performed. -/
def execShoot (s : State) : Host.Outcome State Fault Refusal := whenDue (
  let finish := fun (s : State) (t : Tier) (n : Nat) =>
    let (a, len) := s.shootArgs t n
    (s.shootLost t n (s.args.drop 2)).shootRange a len
  match s.running 3 with
  | some c =>
    let (a, len) := s.shootArgs c.tier c.inst
    if s.storesDue a len then none else some ((finish s c.tier c.inst).endCmd c)
  | none => do
    let lost := s.args.drop 2
    let (t, n, _, s) ← ({ s with args := [s.arg 0, s.arg 1, 0] } : State).command 3
    let s : State := { s with args := [s.arg 0, s.arg 1] ++ lost }
    let (a, len) := s.shootArgs t n
    some (if s.storesDue a len then s.beginCmd t n 0 3 else finish s t n))

/-! ## Verdicts -/

/-- Is this the suspended request that a verdict of a queue names (R366)? -/
def State.awaitsVerdict (s : State) (q : Nat) (tag : DWord) (r : Req) : Bool :=
  match r.phase with
  | .suspended _ fq _ => fq == some q && (if r.core ≥ fdieCore then r.unitTag else s.tagOf r) == tag
  | _ => false

/-- Is the group of a request saved? -/
def State.reqSaved (s : State) (r : Req) : Bool :=
  match s.group? r.gid with
  | some g => g.life == .saved
  | none => false

/-- RETRY for a request (R366, R367): it starts anew; a unit or a slot that waits asks again by itself; a saved group's is kept. -/
def State.retryReq (s : State) (r : Req) : State :=
  match r.phase with
  | .suspended f _ _ =>
    if r.core ≥ fdieCore || r.kind.ofSlot then { s with reqs := s.reqs.filter (fun (x : Req) => x.id != r.id) }
    else if s.reqSaved r then s.setReq { r with phase := .kept true f }
    else s.setReq r.restart
  | _ => s

/-- FAIL for a request (R366). -/
def State.failReq (s : State) (r : Req) : State :=
  match r.phase with
  | .suspended f _ _ =>
    if r.core ≥ fdieCore then s.setReq { r with phase := .lost }
    else if s.reqSaved r then s.setReq { r with phase := .kept false f }
    else s.settleFail r f
  | _ => s

/-- The copy request that waits for a verdict of a queue under a tag. -/
def State.copyAwaiting (s : State) (q : Nat) (tag : DWord) : Option (CopyReq × Failure) :=
  s.copyReqs.findSome? (fun r => match r.suspended with
    | some (f, _) => if tierQueue f.tier = q ∧ f.tag = tag then some (r, f) else none
    | none => none)

/-- The tag register of a queue takes the tag of the verdict (R360). -/
def State.verdictTag (s : State) (q : Nat) (tag : DWord) : State := if q < 3 then s.setReg (faultBlock q + 0x28) tag else s

/-- A verdict for every request of a tag: the parts of one request have one (R365). -/
def State.judge (s : State) (q : Nat) (tag : DWord) (act : State → Req → State) : State :=
  ((s.reqs.filter (s.awaitsVerdict q tag)).map (·.id)).foldl (fun s i => match s.req? i with
    | some r => if s.awaitsVerdict q tag r then act s r else s
    | none => s) s

/-- VERDICT_RETRY (R366). A tag that names no suspended request is ignored. -/
def execVerdictRetry (s : State) : Host.Outcome State Fault Refusal := whenDue (
  let q := s.arg 0
  let tag := BitVec.ofNat 64 (s.arg 1)
  let s := s.verdictTag q tag
  match s.reqs.find? (s.awaitsVerdict q tag), s.copyAwaiting q tag with
  | some _, _ => some (s.judge q tag State.retryReq)
  | none, some (r, _) => some (s.setCopyReq { r with suspended := none })
  | none, none => if q < 3 then some s else none)

/-- VERDICT_FAIL (R366). -/
def execVerdictFail (s : State) : Host.Outcome State Fault Refusal := whenDue (
  let q := s.arg 0
  let tag := BitVec.ofNat 64 (s.arg 1)
  let s := s.verdictTag q tag
  match s.reqs.find? (s.awaitsVerdict q tag), s.copyAwaiting q tag with
  | some _, _ => some (s.judge q tag State.failReq)
  | none, some (r, f) => some (s.stopCopy r f)
  | none, none => if q < 3 then some s else none)

/-- FQRTO of the queue that answers, in fc; a far owner's verdict has the time of queue 2 (assumption 6). -/
def State.verdictTime (s : State) (q : Nat) : Nat := 1600 * s.field (faultBlock (min q 2) + 0x38) 0 32

/-- VERDICT_TIMEOUT (R366): the request, or copy request, is settled as FAIL. -/
def execVerdictTimeout (s : State) : Host.Outcome State Fault Refusal := whenDue (
  match s.req? (s.arg 0), s.copyReqs.find? (fun r => r.id == s.arg 0) with
  | some r, _ => (match r.phase with
    | .suspended _ fq fc => if s.fc < fc + s.verdictTime (fq.getD 0) then none else some (s.failReq r)
    | _ => none)
  | none, some r => (match r.suspended with
    | some (f, fc) => if s.fc < fc + s.verdictTime (tierQueue f.tier) then none else some (s.stopCopy r f)
    | none => none)
  | none, none => none)

/-! ## Write-back to storage -/

/-- A write of a table entry at mod scope. -/
def State.putWord (s : State) (a v : Nat) : State :=
  let l : Landing := { addr := a, mode := .coh, rights := 31, device := false, leaf := 0, room := 0 }
  s.fdiePut [(l, 8)] (leBytes 8 v)

/-- One page of a descriptor (R354): a file-backed, dirty, writable leaf loses W, the page is shot down and queued. What the ring does with
a request beyond 4,096 the spec does not say: the page stays as it is, for the next scan. -/
def State.scanPage (s : State) (root first off ns lba log : Nat) : State × Bool :=
  let (s, w) := s.walk 0 root off 4
  let v := w.value
  if !w.found || bitsAt v 11 1 = 0 || bitsAt v 10 1 = 0 || bitsAt v 4 1 = 0 || 4096 ≤ s.storage.length then (s, false)
  else
    let s := s.putWord w.addr (v - 16)
    let s := s.shootRange (w.pa / 4096 * 4096) 4096
    ({ s with storage := s.storage ++ [(w.addr, lba + (off - first) / 2 ^ log, ns)] }, true)

/-- The pages of a descriptor, in order; how many were queued. -/
def State.scanPages (s : State) (root first ns lba log : Nat) : List Nat → State × Nat
  | [] => (s, 0)
  | i :: rest =>
    let (s, q) := s.scanPage root first ((first + 4096 * i) % 2 ^ 48) ns lba log
    let (s, n) := State.scanPages s root first ns lba log rest
    (s, n + (if q then 1 else 0))

/-- The descriptors of a list. -/
def State.scanList (s : State) (list : Nat) : List Nat → State × Nat
  | [] => (s, 0)
  | i :: rest =>
    let (s, bs) := s.readClosing (list + 64 * i) 64
    let w := wordAt bs
    let (s, n) := s.scanPages (w 0) (w 1) (w 3) (w 4) (bitsAt (w 5) 0 4) (List.range (w 2))
    let (s, m) := State.scanList s list rest
    (s, n + m)

/-- WB_SCAN (R354): every PERIOD ms, or once; QUEUED counts the pages of the last scan. -/
def execWbScan (s : State) : Host.Outcome State Fault Refusal := whenDue (
  let d := s.arg 0
  let b := dieBlock d + 0x40000
  let period := s.field b 0 32
  let due := match (s.die d).scanFc with
    | none => true
    | some t => period != 0 && decide (t + 1600000 * period ≤ s.fc)
  if 4 ≤ d ∨ s.field b 63 1 = 0 ∨ !due then none
  else
    let s := s.setDie d { s.die d with scanFc := some s.fc }
    let (s, n) := s.scanList (s.field (b + 8) 6 42 * 64) (List.range (s.field b 32 8))
    some (s.setField (b + 0x10) 0 32 n))

/-- STORAGE_WRITE_DONE (R355): the oldest request of the storage port engine. D is cleared while W is still 0; on an error the driver is
interrupted with the status. -/
def execStorageWriteDone (s : State) : Host.Outcome State Fault Refusal := whenDue (do
  let (leaf, _, _) ← s.storage.head?
  let s : State := { s with storage := s.storage.drop 1 }
  if s.arg 0 = 0 then some (s.interrupt 3 0)
  else
    let s := s.closeLine (lineOf leaf)
    let v := s.loadN leaf 8
    some (if bitsAt v 4 1 = 0 ∧ bitsAt v 10 1 = 1 then s.putWord leaf (v - 1024) else s))

end Sys2Proof.Machine
end

