-- ==== Sys2Proof/Machine/Flags.lean ====
section
/-! DEFINITION. The condition computations of R80 and the predicate they go to: the machine has no condition register, an
instruction reports the conditions its entry lists, per lane, in PD (R124, R125, R134). -/
namespace Sys2Proof.Machine
open Sys2Proof

/-- A condition set with only the named members. -/
def condSet (inv dz ovf unf inx : Bool) : Conds := { inv := inv, dz := dz, ovf := ovf, unf := unf, inx := inx }

/-- INV and OVF: FADD, FSUB, FMUL, FFMA, FDOT2 (R124). -/
def condInvOvf : Conds := condSet true false true false false
/-- INV: FMIN, FMAX, FSQRT, FSIN, FCOS (R124, R125). -/
def condInv : Conds := condSet true false false false false
/-- INX: FRND (R124). -/
def condInx : Conds := condSet false false false false true
/-- OVF and UNF: FSCALE (R124). -/
def condOvfUnf : Conds := condSet false false true true false
/-- DZ and OVF: FRCP (R125). -/
def condDzOvf : Conds := condSet false true true false false
/-- INV and DZ: FRSQ, FLOG2 (R125). -/
def condInvDz : Conds := condSet true true false false false
/-- INV, DZ and OVF: FDIV (R125). -/
def condInvDzOvf : Conds := condSet true true true false false
/-- OVF: FEXP2 (R125). -/
def condOvf : Conds := condSet false false true false false
/-- INV and INX: the conversions (R134, R137, R138, R139). -/
def condInvInx : Conds := condSet true false false false true
/-- No condition. -/
def condNone : Conds := Conds.none

/-- Does one of the listed conditions hold? -/
def Conds.reports (listed c : Conds) : Bool :=
  (listed.inv && c.inv) || (listed.dz && c.dz) || (listed.ovf && c.ovf) || (listed.unf && c.unf) || (listed.inx && c.inx)

/-- Is an operation invalid: a NaN from operands that are none (R68, R80)? -/
def invalidFrom (ops : List Val) (v : Val) : Bool := v.isNan && ops.all (fun x => !x.isNan)

/-- Is a quotient the division of a finite nonzero value by zero (R80)? -/
def divideByZero (a b : Val) : Bool :=
  match a with
  | .fin _ n _ _ => n != 0 && b.isZero
  | _ => false

/-- Writes a lane's value, `n` registers wide at D, with the listed conditions in PD, for each participating lane (R128). -/
def State.writeConds (s : State) (u : Issuer) (part : Mask) (d n pd : Nat) (listed : Conds) (v : Nat → Nat × Conds) : State :=
  let rs := (lanesOf part).map (fun l => (l, v l))
  s.write u (rs.flatMap (fun r => vCells d n r.1 r.2.1) ++
    (if pd = 7 then [] else rs.map (fun r => (.p pd r.1, if listed.reports r.2.2 then 1 else 0))))

end Sys2Proof.Machine
end

