-- ==== Sys2Proof/Machine/Float.lean ====
section
/-! DEFINITION. The correctly rounded floating-point instructions, minimum, maximum, compare and classify (R124 to R131): per
lane, and per element of a packed type, one exact value and one rounding. -/
namespace Sys2Proof.Machine
open Sys2Proof

/-! ## Sources -/

/-- Is the type packed: two 16-bit elements (R66)? -/
def packedFloat (t : Nat) : Bool := t == 16 || t == 17

/-- The code of element `j` of a lane's value under a type; a 16-bit type reads bits [15:0] (R66, R127). -/
def elemCode (t x j : Nat) : Nat :=
  if packedFloat t then x / 2 ^ (16 * j) % 2 ^ 16 else x % 2 ^ (fmtOf t).width

/-- A source element: its exact value, and whether it is a signalling NaN (R80). -/
structure FSrc where
  val : Val
  snan : Bool
  deriving DecidableEq, Repr

/-- Reads a source element (R75). -/
def FSrc.of (t x j : Nat) : FSrc :=
  let c := elemCode t x j
  { val := (fmtOf t).widen c, snan := (fmtOf t).snan c }

/-- The modifiers on a widened value: the absolute value first, then the negation (R125). -/
def FSrc.modify (x : FSrc) (ab ng : Bool) : FSrc :=
  let v := if ab then x.val.abs else x.val
  { x with val := if ng then v.negate else v }

/-- IMM32 as the second source: under f64 it is an f32, widened exactly (R127). -/
def FSrc.ofImm (t : Nat) (imm : Word) (j : Nat) : FSrc := FSrc.of (if t = 10 then 9 else t) imm.toNat j

/-- The rounding code an RM field gives: FMT[17:15] of the slot for RM = 6 (R58). -/
def Issuer.rounding (u : Issuer) (rm : BitVec 3) : Nat := if rm = 6 then bitsAt u.slot.fmt.toNat 15 3 else rm.toNat

/-- Does the instruction saturate: SAT, or FMT[19] (R21, R74)? -/
def Issuer.saturates (u : Issuer) (sat : Bool) : Bool := sat || u.slot.fmt.getLsbD 19

/-- Random bits where SR comes from FMT and the form has no operand C for them: free (assumption 13). -/
def State.noRandom (s : State) (l : Nat) : Nat := (Config.freeWord s.turn (100000 + l)).toNat % 2 ^ 32

/-- The random bits of a lane: V[c][l], or U, as one register. With RM = 6 and SR in FMT that is the register which the C field names, V0 where
it is 0, and the operand that FFMA and FDOT2 use as data too (R71, R128, R134). -/
def State.random (s : State) (u : Issuer) (f : VR) (l : Nat) : Nat := u.opC s.turn f 1 l

/-- How many random bits an element uses, and which (R71). -/
def randomBits (t c j : Nat) : Nat × Nat := if packedFloat t then (16, c / 2 ^ (16 * j) % 2 ^ 16) else (32, c % 2 ^ 32)

/-! ## Results -/

/-- The result of an arithmetic element: a NaN has sign 0 (R68); saturation, one rounding, the conditions (R76, R80). -/
def arithResult (t : Nat) (sat : Bool) (rm c j : Nat) (srcs : List FSrc) (v : Val) (inv dz : Bool) : Nat × Conds :=
  let v := if v.isNan then .nan false else v
  let (k, rho) := randomBits t c j
  let (code, fl) := (fmtOf t).deliver sat rm k rho v
  (code, { fl with inv := inv || srcs.any (·.snan), dz := dz })

/-- A lane's value from its elements (R66), with the union of their conditions. -/
def perElement (t : Nat) (e : Nat → Nat × Conds) : Nat × Conds :=
  if packedFloat t then
    let (a, fa) := e 0
    let (b, fb) := e 1
    (a + b * 2 ^ 16, fa.or fb)
  else e 0

/-- The exact results of the two-source operations: the value and DZ (R128). `rd`: rounding is toward −∞ (R69). -/
inductive FOp where
  | add
  | sub
  | mul
  | div
  deriving DecidableEq, Repr

/-- The exact value of an operation. -/
def FOp.value (o : FOp) (rd : Bool) (a b : Val) : Val :=
  match o with
  | .add => Val.add rd a b
  | .sub => Val.add rd a b.negate
  | .mul => Val.mul a b
  | .div => Val.div a b

/-- One element of a two-source operation. -/
def FOp.element (o : FOp) (t : Nat) (sat : Bool) (rm c j : Nat) (a b : FSrc) : Nat × Conds :=
  let v := o.value (rm == 3) a.val b.val
  arithResult t sat rm c j [a, b] v (invalidFrom [a.val, b.val] v) (o == .div && divideByZero a.val b.val)

/-- Source A of a lane's element, modified. -/
def Issuer.fA (u : Issuer) (turn : Nat) (f : VR) (l j : Nat) : FSrc :=
  (FSrc.of f.t.toNat (u.opA turn f (typeRegs f.t.toNat) l) j).modify f.aa f.na
/-- Source B of a lane's element, modified. -/
def Issuer.fB (u : Issuer) (turn : Nat) (f : VR) (l j : Nat) : FSrc :=
  (FSrc.of f.t.toNat (u.opB turn f (typeRegs f.t.toNat) l) j).modify f.ab f.nb

/-- A two-source VR instruction (R128). -/
def State.fvr (s : State) (f : VR) (o : FOp) (listed : Conds) : Host.Outcome State Fault Refusal := s.issue fun u =>
  let t := f.t.toNat
  s.writeConds u (u.g.participating u.slot s.turn f.toCommon) f.d.toNat (typeRegs t) f.pd.toNat listed fun l =>
    perElement t fun j =>
      o.element t (u.saturates f.sat) (u.rounding f.rm) (s.random u f l) j (u.fA s.turn f l j) (u.fB s.turn f l j)

/-- A two-source VI instruction (R127, R128). -/
def State.fvi (s : State) (f : VI) (o : FOp) : Host.Outcome State Fault Refusal := s.issue fun u =>
  let t := f.t.toNat
  s.writeConds u (u.g.participating u.slot s.turn f.toCommon) f.d.toNat (typeRegs t) 7 condNone fun l =>
    perElement t fun j =>
      o.element t (u.saturates f.sat) (u.rounding f.rm) (s.noRandom l) j
        (FSrc.of t (u.g.rdWide s.turn 1 f.a.toNat l (typeRegs t)) j) (FSrc.ofImm t f.imm j)

/-- FADD (R128). -/
def execFadd (f : VR) (s : State) : Host.Outcome State Fault Refusal := s.fvr f .add condInvOvf
/-- FADD, immediate (R128). -/
def execFaddImm (f : VI) (s : State) : Host.Outcome State Fault Refusal := s.fvi f .add
/-- FSUB (R128). -/
def execFsub (f : VR) (s : State) : Host.Outcome State Fault Refusal := s.fvr f .sub condInvOvf
/-- FSUB, immediate (R128). -/
def execFsubImm (f : VI) (s : State) : Host.Outcome State Fault Refusal := s.fvi f .sub
/-- FMUL (R128). -/
def execFmul (f : VR) (s : State) : Host.Outcome State Fault Refusal := s.fvr f .mul condInvOvf
/-- FMUL, immediate (R128). -/
def execFmulImm (f : VI) (s : State) : Host.Outcome State Fault Refusal := s.fvi f .mul
/-- FDIV (R125, R128). -/
def execFdiv (f : VR) (s : State) : Host.Outcome State Fault Refusal := s.fvr f .div condInvDzOvf

/-- A fused sum of products: INV where a product or a partial sum is invalid (R68, R80). -/
def fusedSum (rd : Bool) (c : Val) : List (Val × Val) → Val × Bool
  | [] => (c, false)
  | (a, b) :: rest =>
    let p := Val.mul a b
    let t := Val.add rd c p
    let (v, bad) := fusedSum rd t rest
    (v, bad || invalidFrom [a, b] p || invalidFrom [c, p] t)

/-- FFMA (R128): one rounding of a × b + c. -/
def execFfma (f : VR) (s : State) : Host.Outcome State Fault Refusal := s.issue fun u =>
  let t := f.t.toNat
  let rm := u.rounding f.rm
  s.writeConds u (u.g.participating u.slot s.turn f.toCommon) f.d.toNat (typeRegs t) f.pd.toNat condInvOvf fun l =>
    perElement t fun j =>
      let a := u.fA s.turn f l j
      let b := u.fB s.turn f l j
      let c := (FSrc.of t (u.opC s.turn f (typeRegs t) l) j).modify false f.nc
      let (v, bad) := fusedSum (rm == 3) c.val [(a.val, b.val)]
      arithResult t (u.saturates f.sat) rm (s.random u f l) j [a, b, c] v bad false

/-- FDOT2 (R128): one rounding of c + a0 × b0 + a1 × b1 to f32. -/
def execFdot2 (f : VR) (s : State) : Host.Outcome State Fault Refusal := s.issue fun u =>
  let t := f.t.toNat
  let rm := u.rounding f.rm
  s.writeConds u (u.g.participating u.slot s.turn f.toCommon) f.d.toNat 1 f.pd.toNat condInvOvf fun l =>
    let a := fun j => (FSrc.of t (u.opA s.turn f 1 l) j).modify false f.na
    let b := fun j => (FSrc.of t (u.opB s.turn f 1 l) j).modify false f.nb
    let c := (FSrc.of 9 (u.opC s.turn f 1 l) 0).modify false f.nc
    let (v, bad) := fusedSum (rm == 3) c.val [((a 0).val, (b 0).val), ((a 1).val, (b 1).val)]
    arithResult 9 (u.saturates f.sat) rm (s.random u f l) 0 [a 0, b 0, a 1, b 1, c] v bad false

/-- FSQRT (R125, R128). -/
def execFsqrt (f : VR) (s : State) : Host.Outcome State Fault Refusal := s.issue fun u =>
  let t := f.t.toNat
  s.writeConds u (u.g.participating u.slot s.turn f.toCommon) f.d.toNat (typeRegs t) f.pd.toNat condInv fun l =>
    let a := u.fA s.turn f l 0
    let v := a.val.sqrt
    arithResult t (u.saturates f.sat) (u.rounding f.rm) (s.random u f l) 0 [a] v (invalidFrom [a.val] v) false

/-- FSCALE's value: no format reaches past 2^±6000, so a greater n gives the same result; zero, ∞ and NaN keep theirs (R128). -/
def scaleVal (a : Val) (n : Int) : Val := if a.isZero then a else a.scale (max (-6000) (min 6000 n))

/-- FSCALE (R128): n is one s32, register B or U. -/
def execFscale (f : VR) (s : State) : Host.Outcome State Fault Refusal := s.issue fun u =>
  let t := f.t.toNat
  s.writeConds u (u.g.participating u.slot s.turn f.toCommon) f.d.toNat (typeRegs t) f.pd.toNat condOvfUnf fun l =>
    perElement t fun j =>
      let a := u.fA s.turn f l j
      arithResult t (u.saturates f.sat) (u.rounding f.rm) (s.random u f l) j [a]
        (scaleVal a.val (readInt 32 true (u.opB s.turn f 1 l))) false false

/-- A value rounded to an integer, zeros keeping their sign; whether that was inexact (R128). -/
def roundIntegral (rm k rho : Nat) (v : Val) : Val × Bool :=
  match v with
  | .fin sg n d e =>
    let (m, exact) := roundMag rm sg n d e 0 k rho
    (.fin sg m 1 0, !exact)
  | w => (w, false)

/-- FRND (R128): its result lies in the type and is not rounded again. -/
def execFrnd (f : VR) (s : State) : Host.Outcome State Fault Refusal := s.issue fun u =>
  let t := f.t.toNat
  s.writeConds u (u.g.participating u.slot s.turn f.toCommon) f.d.toNat (typeRegs t) f.pd.toNat condInx fun l =>
    perElement t fun j =>
      let a := u.fA s.turn f l j
      let (k, rho) := randomBits t (s.random u f l) j
      let (v, inexact) := roundIntegral (u.rounding f.rm) k rho a.val
      let (code, fl) := arithResult t false 0 0 0 [a] v false false
      (code, { fl with inx := inexact })

/-! ## Minimum, maximum, compare, classify -/

/-- The modifiers on a code: clear, then flip, its sign bit (R125). -/
def modCode (t : Nat) (ab ng : Bool) (x : Nat) : Nat :=
  let m := x % 2 ^ ((fmtOf t).width - 1)
  let neg := (codeNeg t x && !ab) != ng
  m + (fmtOf t).signBit neg

/-- FMIN or FMAX (R129). -/
def State.fpick (s : State) (f : VR) (wantMax : Bool) : Host.Outcome State Fault Refusal := s.issue fun u =>
  let t := f.t.toNat
  let n := typeRegs t
  s.writeConds u (u.g.participating u.slot s.turn f.toCommon) f.d.toNat n f.pd.toNat condInv fun l =>
    perElement t fun j =>
      let x := elemCode t (u.opA s.turn f n l) j
      let y := elemCode t (u.opB s.turn f n l) j
      (fPick t wantMax (modCode t f.aa f.na x) (modCode t f.ab f.nb y),
        { Conds.none with inv := (fmtOf t).snan x || (fmtOf t).snan y })

/-- IMM32 as a code of the type (R127). -/
def immCode (t : Nat) (imm : Word) (j : Nat) : Nat :=
  if t = 10 then ((fmtOf 10).round 0 0 0 ((fmtOf 9).widen imm.toNat)).1 else elemCode t imm.toNat j

/-- FMIN or FMAX with IMM32. -/
def State.fpickImm (s : State) (f : VI) (wantMax : Bool) : Host.Outcome State Fault Refusal := s.issue fun u =>
  let t := f.t.toNat
  s.writeConds u (u.g.participating u.slot s.turn f.toCommon) f.d.toNat (typeRegs t) 7 condNone fun l =>
    perElement t fun j =>
      (fPick t wantMax (elemCode t (u.g.rdWide s.turn 1 f.a.toNat l (typeRegs t)) j) (immCode t f.imm j), Conds.none)

/-- FMIN (R129). -/
def execFmin (f : VR) (s : State) : Host.Outcome State Fault Refusal := s.fpick f false
/-- FMIN, immediate (R129). -/
def execFminImm (f : VI) (s : State) : Host.Outcome State Fault Refusal := s.fpickImm f false
/-- FMAX (R129). -/
def execFmax (f : VR) (s : State) : Host.Outcome State Fault Refusal := s.fpick f true
/-- FMAX, immediate (R129). -/
def execFmaxImm (f : VI) (s : State) : Host.Outcome State Fault Refusal := s.fpickImm f true

/-- The conditions of FCMP (R130). -/
def fcmpHolds (code : Nat) (a b : Val) : Bool :=
  if a.isNan || b.isNan then code == 1 || code == 6
  else
    match code with
    | 0 => a.cmp b == .eq
    | 1 => a.cmp b != .eq
    | 2 => a.cmp b == .lt
    | 3 => a.cmp b != .gt
    | 4 => a.cmp b == .gt
    | 5 => a.cmp b != .lt
    | _ => false

/-- FCMP (R130): the condition is RM. -/
def execFcmp (f : VR) (s : State) : Host.Outcome State Fault Refusal := s.issue fun u =>
  s.write u (predResults (u.g.participating u.slot s.turn f.toCommon) f.pd.toNat (fun l =>
    fcmpHolds f.rm.toNat (u.fA s.turn f l 0).val (u.fB s.turn f l 0).val))

/-- The class of a code, as a bit number (R131). -/
def classOf (t x : Nat) : Nat :=
  let f := fmtOf t
  let sub := x % 2 ^ (f.expo + f.mant) < 2 ^ f.mant
  match f.widen x with
  | .nan _ => if f.snan x then 8 else 9
  | .inf neg => if neg then 0 else 7
  | .fin neg n _ _ => if n = 0 then (if neg then 3 else 4) else if sub then (if neg then 2 else 5) else if neg then 1 else 6

/-- FCLASS (R131): one register, also under f64. -/
def execFclass (f : VR) (s : State) : Host.Outcome State Fault Refusal :=
  let t := f.t.toNat
  s.vr f 1 fun u l => 2 ^ classOf t (elemCode t (u.opA s.turn f (typeRegs t) l) 0)

end Sys2Proof.Machine
end

