-- ==== Sys2Proof/Machine/VectorInt.lean ====
section
/-! DEFINITION. The vector integer instructions (R108 to R119), opcodes 0x40 to 0x43: one result per participating lane. -/
namespace Sys2Proof.Machine
open Sys2Proof

/-! ## Shared forms -/

/-- Is the type packed: four 8-bit elements (R108)? -/
def packedInt (t : Nat) : Bool := t == 18 || t == 19

/-- A lane's value read by its type (R63). -/
def readAs (t x : Nat) : Int := readInt (intWidth t) (intSigned t) x

/-- Byte `j` of a 32-bit value. -/
def byteAt (x j : Nat) : Nat := x / 2 ^ (8 * j) % 2 ^ 8

/-- Four bytes from an element function, element 0 lowest. -/
def packBytes (e : Nat → Nat) : Nat := e 0 % 2 ^ 8 + e 1 % 2 ^ 8 * 2 ^ 8 + e 2 % 2 ^ 8 * 2 ^ 16 + e 3 % 2 ^ 8 * 2 ^ 24

/-- An exact operation of two values by type: per lane, or per element of a packed type, each clamped alone (R109). -/
def intBinary (t : Nat) (sat : Bool) (op : Int → Int → Int) (a b : Nat) : Nat :=
  if packedInt t then
    packBytes (fun j => intResult t sat (op (readAs t (byteAt a j)) (readAs t (byteAt b j))))
  else intResult t sat (op (readAs t a) (readAs t b))

/-- A VR instruction of two integer sources (R102, R109). -/
def State.vrInt (s : State) (f : VR) (op : Int → Int → Int) : Host.Outcome State Fault Refusal :=
  let n := typeRegs f.t.toNat
  s.vr f n fun u l => intBinary f.t.toNat f.sat op (u.opA s.turn f n l) (u.opB s.turn f n l)

/-- Register A of a VI instruction in a lane. -/
def Issuer.viA (x : Issuer) (turn : Nat) (f : VI) (n l : Nat) : Nat := x.g.rdWide turn 1 f.a.toNat l n

/-- A VI instruction of two integer sources, IMM32 the second (R102, R109). -/
def State.viInt (s : State) (f : VI) (op : Int → Int → Int) : Host.Outcome State Fault Refusal :=
  let n := typeRegs f.t.toNat
  s.vi f n fun u l => intBinary f.t.toNat f.sat op (u.viA s.turn f n l) (immOf f.t.toNat f.imm)

/-- The width of the types of shifts, logic and counts: 64 for s64, z64 and b64, else 32. -/
def wordWidth (t : Nat) : Nat := 32 * typeRegs t

/-- A vector shift: its amount is one z32, register B, U or IMM32 (R111). -/
def State.vrShift (s : State) (f : VR) (op : Nat → Nat → Nat → Int) : Host.Outcome State Fault Refusal :=
  let w := wordWidth f.t.toNat
  s.vr f (typeRegs f.t.toNat) fun u l => modBits w (op w (u.opA s.turn f (typeRegs f.t.toNat) l) (u.opB s.turn f 1 l))

/-- A vector shift by IMM32 (R111). -/
def State.viShift (s : State) (f : VI) (op : Nat → Nat → Nat → Int) : Host.Outcome State Fault Refusal :=
  let w := wordWidth f.t.toNat
  s.vi f (typeRegs f.t.toNat) fun u l => modBits w (op w (u.viA s.turn f (typeRegs f.t.toNat) l) f.imm.toNat)

/-- A bitwise operation of two sources, all bits of the register or pair (R108). -/
def State.vrBits (s : State) (f : VR) (op : Nat → Nat → Nat) : Host.Outcome State Fault Refusal :=
  let n := typeRegs f.t.toNat
  s.vr f n fun u l => op (u.opA s.turn f n l) (u.opB s.turn f n l)

/-- A bitwise operation with IMM32. -/
def State.viBits (s : State) (f : VI) (op : Nat → Nat → Nat) : Host.Outcome State Fault Refusal :=
  let n := typeRegs f.t.toNat
  s.vi f n fun u l => op (u.viA s.turn f n l) (immOf f.t.toNat f.imm)

/-! ## Arithmetic (R109, R110) -/

/-- IADD (R109). -/
def execIadd (f : VR) (s : State) : Host.Outcome State Fault Refusal := s.vrInt f (· + ·)
/-- IADD, immediate (R109). -/
def execIaddImm (f : VI) (s : State) : Host.Outcome State Fault Refusal := s.viInt f (· + ·)
/-- ISUB (R109). -/
def execIsub (f : VR) (s : State) : Host.Outcome State Fault Refusal := s.vrInt f (· - ·)
/-- ISUB, immediate (R109). -/
def execIsubImm (f : VI) (s : State) : Host.Outcome State Fault Refusal := s.viInt f (· - ·)
/-- IMUL (R109). -/
def execImul (f : VR) (s : State) : Host.Outcome State Fault Refusal := s.vrInt f (· * ·)
/-- IMUL, immediate (R109). -/
def execImulImm (f : VI) (s : State) : Host.Outcome State Fault Refusal := s.viInt f (· * ·)
/-- IMULH (R109): the high half of the exact product. -/
def execImulh (f : VR) (s : State) : Host.Outcome State Fault Refusal := s.vrInt f (fun a b => a * b / (2 ^ intWidth f.t.toNat : Nat))
/-- IMIN (R109). -/
def execImin (f : VR) (s : State) : Host.Outcome State Fault Refusal := s.vrInt f min
/-- IMIN, immediate (R109). -/
def execIminImm (f : VI) (s : State) : Host.Outcome State Fault Refusal := s.viInt f min
/-- IMAX (R109). -/
def execImax (f : VR) (s : State) : Host.Outcome State Fault Refusal := s.vrInt f max
/-- IMAX, immediate (R109). -/
def execImaxImm (f : VI) (s : State) : Host.Outcome State Fault Refusal := s.viInt f max

/-- IMAD (R109). -/
def execImad (f : VR) (s : State) : Host.Outcome State Fault Refusal :=
  let n := typeRegs f.t.toNat
  let t := f.t.toNat
  s.vr f n fun u l => intResult t f.sat
    (readAs t (u.opA s.turn f n l) * readAs t (u.opB s.turn f n l) + readAs t (u.opC s.turn f n l))

/-- IABS (R109). -/
def execIabs (f : VR) (s : State) : Host.Outcome State Fault Refusal :=
  let n := typeRegs f.t.toNat
  s.vr f n fun u l => intBinary f.t.toNat f.sat (fun a _ => (a.natAbs : Int)) (u.opA s.turn f n l) 0

/-- IMADW (R110): the exact 64-bit product plus a 64-bit addend. -/
def execImadw (f : VR) (s : State) : Host.Outcome State Fault Refusal :=
  let sg := intSigned f.t.toNat
  s.vr f 2 fun u l => modBits 64
    (readInt 32 sg (u.opA s.turn f 1 l) * readInt 32 sg (u.opB s.turn f 1 l) + readInt 64 sg (u.opC s.turn f 2 l))

/-- The exact sum of IADDC in a lane: a carry field of 7 is no carry (R110). -/
def Issuer.carrySum (u : Issuer) (turn : Nat) (f : VR) (l : Nat) : Nat :=
  u.opA turn f 1 l + u.opB turn f 1 l + (if f.c.toNat ≠ 7 ∧ u.g.rdP turn 3 f.c.toNat l then 1 else 0)

/-- IADDC (R110): the sum modulo 2^32 to D, the carry out to PD. -/
def execIaddc (f : VR) (s : State) : Host.Outcome State Fault Refusal := s.issue fun u =>
  let part := u.g.participating u.slot s.turn f.toCommon
  s.write u (laneResults part f.d.toNat 1 (fun l => u.carrySum s.turn f l % 2 ^ 32) ++
    predResults part f.pd.toNat (fun l => decide (2 ^ 32 ≤ u.carrySum s.turn f l)))

/-! ## Shifts and bit logic (R111 to R113) -/

/-- ISHL (R111). -/
def execIshl (f : VR) (s : State) : Host.Outcome State Fault Refusal := s.vrShift f (fun w a k => shiftLeft w a k)
/-- ISHL, immediate (R111). -/
def execIshlImm (f : VI) (s : State) : Host.Outcome State Fault Refusal := s.viShift f (fun w a k => shiftLeft w a k)
/-- ISHR (R111). -/
def execIshr (f : VR) (s : State) : Host.Outcome State Fault Refusal := s.vrShift f (fun w a k => shiftRight w a k)
/-- ISHR, immediate (R111). -/
def execIshrImm (f : VI) (s : State) : Host.Outcome State Fault Refusal := s.viShift f (fun w a k => shiftRight w a k)
/-- ISRA (R111). -/
def execIsra (f : VR) (s : State) : Host.Outcome State Fault Refusal := s.vrShift f shiftArith
/-- ISRA, immediate (R111). -/
def execIsraImm (f : VI) (s : State) : Host.Outcome State Fault Refusal := s.viShift f shiftArith

/-- ISHF (R111): the low word of the funnel c : a shifted right by at most 64. -/
def execIshf (f : VR) (s : State) : Host.Outcome State Fault Refusal :=
  s.vr f 1 fun u l =>
    (u.opC s.turn f 1 l * 2 ^ 32 + u.opA s.turn f 1 l) / 2 ^ min (u.opB s.turn f 1 l) 64 % 2 ^ 32

/-- IAND (R108). -/
def execIand (f : VR) (s : State) : Host.Outcome State Fault Refusal := s.vrBits f (· &&& ·)
/-- IAND, immediate (R108). -/
def execIandImm (f : VI) (s : State) : Host.Outcome State Fault Refusal := s.viBits f (· &&& ·)
/-- IOR (R108). -/
def execIor (f : VR) (s : State) : Host.Outcome State Fault Refusal := s.vrBits f (· ||| ·)
/-- IOR, immediate (R108). -/
def execIorImm (f : VI) (s : State) : Host.Outcome State Fault Refusal := s.viBits f (· ||| ·)
/-- IXOR (R108). -/
def execIxor (f : VR) (s : State) : Host.Outcome State Fault Refusal := s.vrBits f (· ^^^ ·)
/-- IXOR, immediate (R108). -/
def execIxorImm (f : VI) (s : State) : Host.Outcome State Fault Refusal := s.viBits f (· ^^^ ·)

/-- The three-input function of a truth table, bit by bit over `w` bits (R112). -/
def lop3 (table w a b c : Nat) : Nat :=
  (List.range w).foldl (fun v i =>
    let idx := a / 2 ^ i % 2 + 2 * (b / 2 ^ i % 2) + 4 * (c / 2 ^ i % 2)
    v + table / 2 ^ idx % 2 * 2 ^ i) 0

/-- ILOP3 (R112): the table is U. -/
def execIlop3 (f : VR) (s : State) : Host.Outcome State Fault Refusal :=
  let n := typeRegs f.t.toNat
  s.vr f n fun u l => lop3 f.u.toNat (32 * n) (u.opA s.turn f n l) (u.opB s.turn f n l) (u.opC s.turn f n l)

/-- IPOPC (R113): one register, also under b64. -/
def execIpopc (f : VR) (s : State) : Host.Outcome State Fault Refusal :=
  let n := typeRegs f.t.toNat
  s.vr f 1 fun u l => countOnes (32 * n) (u.opA s.turn f n l)

/-- ICLZ (R113). -/
def execIclz (f : VR) (s : State) : Host.Outcome State Fault Refusal :=
  let n := typeRegs f.t.toNat
  s.vr f 1 fun u l => countZeros (32 * n) (u.opA s.turn f n l)

/-- IBREV (R113). -/
def execIbrev (f : VR) (s : State) : Host.Outcome State Fault Refusal :=
  let n := typeRegs f.t.toNat
  s.vr f n fun u l => reverseBits (32 * n) (u.opA s.turn f n l)

/-! ## Compare and select (R114, R115) -/

/-- ICMP (R114): the condition is RM. -/
def execIcmp (f : VR) (s : State) : Host.Outcome State Fault Refusal := s.issue fun u =>
  let t := f.t.toNat
  let n := typeRegs t
  s.write u (predResults (u.g.participating u.slot s.turn f.toCommon) f.pd.toNat (fun l =>
    condOf f.rm.toNat (readAs t (u.opA s.turn f n l)) (readAs t (u.opB s.turn f n l))))

/-- ISEL (R115). -/
def execIsel (f : VR) (s : State) : Host.Outcome State Fault Refusal :=
  let n := typeRegs f.t.toNat
  s.vr f n fun u l => if u.g.rdP s.turn 3 f.c.toNat l then u.opA s.turn f n l else u.opB s.turn f n l

/-! ## Bit fields, dot products, permutes, moves (R116 to R119) -/

/-- IBFX (R116). -/
def execIbfx (f : VR) (s : State) : Host.Outcome State Fault Refusal :=
  let n := typeRegs f.t.toNat
  let w := 32 * n
  s.vr f n fun u l => modBits w (bitExtract w (intSigned f.t.toNat) (u.opA s.turn f n l) (u.opB s.turn f n l))

/-- IBFI (R116). -/
def execIbfi (f : VR) (s : State) : Host.Outcome State Fault Refusal :=
  let n := typeRegs f.t.toNat
  s.vr f n fun u l => bitInsert (32 * n) (u.opA s.turn f n l) (u.opB s.turn f n l) (u.opC s.turn f n l)

/-- The dot product of four elements with an addend (R117), exact. -/
def dot4 (t a b c : Nat) : Int :=
  let e := fun j => readAs t (byteAt a j) * readAs t (byteAt b j)
  readInt 32 (intSigned t) c + e 0 + e 1 + e 2 + e 3

/-- IDOT4 (R117): clamped to the 32-bit range, or modulo 2^32. -/
def execIdot4 (f : VR) (s : State) : Host.Outcome State Fault Refusal :=
  s.vr f 1 fun u l =>
    let v := dot4 f.t.toNat (u.opA s.turn f 1 l) (u.opB s.turn f 1 l) (u.opC s.turn f 1 l)
    modBits 32 (if f.sat then clampInt 32 (intSigned f.t.toNat) v else v)

/-- The byte a selector of PRMT chooses from the eight bytes of A and C (R117). -/
def prmtByte (x n : Nat) : Nat :=
  let b := byteAt x (n % 8)
  let v := match n / 8 % 4 with
    | 0 => b
    | 1 => reverseBits 8 b
    | 2 => 0
    | _ => if b / 128 = 1 then 255 else 0
  if n / 32 % 2 = 1 then 255 - v else v

/-- PRMT (R117). -/
def execPrmt (f : VR) (s : State) : Host.Outcome State Fault Refusal :=
  s.vr f 1 fun u l =>
    let x := u.opA s.turn f 1 l + u.opC s.turn f 1 l * 2 ^ 32
    let b := u.opB s.turn f 1 l
    packBytes (fun j => prmtByte x (b / 2 ^ (6 * j) % 2 ^ 6))

/-- MOV (R118): a register, a pair or a quad. -/
def execMov (f : VR) (s : State) : Host.Outcome State Fault Refusal :=
  let n := typeRegs f.t.toNat
  s.vr f n fun u l => u.opA s.turn f n l

/-- MOVS (R118): U is the source. -/
def execMovs (f : VR) (s : State) : Host.Outcome State Fault Refusal :=
  let n := typeRegs f.t.toNat
  s.vr f n fun u _ => u.uniform s.turn 2 n f.u.toNat

/-- MOVI (R118). -/
def execMovi (f : VI) (s : State) : Host.Outcome State Fault Refusal :=
  s.vi f (typeRegs f.t.toNat) fun _ _ => immOf f.t.toNat f.imm

/-- LEA (R119): a 48-bit offset in a pair that may begin at an odd register. -/
def execLea (f : VR) (s : State) : Host.Outcome State Fault Refusal :=
  s.vr f 2 fun u l =>
    let base : Int := ((u.opA s.turn f 2 l % 2 ^ 48 : Nat) : Int)
    modBits 48 (base + readAs f.t.toNat (u.opB s.turn f 1 l) * (2 ^ f.rm.toNat : Nat))

end Sys2Proof.Machine
end

