-- ==== Sys2Proof/Machine/Convert.lean ====
section
/-! DEFINITION. Conversions (R134 to R139): CVT, CVTP, and the e2m1 block quantise CVTB (R77) and decode CVTX (R70). -/
namespace Sys2Proof.Machine
open Sys2Proof

/-! ## CVT and CVTP -/

/-- Is a type code an integer type (R57)? -/
def isIntType (t : Nat) : Bool := 1 ≤ t && t ≤ 8

/-- A source by its type: an integer, or a floating code (R75, R136). -/
def convSource (u x : Nat) : FSrc :=
  if isIntType u then { val := .ofInt (readAs u x), snan := false } else FSrc.of u x 0

/-- A value converted into a type: placed in its lane or pair, with its conditions (R134, R136). -/
def convertTo (t : Nat) (sat : Bool) (rm k rho : Nat) (x : FSrc) : Nat × Conds :=
  if isIntType t then
    let (v, fl) := roundInt (intWidth t) (intSigned t) rm k rho x.val
    (laneInt (intWidth t) (intSigned t) v, fl)
  else
    let (c, fl) := (fmtOf t).deliver sat rm k rho x.val
    (c, { fl with inv := x.snan })

/-- CVT (R134). -/
def execCvt (f : VR) (s : State) : Host.Outcome State Fault Refusal := s.issue fun u =>
  let t := f.t.toNat
  let src := f.u.toNat
  s.writeConds u (u.g.participating u.slot s.turn f.toCommon) f.d.toNat (typeRegs t) f.pd.toNat condInvInx fun l =>
    convertTo t (u.saturates f.sat) (u.rounding f.rm) 32 (s.random u f l)
      (convSource src (u.opA s.turn f (typeRegs src) l))

/-- The elements of CVTP by their pair of types: how many, their width, the source of element `j` in a lane (R137). -/
def Issuer.cvtpSource (u : Issuer) (turn : Nat) (f : VR) (l j : Nat) : FSrc :=
  let src := f.u.toNat
  if src = 9 then FSrc.of 9 (if j = 0 then u.opA turn f 1 l else u.opB turn f 1 l) 0
  else FSrc.of src (if j < 2 then u.opA turn f 1 l else u.opB turn f 1 l) (j % 2)

/-- CVTP (R137). -/
def execCvtp (f : VR) (s : State) : Host.Outcome State Fault Refusal := s.issue fun u =>
  let t := f.t.toNat
  let w := (fmtOf t).width
  let count := if packedFloat t || f.u = 9 then 2 else 4
  s.writeConds u (u.g.participating u.slot s.turn f.toCommon) f.d.toNat 1 f.pd.toNat condInvInx fun l =>
    (List.range count).foldl (fun r j =>
      let (k, rho) := randomBits t (s.random u f l) j
      let (c, fl) := convertTo t (u.saturates f.sat) (u.rounding f.rm) k rho (u.cvtpSource s.turn f l j)
      (r.1 + c * 2 ^ (w * j), r.2.or fl)) (0, Conds.none)

/-! ## CVTB -/

/-- A candidate of R77: its value, its element code, whether it is the special. -/
structure Cand where
  val : Val
  code : Nat
  special : Bool
  deriving DecidableEq, Repr

/-- The ordinary candidates: every code but 1000, whose value is that of 0000 (R67, R77). -/
def ordinaryCands : List Cand :=
  ((List.range 16).filter (· != 8)).map (fun c => { val := (fmtOf 15).widen c, code := c, special := false })

/-- The better of two candidates of one value: the ordinary one. -/
def Cand.orOrdinary (c : Cand) (best : Option Cand) : Option Cand :=
  match best with
  | none => some c
  | some b => if b.special then some c else some b

/-- The nearest candidate on one side: `side` is the order of the candidate to the value. -/
def nearestOn (side : Ordering) (v : Val) (cands : List Cand) : Option Cand :=
  (cands.filter (fun c => c.val.cmp v == side)).foldl (fun best c => match best with
    | none => some c
    | some b =>
      let o := c.val.cmp b.val
      if o == .eq then c.orOrdinary best else if (o == .gt) == (side == .lt) then some c else best) none

/-- The candidate that exactly equals a value, the ordinary one first. -/
def exactCand (v : Val) (cands : List Cand) : Option Cand :=
  (cands.filter (fun c => c.val.cmp v == .eq)).foldl (fun best c => c.orOrdinary best) none

/-- The distance of two finite values. -/
def distance (x y : Val) : Val := (Val.add false x y.negate).abs

/-- The choice between two neighbours (R71, R77). -/
def chooseCand (rm rho : Nat) (v : Val) (lo hi : Cand) : Cand :=
  let (t, away) := if v.neg? then (hi, lo) else (lo, hi)
  match rm with
  | 1 => t
  | 2 => hi
  | 3 => lo
  | 5 =>
    (match Val.div (distance v t.val) (distance away.val t.val) with
      | .fin _ n d e => if roundUp 5 false 0 (shl n e) (shl d (-e)) 32 rho then away else t
      | _ => t)
  | _ =>
    match (distance v lo.val).cmp (distance hi.val v) with
    | .lt => lo
    | .gt => hi
    | .eq =>
      if lo.special then hi else if hi.special then lo
      else if rm = 4 then away
      else if lo.code % 2 = 0 then lo else hi

/-- A value rounded into a set of candidates, saturating at the ends (R77). -/
def roundCand (rm rho : Nat) (v : Val) (cands : List Cand) : Cand :=
  match exactCand v cands, nearestOn .lt v cands, nearestOn .gt v cands with
  | some c, _, _ => c
  | none, some lo, some hi => chooseCand rm rho v lo hi
  | none, some lo, none => lo
  | none, none, some hi => hi
  | none, none, none => { val := .zero false, code := 0, special := false }

/-- A quantised block: element codes, SCALE, SPEC, its conditions. -/
structure Block8 where
  codes : List Nat
  scale : Nat
  spec : Nat
  conds : Conds
  deriving DecidableEq, Repr

/-- The exponent e of step 2: SCALE is e + 127. -/
def blockExp (vals : List Val) : Int :=
  let es := vals.filterMap (fun v => match v with
    | .fin _ n d e => if n = 0 then none else some (floorLog2 n d e)
    | _ => none)
  match es with
  | [] => 0
  | x :: rest => max (-127) (min 127 (rest.foldl max x - 2))

/-- The special of step 3 chosen by rule: the first element of greatest error, as e4m3. -/
def chooseSpec (rm : Nat) (vs : List (Val × Nat)) : Nat :=
  let errs := vs.map (fun x => (x.1, distance x.1 (roundCand rm x.2 x.1 ordinaryCands).val))
  let worst := errs.foldl (fun best x => match best with
    | none => some x
    | some b => if x.2.cmp b.2 == .gt then some x else best) (none : Option (Val × Val))
  match worst with
  | some (v, err) => if err.isZero then 0 else ((fmtOf 13).deliver true 0 0 0 v).1
  | none => 0

/-- R77: quantises 32 f32 codes, each with its random bits. -/
def quantise (rm : Nat) (bspe : Bool) (spec : Nat) (xs : List (Nat × Nat)) : Block8 :=
  let vals := xs.map (fun x => ((fmtOf 9).widen x.1, x.2))
  if vals.any (fun x => x.1.isNan || x.1.isInf) then
    { codes := List.replicate 32 0, scale := 0xFF, spec := 0, conds := { Conds.none with inv := true } }
  else
    let e := blockExp (vals.map (·.1))
    let vs := vals.map (fun x => (x.1.scale (-e), x.2))
    let sp := if !bspe then 0 else if spec = 0 then chooseSpec rm vs else spec
    let sv := (fmtOf 13).widen sp
    let cands := if bspe && !sv.isNan then ordinaryCands ++ [{ val := sv, code := 8, special := true }] else ordinaryCands
    let rs := vs.map (fun x => (x.1, roundCand rm x.2 x.1 cands))
    { codes := rs.map (fun r => if r.2.val.isZero && !r.2.special then (if r.1.neg? && !bspe then 8 else 0) else r.2.code)
      scale := (e + 127).toNat
      spec := sp
      conds := { Conds.none with inx := rs.any (fun r => r.1.cmp r.2.val != .eq) } }

/-- The register image of a block: lane `l` of D (R138). -/
def Block8.image (b : Block8) (l : Nat) : Nat :=
  if l < 4 then packBytes (fun j => b.codes.getD (8 * l + 2 * j) 0 + 16 * b.codes.getD (8 * l + 2 * j + 1) 0)
  else if l = 4 then b.spec * 256 + b.scale
  else 0

/-- CVTB (R138): a lane that does not participate supplies +0 and is not written. -/
def execCvtb (f : VR) (s : State) : Host.Outcome State Fault Refusal := s.issue fun u =>
  let part := u.g.participating u.slot s.turn f.toCommon
  let bspe := u.slot.fmt.getLsbD 18
  let spec := u.opB s.turn f 1 (lowestLane part) % 256
  let b := quantise (u.rounding f.rm) bspe spec
    (laneList.map (fun l => (if laneIn part l then u.opA s.turn f 1 l else 0, s.random u f l)))
  s.writeConds u part f.d.toNat 1 f.pd.toNat condInvInx (fun l => (b.image l, b.conds))

/-! ## CVTX -/

/-- Element `l` of the block image in register A: its decoded value (R70, R139). -/
def Issuer.blockElement (u : Issuer) (turn : Nat) (f : VR) (l : Nat) : Val :=
  let byte := byteAt (u.opA turn f 1 (l / 2 / 4)) (l / 2 % 4)
  let c := byte / 16 ^ (l % 2) % 16
  let w := u.opA turn f 1 4
  decodeE2M1 c (byteAt w 1) (byteAt w 0) (u.slot.fmt.getLsbD 18)

/-- CVTX (R139): lanes 0 to 4 of A are read whether or not they participate. -/
def execCvtx (f : VR) (s : State) : Host.Outcome State Fault Refusal := s.issue fun u =>
  s.writeConds u (u.g.participating u.slot s.turn f.toCommon) f.d.toNat 1 f.pd.toNat condInvInx fun l =>
    convertTo f.t.toNat (u.saturates f.sat) (u.rounding f.rm) 32 (s.random u f l)
      { val := u.blockElement s.turn f l, snan := false }

end Sys2Proof.Machine
end

