-- ==== Sys2Proof/Machine/Elementary.lean ====
section
/-! DEFINITION. The approximations of R132 and R133. The exact value is computed to 640 bits by power series; a result that the
spec only bounds is a free value of Config held to the bound, and the rounded exact value where the free value breaks it
(assumption 7). -/
namespace Sys2Proof.Machine
open Sys2Proof

/-! ## Series in fixed point: integers scaled by 2^640 -/

/-- The scale of the fixed-point numbers. -/
def fixOne : Int := (2 ^ 640 : Nat)

/-- A product in fixed point. -/
def fixMul (a b : Int) : Int := a * b / fixOne

/-- The terms p, p z2, p z2^2 ... over 1, 3, 5 ..., from the k-th on. -/
def oddSeries (z2 : Int) : Nat → Nat → Int → Int
  | 0, _, _ => 0
  | fuel + 1, k, p => p / (2 * k + 1 : Nat) + oddSeries z2 fuel (k + 1) (fixMul p z2)

/-- The inverse hyperbolic tangent of z, |z| at most 1/3. -/
def fixAtanh (z : Int) : Int := oddSeries (fixMul z z) 210 0 z

/-- The arctangent of 1/n, n at least 5. -/
def fixArctan (n : Nat) : Int := oddSeries (-(fixOne / (n * n : Nat))) 145 0 (fixOne / (n : Nat))

/-- ln 2. -/
def fixLn2 : Int := 2 * fixAtanh (fixOne / 3)

/-- π / 2, by Machin's formula. -/
def fixHalfPi : Int := 8 * fixArctan 5 - 2 * fixArctan 239

/-- The terms p, p t / k, ... of the exponential series from the k-th on. -/
def expSeries (t : Int) : Nat → Nat → Int → Int
  | 0, _, _ => 0
  | fuel + 1, k, p => p + expSeries t fuel (k + 1) (fixMul p t / (k : Nat))

/-- The exponential of t in [0, 1). -/
def fixExp (t : Int) : Int := expSeries t 130 1 fixOne

/-- The terms p, −p x² / (k (k + 1)), ... from k on: sine from k = 2, cosine from k = 1. -/
def trigSeries (x2 : Int) : Nat → Nat → Int → Int
  | 0, _, _ => 0
  | fuel + 1, k, p => p + trigSeries x2 fuel (k + 2) (-(fixMul p x2) / (k * (k + 1) : Nat))

/-- The sine of x in [0, 2). -/
def fixSin (x : Int) : Int := trigSeries (fixMul x x) 75 2 x
/-- The cosine of x in [0, 2). -/
def fixCos (x : Int) : Int := trigSeries (fixMul x x) 75 1 fixOne

/-! ## The exact values -/

/-- A finite value in fixed point. -/
def fixOf (neg : Bool) (n : Nat) (e : Int) : Int :=
  signedNum neg (if 0 ≤ e + 640 then shl n (e + 640) else n / 2 ^ (-(e + 640)).toNat)

/-- A fixed-point number as a value that is not a rounding's neighbour: a half unit below its last place makes it inexact. -/
def Val.ofFix (x : Int) (e : Int) : Val := .fin (decide (x < 0)) (2 * x.natAbs + 1) 1 (e - 641)

/-- 2^x for finite x; beyond ±4096 any value beyond every format does. -/
def exp2Val (neg : Bool) (n : Nat) (e : Int) : Val :=
  if 13 ≤ floorLog2 n 1 e then .fin false 1 1 (if neg then -5000 else 5000)
  else
    let x := fixOf neg n e
    let i := x / fixOne
    let fr := x % fixOne
    if fr = 0 then .fin false 1 1 i else Val.ofFix (fixExp (fixMul fr fixLn2)) i

/-- log2 of n × 2^e, n > 0. -/
def log2Val (n : Nat) (e : Int) : Val :=
  let l := Nat.log2 n
  let i : Int := (l : Int) + e
  if n = 2 ^ l then .ofInt i
  else
    let m := fixOf false n (-(l : Int))
    let z := (m - fixOne) * fixOne / (m + fixOne)
    let lg := 2 * fixAtanh z * fixOne / fixLn2
    Val.ofFix (i * fixOne + lg) 0

/-- The quadrant of x ≥ 0 and the remainder in it, in fixed point. -/
def quadrant (x : Int) : Nat × Int := ((x / fixHalfPi % 4).toNat, x % fixHalfPi)

/-- The sine of n × 2^e. -/
def sinVal (neg : Bool) (n : Nat) (e : Int) : Val :=
  let (q, r) := quadrant (fixOf false n e)
  let v := match q with
    | 0 => fixSin r
    | 1 => fixCos r
    | 2 => -(fixSin r)
    | _ => -(fixCos r)
  Val.ofFix (if neg then -v else v) 0

/-- The cosine of n × 2^e. -/
def cosVal (n : Nat) (e : Int) : Val :=
  let (q, r) := quadrant (fixOf false n e)
  Val.ofFix (match q with
    | 0 => fixCos r
    | 1 => -(fixSin r)
    | 2 => -(fixCos r)
    | _ => fixSin r) 0

/-- The hyperbolic tangent of n × 2^e; beyond 128 it is 1 less than any format shows. -/
def tanhVal (neg : Bool) (n : Nat) (e : Int) : Val :=
  if 7 ≤ floorLog2 n 1 e then .fin neg (2 ^ 400 - 1) 1 (-400)
  else
    let y := fixOf false n (e + 1) * fixOne / fixLn2
    let i := (y / fixOne).toNat
    let ex := fixExp (fixMul (y % fixOne) fixLn2)
    let num := ex * (2 ^ i : Nat) - fixOne
    let den := ex * (2 ^ i : Nat) + fixOne
    Val.ofFix (signedNum neg (num * fixOne / den).toNat) 0

/-! ## The bounded results -/

/-- The functions of R132, numbered. -/
inductive Approx where
  | rcp
  | rsq
  | exp2
  | log2
  | sin
  | cos
  | tanh
  deriving DecidableEq, Repr

/-- The number of a function, for Config.approx. -/
def Approx.num : Approx → Nat
  | .rcp => 0
  | .rsq => 1
  | .exp2 => 2
  | .log2 => 3
  | .sin => 4
  | .cos => 5
  | .tanh => 6

/-- One as an exact value. -/
def Val.one : Val := .ofInt 1

/-- The exact value at a finite source that R133 does not list, to 640 bits or as a rational. -/
def Approx.exact (a : Approx) (neg : Bool) (n : Nat) (e : Int) : Val :=
  match a with
  | .rcp => Val.div .one (.fin neg n 1 e)
  | .rsq => Val.div .one (Val.sqrt (.fin false n 1 e))
  | .exp2 => exp2Val neg n e
  | .log2 => log2Val n e
  | .sin => sinVal neg n e
  | .cos => cosVal n e
  | .tanh => tanhVal neg n e

/-- Is the magnitude at most 2^k? -/
def atMostPow (n : Nat) (e k : Int) : Bool := n == 0 || decide (floorLog2 n 1 e < k) || (floorLog2 n 1 e == k && n == 2 ^ Nat.log2 n)

/-- Is the exact result one that R132 lists as exact, when it is representable? -/
def Approx.listed (a : Approx) (n : Nat) (e : Int) : Bool :=
  let pow := n == 2 ^ Nat.log2 n
  match a with
  | .rcp => pow
  | .rsq => pow
  | .exp2 => decide (0 ≤ e) || n % 2 ^ (-e).toNat == 0
  | .log2 => pow
  | .sin => atMostPow n e (-12)
  | .cos => false
  | .tanh => atMostPow n e (-12)

/-- The bound of R132 for f32 and f64 as a value: ulps of the type at the exact result, or an absolute error. -/
def Approx.bound (a : Approx) (f : Fmt) (n : Nat) (e : Int) (v : Val) : Val :=
  let ulp : Int := match v with
    | .fin _ m d x => max (floorLog2 m d x - f.mant) (1 - (f.bias : Int) - f.mant)
    | _ => 0
  let absolute : Val := .fin false 1 1 (-22)
  match a with
  | .rcp => .fin false 1 1 ulp
  | .rsq => .fin false 1 1 ulp
  | .sin => absolute
  | .cos => absolute
  | .log2 => if atMostPow n e 1 && decide (-1 ≤ floorLog2 n 1 e) then absolute else .fin false 2 1 ulp
  | _ => .fin false 2 1 ulp

/-- Is a candidate code within the bound of the exact value? -/
def withinBound (f : Fmt) (c : Nat) (v bound : Val) : Bool :=
  match f.widen c with
  | .fin s n d e => (((Val.fin s n d e).add false v.negate).abs.cmp bound) != .gt
  | _ => false

/-- The result at a finite source that R133 does not list: a code and its conditions. -/
def Approx.finite (a : Approx) (t bits : Nat) (neg : Bool) (n : Nat) (e : Int) : Nat × Conds :=
  let f := fmtOf t
  if (a == .sin || a == .tanh) && a.listed n e then (bits, .none)
  else
    let v := a.exact neg n e
    let (c, fl) := f.round 0 0 0 v
    if fl.ovf || a.listed n e && !fl.inx || f.mant < 20 then (c, { Conds.none with ovf := fl.ovf })
    else
      let free := Config.approx a.num t bits % 2 ^ f.width
      (if withinBound f free v (a.bound f n e v) then free else c, .none)

/-- A zero or an infinity of the format. -/
def Fmt.infCode (f : Fmt) (neg : Bool) : Nat := f.signBit neg + f.maxCode + 1

/-- One as a code. -/
def Fmt.oneCode (f : Fmt) : Nat := f.bias * 2 ^ f.mant

/-- The result of an approximation at a code (R132, R133), before saturation. -/
def Approx.at (a : Approx) (t bits : Nat) : Nat × Conds :=
  let f := fmtOf t
  let nan := (f.nanCode false, { Conds.none with inv := true })
  let dz := fun (neg : Bool) => (f.infCode neg, { Conds.none with dz := true })
  match f.widen bits with
  | .nan _ => (f.nanCode false, { Conds.none with inv := f.snan bits })
  | .inf neg =>
    (match a with
      | .rcp => (f.signBit neg, .none)
      | .rsq => if neg then nan else (0, .none)
      | .exp2 => (if neg then 0 else f.infCode false, .none)
      | .log2 => if neg then nan else (f.infCode false, .none)
      | .sin => nan
      | .cos => nan
      | .tanh => (f.signBit neg + f.oneCode, .none))
  | .fin neg n _ e =>
    if n = 0 then
      (match a with
        | .rcp => dz neg
        | .rsq => dz neg
        | .exp2 => (f.oneCode, .none)
        | .log2 => dz true
        | .sin => (f.signBit neg, .none)
        | .cos => (f.oneCode, .none)
        | .tanh => (f.signBit neg, .none))
    else if neg && (a == .rsq || a == .log2) then nan
    else a.finite t bits neg n e

/-- The saturation of R132: an infinite result becomes the largest finite value of its sign. -/
def Approx.result (a : Approx) (t : Nat) (sat : Bool) (bits : Nat) : Nat × Conds :=
  let f := fmtOf t
  let (c, fl) := a.at t bits
  (match f.widen c with
    | .inf neg => if sat then f.signBit neg + f.maxCode else c
    | _ => c, fl)

/-- An approximation (R125, R132). -/
def State.approx (s : State) (f : VR) (a : Approx) (listed : Conds) : Host.Outcome State Fault Refusal := s.issue fun u =>
  let t := f.t.toNat
  let n := typeRegs t
  s.writeConds u (u.g.participating u.slot s.turn f.toCommon) f.d.toNat n f.pd.toNat listed fun l =>
    perElement t fun j =>
      a.result t (u.saturates f.sat) (modCode t f.aa f.na (elemCode t (u.opA s.turn f n l) j))

/-- FRCP (R132, R133). -/
def execFrcp (f : VR) (s : State) : Host.Outcome State Fault Refusal := s.approx f .rcp condDzOvf
/-- FRSQ (R132, R133). -/
def execFrsq (f : VR) (s : State) : Host.Outcome State Fault Refusal := s.approx f .rsq condInvDz
/-- FEXP2 (R132, R133). -/
def execFexp2 (f : VR) (s : State) : Host.Outcome State Fault Refusal := s.approx f .exp2 condOvf
/-- FLOG2 (R132, R133). -/
def execFlog2 (f : VR) (s : State) : Host.Outcome State Fault Refusal := s.approx f .log2 condInvDz
/-- FSIN (R132, R133). -/
def execFsin (f : VR) (s : State) : Host.Outcome State Fault Refusal := s.approx f .sin condInv
/-- FCOS (R132, R133). -/
def execFcos (f : VR) (s : State) : Host.Outcome State Fault Refusal := s.approx f .cos condInv
/-- FTANH (R132, R133). -/
def execFtanh (f : VR) (s : State) : Host.Outcome State Fault Refusal := s.approx f .tanh condNone

end Sys2Proof.Machine
end

