-- ==== Sys2Proof/Machine/Lanes.lean ====
section
/-! DEFINITION. Values between lanes and between groups (R120 to R123), opcode 0x44, with the timeout of XCH. -/
namespace Sys2Proof.Machine
open Sys2Proof

/-- RDLANE (R121): lane S[b] mod 32 of A as it stands, to every participating lane; PD tells whether that lane
participates. -/
def execRdlane (f : VR) (s : State) : Host.Outcome State Fault Refusal := s.issue fun u =>
  let n := typeRegs f.t.toNat
  let part := u.g.participating u.slot s.turn f.toCommon
  let j := u.uniform s.turn 2 1 f.u.toNat % 32
  s.write u (laneResults part f.d.toNat n (fun _ => u.opA s.turn f n j) ++
    predResults part f.pd.toNat (fun _ => laneIn part j))

/-! ## SHFL -/

/-- The source lane of each kind of SHFL for lane `l` in segments of `w` lanes, with the value `b` (R121). -/
def shflSource (fn w l b : Nat) : Option Nat :=
  let base := l - l % w
  match fn with
  | 1 => some (base + b % w)
  | 2 => some (base + (l - base + b) % w)
  | 3 =>
    let j : Int := (l : Int) + readInt 32 true b
    if (base : Int) ≤ j ∧ j < ((base + w : Nat) : Int) then some j.toNat else none
  | _ => some (l ^^^ (b % w))

/-- The source lane when it is valid and participates (R121). -/
def Issuer.shflLane (u : Issuer) (turn : Nat) (f : VR) (fn : Nat) (part : Mask) (l : Nat) : Option Nat :=
  (shflSource fn (32 / 2 ^ f.rm.toNat) l (u.opB turn f 1 l)).filter (laneIn part)

/-- SHFL of one kind (R121): the source lane's A, or the fill C; PD tells which. -/
def State.shfl (s : State) (f : VR) (fn : Nat) : Host.Outcome State Fault Refusal := s.issue fun u =>
  let n := typeRegs f.t.toNat
  let part := u.g.participating u.slot s.turn f.toCommon
  let from_ := u.shflLane s.turn f fn part
  s.write u (laneResults part f.d.toNat n (fun l => match from_ l with
      | some j => u.opA s.turn f n j
      | none => u.opC s.turn f n l) ++
    predResults part f.pd.toNat (fun l => (from_ l).isSome))

/-- SHFL.idx (R121). -/
def execShflIdx (f : VR) (s : State) : Host.Outcome State Fault Refusal := s.shfl f 1
/-- SHFL.rot (R121). -/
def execShflRot (f : VR) (s : State) : Host.Outcome State Fault Refusal := s.shfl f 2
/-- SHFL.shift (R121). -/
def execShflShift (f : VR) (s : State) : Host.Outcome State Fault Refusal := s.shfl f 3
/-- SHFL.xor (R121). -/
def execShflXor (f : VR) (s : State) : Host.Outcome State Fault Refusal := s.shfl f 4

/-! ## XCH -/

/-- Where XCH's S[b] says the partner is: its core and its $grp (R122). -/
def xchPlace (core : Nat) (w : Nat) : Nat × Nat :=
  (coreDie core * 128 + coreOct core * 32 + bitsAt w 0 3 * 4 + bitsAt w 3 2, bitsAt w 5 7)

/-- The operands an XCH captures: the partner's place, the participating lanes, A in every lane. -/
def Issuer.xchOps (u : Issuer) (turn : Nat) (f : VR) (w : Nat) : List Nat :=
  let (core, grp) := xchPlace u.g.core w
  [core, grp, (u.g.participating u.slot turn f.toCommon).toNat] ++ laneList.map (u.opA turn f (typeRegs f.t.toNat))

/-- The results of an XCH from its own operands and, on a match, the partner's (R122). -/
def xchResults (f : VR) (ops : List Nat) (other : Option (List Nat)) : List (Cell × DWord) :=
  let part : Mask := BitVec.ofNat 32 (ops.getD 2 0)
  let both := fun l => match other with
    | some o => laneIn (BitVec.ofNat 32 (o.getD 2 0)) l
    | none => false
  laneResults part f.d.toNat (typeRegs f.t.toNat) (fun l => match other with
      | some o => if both l then o.getD (3 + l) 0 else ops.getD (3 + l) 0
      | none => ops.getD (3 + l) 0) ++
    predResults part f.pd.toNat both

/-- Completes a slot's XCH: its results are written before it issues again (R59, R122). -/
def State.xchDone (s : State) (g : Group) (n : SlotName) (f : VR) (ops : List Nat) (other : Option (List Nat)) : State :=
  s.advance (g.writeAllNow s.turn (xchResults f ops other)) n

/-- The XCH that a slot is parked in and that names this place, with the same T: its instruction, operands and turn (R122). -/
def Slot.xchToward (x : Slot) (core grp : Nat) (t : BitVec 5) : Option (VR × List Nat × Nat) :=
  match x.wait with
  | some w => (match w.instr with
    | .xch f => if f.t = t ∧ w.ops.getD 0 0 = core ∧ w.ops.getD 1 0 = grp ∧ !w.done then some (f, w.ops, w.turn) else none
    | _ => none)
  | none => none

/-- The slot of the partner that an XCH of group `g` meets, the one that parked first. -/
def Group.xchMeets (p : Group) (g : Group) (t : BitVec 5) : Option (SlotName × VR × List Nat) :=
  match p.a.xchToward g.core g.grp t, p.b.xchToward g.core g.grp t with
  | some (f, ops, ta), some (f', ops', tb) => if ta ≤ tb then some (.a, f, ops) else some (.b, f', ops')
  | some (f, ops, _), none => some (.a, f, ops)
  | none, some (f, ops, _) => some (.b, f, ops)
  | none, none => none

/-- XCH (R122): a reserved bit or a GRP above 95 raises UNDEF; absence, a match, or the slot parks. A parked XCH that issues
again was left by its partner or by the clock. -/
def execXch (f : VR) (s : State) : Host.Outcome State Fault Refusal := s.issue fun u =>
  match u.slot.wait with
  | some w => s.xchDone u.g u.name f w.ops none
  | none =>
    let w := (u.g.rdS u.slot s.turn 2 f.u.toNat).toNat
    if w / 2 ^ 12 ≠ 0 ∨ 95 < bitsAt w 5 7 then s.raise u causeUndef 0
    else
      let ops := u.xchOps s.turn f w
      match s.xchPartner u.g (ops.getD 0 0) (ops.getD 1 0) with
      | none => s.xchDone u.g u.name f ops none
      | some p =>
        match (if s.groupIssues p then p.xchMeets u.g f.t else none) with
        | some (n, f', ops') => ((s.xchDone u.g u.name f ops (some ops')).xchDone p n f' ops' (some ops)).settleSlots p.id
        | none => s.park u.g u.name (.xch f) ops .event

/-- XCH_TIMEOUT (R122): 65,536 fc without a match. -/
def execXchTimeout (s : State) : Host.Outcome State Fault Refusal := whenDue (do
  let u ← s.slotArg
  let w ← u.slot.wait
  match w.instr with
  | .xch _ => if w.fc + 65536 ≤ s.fc && !w.done then some (s.wake u) else none
  | _ => none)

end Sys2Proof.Machine
end

