-- ==== Sys2Proof/Machine/Power.lean ====
section
/-! DEFINITION. Start-up (R310, R313 to R319), power states and heat (R320 to R327), and what the A-die and the Fuash port do at memory and at
registers (R282, R311, R312, R315). -/
namespace Sys2Proof.Machine
open Sys2Proof

/-! ## What a start measures and reads -/

/-- A run of free bytes, by turn and place. -/
def freeRun (turn place n : Nat) : List Byte :=
  (List.range n).map (fun i => BitVec.ofNat 8 ((Config.freeWord turn (place + i / 8)).toNat / 256 ^ (i % 8)))

/-- The images a cold start accepts after stage 1, in a free order: F-die runtime, configuration record, C-die microcode (R316). -/
def imageOrder (turn : Nat) : List Nat :=
  match Config.pick turn 50 0 % 6 with
  | 0 => [2, 4, 5]
  | 1 => [2, 5, 4]
  | 2 => [4, 2, 5]
  | 3 => [4, 5, 2]
  | 4 => [5, 2, 4]
  | _ => [5, 4, 2]

/-- An entry of the measurement log: BDIG, KIND, SVN. The flash is outside the model, so the digest is free, and so is the version, which is at
least the fused minimum, as the verifier asks (R316, assumption 11). -/
def measured (turn kind : Nat) : List Byte × Nat × Nat :=
  (freeRun turn (500000 + 8 * kind) 32, kind, max (Config.minSvn kind) ((Config.freeWord turn (501000 + kind)).toNat % 2 ^ 32))

/-- The configuration record's body: free, within the ranges of R317. -/
def configBody (turn : Nat) : List Nat :=
  let w := fun (i lo n : Nat) => lo + (Config.freeWord turn (502000 + i)).toNat % n
  let spen := w 16 0 4096
  let envw := w 18 600 1401
  (List.range 16).map (fun i => w i 0 256) ++ [spen % 256, spen / 256, envw % 256, envw / 256, w 20 70 31, w 21 0 8] ++ List.replicate 42 0

/-- A byte of the configuration record. -/
def State.cfg (s : State) (i : Nat) : Nat := s.boot.config.getD i 0
/-- CLDIS bits of a die. -/
def State.cldis (s : State) (d : Nat) : Nat := s.cfg (4 * d) + 256 * s.cfg (4 * d + 1) + 65536 * s.cfg (4 * d + 2) + 2 ^ 24 * s.cfg (4 * d + 3)
/-- SPEN. -/
def State.spen (s : State) : Nat := s.cfg 16 + 256 * s.cfg 17
/-- ENVW. -/
def State.envw (s : State) : Nat := s.cfg 18 + 256 * s.cfg 19
/-- TWARN. -/
def State.twarn (s : State) : Nat := s.cfg 20
/-- PFALL. -/
def State.pfall (s : State) : Nat := s.cfg 21

/-! ## Links of a start -/

/-- Does link `n` of a die come up: not among the failed ones, given as 6d + n, at either end of a square link? -/
def linkTrains (failed : List Nat) (d n : Nat) : Bool :=
  let far := fun (e : Nat) => 6 * e + (if (neighbours e).1 = d then 1 else 2)
  !failed.contains (6 * d + n) && (match n with
    | 1 => !failed.contains (far (neighbours d).1)
    | 2 => !failed.contains (far (neighbours d).2)
    | _ => true)

/-- The dies that the F-die reaches, in at most three links of the square (R310, R314). -/
def reachedDies (failed : List Nat) : List Nat :=
  let direct := (List.range 4).filter (fun d => linkTrains failed d 0)
  let grow := fun (ds : List Nat) => (List.range 4).filter (fun d => ds.contains d ||
    (linkTrains failed d 1 && ds.contains (neighbours d).1) || (linkTrains failed d 2 && ds.contains (neighbours d).2))
  grow (grow (grow direct))

/-- The links of every die as step 5 leaves them; the Span ports train by their own events (R313 steps 5 and 10, R314). -/
def State.trainLinks (s : State) (failed : List Nat) : State :=
  (List.range 12).foldl (fun (s : State) i =>
    s.setField (linkReg (i / 3) (i % 3)) 63 1 (if linkTrains failed (i / 3) (i % 3) then 1 else 0)) s

/-- The links of a start that is not cold: those that are up stay up, and only those that went down train (R319). -/
def State.retrainLinks (s : State) (failed : List Nat) : State :=
  s.trainLinks (failed.filter (fun i => !s.linkUp (i / 6) (i % 6)))

/-- Dies the F-die does not reach are disabled (R314). -/
def State.disableUnreached (s : State) (failed : List Nat) : State :=
  (List.range 4).foldl (fun (s : State) d =>
    if (reachedDies failed).contains d then s.setDie d { s.die d with disabled := false }
    else (s.setDie d { s.die d with disabled := true }).setCdis d) s

/-! ## Cold start -/

/-- What stays when the part loses its power: NFAIL in boot flash, the time that runs, and the far modules with their memory (R315). -/
def State.powerless (s : State) : State :=
  let far := fun (a : Nat) => decide (2 ^ 48 ≤ a ∧ a < 2 ^ 59)
  { State.reset with
    turn := s.turn, args := s.args, nextId := s.nextId, fc := s.fc, mem := s.mem.filter (fun c => far c.1),
    poison := s.poison.filter (fun l => far (128 * l)), remotes := s.remotes,
    boot := { State.reset.boot with nfail := s.boot.nfail } }

/-- MAIN_POWER_LOSS (R315, R320). -/
def execMainPowerLoss (s : State) : Host.Outcome State Fault Refusal := whenDue (
  if s.boot.powered then some s.powerless else none)

/-- BOOTSTAT: STEP, FAIL, NFAIL, RECOV, WARM; CDIS stays. -/
def State.setBootstat (s : State) (step fail : Nat) (recov warm : Bool) : State :=
  let s := ((s.setField bootstat 20 4 step).setField bootstat 16 4 fail).setField bootstat 14 2 s.boot.nfail
  (s.setField bootstat 13 1 (if recov then 1 else 0)).setField bootstat 12 1 (if warm then 1 else 0)

/-- The failure code of a start's step (R313); steps 9, 10 and 12 cannot fail. -/
def failureCode (step : Nat) : Option Nat :=
  match step with
  | 1 => some 1
  | 2 => some 2
  | 3 => some 3
  | 4 => some 4
  | 5 => some 5
  | 6 => some 6
  | 7 => some 7
  | 8 => some 8
  | 11 => some 11
  | _ => none

/-- Steps 8 and 9 on every core: at most one bank marked, the sub-arrays that fail; both free (R253, R313, R377). -/
def State.testParts (s : State) : State :=
  let s := (List.range 512).foldl (fun (s : State) c =>
    let m := Config.pick s.turn 33 c % 37
    s.setCore c { s.core c with mark := if m = 36 then none else some m, banks := [], corr := 0 }) s
  (List.range 512).foldl (fun (s : State) c => s.testCore c (BitVec.ofNat 8 (Config.pick s.turn 32 c))) s

/-- Every die held: no core of it runs. -/
def State.gateAll (s : State) (g : Bool) : State :=
  { s with dies := s.dies.map (fun (x : Die) => { x with gated := g }) }

/-- The registers that a hand-off after a cold start sets from the configuration record: PDIE, the gates of disabled clusters, the Span
enables (R317, R322, R323, R380). -/
def State.applyConfig (s : State) : State :=
  let p := s.pfall
  let s := s.setReg pdieReg (BitVec.ofNat 64 (((List.range 4).map (fun d => (p + 8 * p) * 256 ^ d)).foldl (· + ·) 0))
  let s := (List.range 4).foldl (fun (s : State) d => (s.setReg (clgateReg d) (BitVec.ofNat 64 (s.cldis d))).setDie d { s.die d with point := p }) s
  (List.range 12).foldl (fun (s : State) i => s.setField (spctl i) 0 1 (s.spen / 2 ^ i % 2)) s

/-- What the steps of a cold start before `step` have done (R313): the seed regenerated, the images verified and measured, the configuration
record read, the links trained, the parts tested. -/
def State.coldWork (s : State) (step : Nat) (failed : List Nat) : State :=
  let images := if 4 < step then 1 :: imageOrder s.turn else if 2 < step then [1] else []
  let s : State := { s with boot := { s.boot with log := images.map (measured s.turn), identity := if 3 < step then 1 else 0,
                                                  config := if 4 < step then configBody s.turn else s.boot.config } }
  let s : State := if 4 < step then { s with boot := { s.boot with ceiling := s.envw } } else s
  let s := if 5 < step then (s.trainLinks failed).disableUnreached failed else s
  if 9 < step then s.testParts else s

/-- A cold start that failed at a step: the work of the steps before it, recorded, counted, and the C-dies do not run (R313). -/
def State.coldFailed (s : State) (step code : Nat) (failed : List Nat) : State :=
  let s := s.coldWork step failed
  let s : State := { s with boot := { s.boot with nfail := min 3 (s.boot.nfail + 1), stage := 0, handed := false } }
  (s.setBootstat (step - 1) code false false).gateAll true

/-- The recovery image in place of stage 1: steps 1 to 3 and 11 (R315). -/
def State.runRecovery (s : State) : State :=
  let s : State := { s with boot := { s.boot with log := [measured s.turn 3], stage := 0, handed := false, identity := 2 } }
  (s.setBootstat 11 0 true false).gateAll true

/-- A step of the recovery image that failed: one of 1 to 3 and 11 (R315). -/
def State.recoveryFailed (s : State) (step code : Nat) : State :=
  let s : State := { s with boot := { s.boot with log := if 2 < step then [measured s.turn 3] else [], stage := 0, handed := false,
                                                  identity := if 3 < step then 1 else 0 } }
  (s.setBootstat (if step = 11 then 3 else step - 1) code false false).gateAll true

/-- A cold start that ends in the driver's hand-off (R313, R398). -/
def State.coldDone (s : State) (failed : List Nat) : State :=
  let s := s.coldWork 12 failed
  let s : State := { s with boot := { s.boot with nfail := 0, handed := true, stage := 0, identity := 2 } }
  let s := s.applyConfig
  let s : State := { s with fleet := { s.fleet with calep := s.fleet.calep + 1, closedFc := s.fc } }
  s.setBootstat 12 0 false false

/-! ## Evacuation -/

/-- The blocks that a transition has to see away: of the whole module, or of the clusters to be gated (R319, R323). -/
def State.evacuees (s : State) : List Block :=
  s.blocks.filter (fun b => (b.state == .resident || b.state == .saving) && (match s.boot.busy with
    | [4, d, bits] => b.cluster / 32 == d && bits.testBit (b.cluster % 32)
    | _ => true))

/-- A transition begins: BUSY, and the saves of the units that it has to see away (R319, R324). -/
def State.beginTransition (s : State) (busy : List Nat) (evacuates : Bool) : State :=
  let s : State := { s with boot := { s.boot with busy := busy, evacFc := if evacuates then some s.fc else none } }
  let s := if busy.getD 0 0 = 2 then s else s.setField pmstat 14 1 1
  if evacuates then s.evacuate false s.evacuees else s

/-- EVACUATION_TIMEOUT (R319): units that have reached no pre-emption point, or found no room in the save area, after 10 ms are ended with a
fault record. -/
def execEvacuationTimeout (s : State) : Host.Outcome State Fault Refusal := whenDue (do
  let t ← s.boot.evacFc
  if s.fc < t + 16000000 || s.evacuees.isEmpty then none else some (s.evacuees.foldl (State.endBlock · true) s))

/-- Is an evacuation over: every unit saved, or retired and its room given up? -/
def State.evacuated (s : State) : Bool :=
  s.evacuees.isEmpty && (match s.boot.busy with
    | [4, d, bits] => !s.blocks.any (fun b => b.state == .retired && b.cluster / 32 == d && bits.testBit (b.cluster % 32))
    | _ => !s.blocks.any (fun b => b.state == .retired))

/-- Every die's dirty lines at home, no copy left (R319, step 3). -/
def State.flushAll (s : State) : State := (List.range 4).foldl State.flushDie s

/-- The C-dies reset: nothing on them survives but DRAM, and $clock counts anew (R35, R319). -/
def State.resetDies (s : State) : State :=
  let s := (List.range 4).foldl (fun (s : State) d => s.clearDie d) s.flushAll
  { s with dies := s.dies.map (fun (x : Die) => { x with clock := 0 }) }

/-- The C-dies run again after a warm start, or leaving M2: their cores reset, their arrays tested (R319, R320); a lost die is back
(R373). -/
def State.restartDies (s : State) : State :=
  let s := (List.range 4).foldl (fun (s : State) d => s.restartDie d) s
  let s : State := { s with dies := s.dies.map (fun (x : Die) => { x with gated := false, lost := false }) }
  (List.range 4).foldl (fun (s : State) d => s.setField bootstat d 1 (if (s.die d).disabled then 1 else 0)) s

/-! ## Commands -/

/-- May a power command be taken: after hand-off, none in progress (R325)? -/
def State.powerReady (s : State) : Bool := s.boot.handed && s.field pmstat 14 1 == 0 && s.boot.busy.isEmpty

/-- WARM_START (R319, R321). Operands: the step that fails, 0 for none; the links that fail to train. -/
def execWarmStart (s : State) : Host.Outcome State Fault Refusal := whenDue (
  if !s.powerReady || s.field pmstat 12 2 != 0 then none
  else
    let s : State := { s with boot := { s.boot with handed := false } }
    some (s.beginTransition (2 :: s.args) true))

/-- MODULE_STATE (R320, R321): M0 to M1, M2 or M3, and M1 or M2 to M0 or onward; M3 is left only by a cold start. -/
def execModuleState (s : State) : Host.Outcome State Fault Refusal := whenDue (
  let target := s.arg 0 % 4
  let now := s.field pmstat 12 2
  if !s.powerReady then none
  else
    let s := s.setField pmmode 0 2 target
    if target = now ∨ now = 3 then some s else some (s.beginTransition [1, target] (target != 0)))

/-- The rated power of a C-die at a point (R327): the spec states P0's; those of P1 to P7 stand in the driver's tables, free but falling as
clock and rail fall in the table of R322. -/
def diePower : Nat → Nat
  | 0 => 350
  | p + 1 => Config.approx 100 (p + 1) 0 % (diePower p + 1)

/-- The rated power of the module with every C-die at a point (R327). -/
def ratedPower (p : Nat) : Nat := 200 + 4 * diePower p

/-- The point that a write leaves under a ceiling: itself, or the nearest that keeps within it, the slower on a tie; P7 where none does
(R325, assumption 18). -/
def boundedPoint (ceiling p : Nat) : Nat :=
  let ok := (List.range 8).filter (fun q => ratedPower q ≤ ceiling)
  let dist := fun (q : Nat) => if q < p then 2 * (p - q) + 1 else 2 * (q - p)
  if ratedPower p ≤ ceiling then p else ok.foldl (fun m q => if dist q < dist m then q else m) (ok.headD 7)

/-- PCMD of a die; FALL is three bits above. -/
def State.pcmd (s : State) (d : Nat) : Nat := s.field pdieReg (8 * d) 3

/-- PDIE (R322, R325): each die's FALL and PCMD within the ceiling; a die with its ITRIP bit set records PCMD only. The ac of a die
that changes its point is held meanwhile. -/
def execPdie (s : State) : Host.Outcome State Fault Refusal := whenDue (
  if !s.powerReady then none
  else
    let v := s.arg 0
    let s := (List.range 4).foldl (fun (s : State) d =>
      let p := boundedPoint s.boot.ceiling (bitsAt v (8 * d) 3)
      let f := boundedPoint s.boot.ceiling (bitsAt v (8 * d + 3) 3)
      let s := (s.setField pdieReg (8 * d) 3 p).setField pdieReg (8 * d + 3) 3 f
      let x := s.die d
      if s.field pmstat (16 + d) 1 = 1 ∨ x.point = p then s else s.setDie d { x with point := p, gated := true }) s
    some (s.beginTransition [3] false))

/-- CLGATE (R323): bits set stop placement on their clusters and save what is there; bits cleared are ungated. A disabled cluster's bit reads
1. -/
def execClgate (s : State) : Host.Outcome State Fault Refusal := whenDue (
  let d := s.arg 0
  if !s.powerReady ∨ 4 ≤ d then none
  else
    let old := (s.reg (clgateReg d)).toNat
    let new := s.arg 1 % 2 ^ 32 ||| s.cldis d
    let s := s.setReg (clgateReg d) (BitVec.ofNat 64 new)
    let rise := (List.range 32).foldl (fun n c => if new.testBit c ∧ !old.testBit c then n + 2 ^ c else n) 0
    let fallen := (List.range 32).filter (fun c => old.testBit c && !new.testBit c)
    let cores := fallen.flatMap (fun c => (List.range 4).map (fun i => 128 * d + 4 * c + i))
    let s := cores.foldl (fun (s : State) c => s.resetCore c) s
    let s := cores.foldl (fun (s : State) c => s.failSubArrays c (BitVec.ofNat 8 (Config.pick s.turn 32 c))) s
    some (s.beginTransition [4, d, rise] (rise != 0)))

/-- M3 (R320): the F-die's management domain alone runs on, with Scorepad, the status registers and MODID; all else loses its contents. -/
def State.enterM3 (s : State) : State :=
  let regs := [(bootstat, s.reg bootstat), (pmstat, s.reg pmstat), (modid, s.reg modid)]
  let clean := s.powerless
  let s : State := { clean with fleet := s.fleet, boot := { s.boot with handed := false, busy := [], evacFc := none, stage := 0 } }
  ((regs.foldl (fun (s : State) e => s.setReg e.1 e.2) s).setField pmstat 12 2 3).gateAll true

/-- A step of a warm start that may fail, with its code: 1, 5, 6, 8 and 11, and 7 where PMMODE.BIST has it run (R313, R319, R321). Leaving M2
runs no step 7 and no step 11 (R320). -/
def State.warmFailure (s : State) (fail : Nat) (m2 : Bool) : Option Nat :=
  if fail = 1 ∨ fail = 5 ∨ fail = 6 ∨ fail = 8 ∨ (!m2 ∧ (fail = 11 ∨ (fail = 7 ∧ s.field pmmode 3 1 = 1))) then failureCode fail else none

/-- The step of a warm start that completes before a step does (R319). -/
def State.warmBefore (s : State) (step : Nat) : Nat :=
  match step with
  | 1 => 0
  | 5 => 1
  | 6 => 5
  | 7 => 6
  | 8 => if s.field pmmode 3 1 = 1 then 7 else 6
  | _ => step - 1

/-- A module state is entered, its units away (R320). Out of M2 the C-dies come back by steps of a warm start, to M1 as to M0. -/
def State.enterState (s : State) (target fail : Nat) (failed : List Nat) : State :=
  let now := s.field pmstat 12 2
  let there := s.setField pmstat 12 2 target
  match target with
  | 2 => there.resetDies.gateAll true
  | 3 => there.enterM3
  | _ =>
    if now ≠ 2 then there.gateAll (target = 1)
    else
      match s.warmFailure fail true with
      | some code => s.setField bootstat 16 4 code
      | none => (((there.retrainLinks failed).disableUnreached failed).restartDies).gateAll (target = 1)

/-- The end of a warm start: hand-off with WARM = 1, or FAIL set and the C-dies held in reset (R319, R398). -/
def State.warmDone (s : State) (fail : Nat) (failed : List Nat) : State :=
  let s := s.resetDies
  match s.warmFailure fail false with
  | some code => (s.setBootstat (s.warmBefore fail) code false true).gateAll true
  | none =>
    let s := ((s.retrainLinks failed).disableUnreached failed).restartDies
    let s : State := { s with fleet := { s.fleet with calep := s.fleet.calep + 1 }, boot := { s.boot with handed := true } }
    s.setBootstat 12 0 false true

/-! ## Cold start, from power-on or M3 -/

/-- COLD_START (R313 to R318): at power-on, or once START asks for it in M3. Operands: the step that fails, 0 for none, or 16 more than the
step that a critical thermal trip stops, which is not counted (R315, R325); the links that fail to train, as 6d + n. With NFAIL = 3 the recovery
image runs, with steps 1 to 3 and 11 alone. What the F-die's management domain holds stands through M3: Scorepad's records, MODID, a
critical trip's mark. -/
def execColdStart (s : State) : Host.Outcome State Fault Refusal := whenDue (do
  let step := s.arg 0
  let failed := s.args.drop 1
  if s.boot.powered && s.boot.stage != 1 then none
  else
    let trip := s.field pmstat 15 1
    let clean := s.powerless
    let kept := s.fleet
    let m3 := s.boot.powered
    let recovery := s.boot.nfail = 3
    let fleet := if m3 then { clean.fleet with retired := kept.retired, overflow := kept.overflow, nextSeq := kept.nextSeq,
                                               calep := kept.calep } else clean.fleet
    let id := s.reg modid
    let s : State := { clean with fleet := fleet, boot := { clean.boot with powered := true, sensors := s.boot.sensors } }
    let s := (s.setField pmstat 15 1 trip).setReg modid id
    if step = 0 then some (if recovery then s.runRecovery else s.coldDone failed)
    else if 16 < step then
      let k := step - 16
      if 12 < k ∨ recovery then none
      else some ((((s.coldWork k failed).setBootstat (k - 1) 0 false false).setField pmstat 15 1 1).enterM3)
    else
      let code ← failureCode step
      if recovery then
        (if 3 < step ∧ step ≠ 11 then none else some ((s.recoveryFailed step code).setField pmstat 12 2 (if m3 then 3 else 0)))
      else some ((s.coldFailed step code failed).setField pmstat 12 2 (if m3 then 3 else 0)))

/-- POWER_TRANSITION_DONE (R319, R320, R322 to R324): once the evacuation is over the transition completes, BUSY falls and MCUR follows.
Operands, on leaving M2: the step that fails, 0 for none; the links that fail to train. -/
def execPowerTransitionDone (s : State) : Host.Outcome State Fault Refusal := whenDue (
  if s.boot.busy.isEmpty ∨ (s.boot.evacFc.isSome ∧ !s.evacuated) then none
  else
    let busy := s.boot.busy
    let s : State := { s with boot := { s.boot with busy := [], evacFc := none } }
    let s := s.setField pmstat 14 1 0
    match busy with
    | [1, target] => some (s.enterState target (s.arg 0) (s.args.drop 1))
    | 2 :: rest => some (s.warmDone (rest.getD 0 0) (rest.drop 1))
    | [3] => some (if s.field pmstat 12 2 = 0 then s.gateAll false else s)
    | [4, d, bits] =>
      let gone := s.l1.filter (fun l => coreDie l.core == d && bits.testBit (l.core / 4 % 32))
      some (gone.foldl State.evictL1 s)
    | _ => some s)

/-- ITRIP_CLEAR (R325): the recorded PCMD is applied. -/
def execItripClear (s : State) : Host.Outcome State Fault Refusal := whenDue (
  let d := s.arg 0
  if 4 ≤ d ∨ s.field pmstat (16 + d) 1 = 0 then none
  else some ((s.setField pmstat (16 + d) 1 0).setDie d { s.die d with point := s.pcmd d }))

/-! ## Heat and current -/

/-- A sensor's die: C-dies 0 to 3 with eight sensors each, then the F-die and the A-die with two (R326). -/
def sensorDie (i : Nat) : Nat := if i < 32 then i / 8 else if i < 34 then 4 else 5

/-- A sensor's reading. -/
def State.readSensor (s : State) (i c : Nat) : State :=
  { s with boot := { s.boot with sensors := (List.range 36).map (fun j => if j = i then c else s.boot.sensors.getD j 0) } }

/-- THERMAL_WARNING (R326): a reading below 110 °C; at or above TWARN it sets TWRN and interrupts the driver. -/
def execThermalWarning (s : State) : Host.Outcome State Fault Refusal := whenDue (
  let i := s.arg 0
  let c := s.arg 1
  if 36 ≤ i ∨ 110 ≤ c ∨ !s.boot.powered then none
  else
    let s := s.readSensor i c
    if s.twarn = 0 ∨ c < s.twarn then some s else some ((s.setField pmstat (4 + sensorDie i) 1 1).interrupt 5 (sensorDie i)))

/-- CRITICAL_THERMAL_TRIP (R325, R326): to M3 at once, whatever is in progress; units not yet saved are ended. -/
def execCriticalThermalTrip (s : State) : Host.Outcome State Fault Refusal := whenDue (
  let i := s.arg 0
  let c := s.arg 1
  if 36 ≤ i ∨ c < 110 ∨ !s.boot.powered then none
  else
    let s : State := { s.readSensor i c with boot := { (s.readSensor i c).boot with busy := [] } }
    let s := s.evacuees.foldl (State.endBlock · true) s
    let s := (s.setField pmstat 14 1 0).setField pmstat 15 1 1
    some s.enterM3)

/-- CURRENT_LIMIT_TRIP (R325, R326): FALL applies and ITRIP is set. -/
def execCurrentLimitTrip (s : State) : Host.Outcome State Fault Refusal := whenDue (
  let d := s.arg 0
  if 4 ≤ d ∨ !s.boot.handed ∨ s.field pmstat 12 2 ≠ 0 ∨ (s.die d).lost ∨ (s.die d).disabled then none
  else some ((s.setField pmstat (16 + d) 1 1).setDie d { s.die d with point := s.field pdieReg (8 * d + 3) 3 }))

/-! ## The recovery image -/

/-- Is an image one that the verifier accepts: the five checks of R316? The fuses, the digest and the signature are the part's
(assumption 11). -/
def imageOk (image : List Byte) : Bool :=
  let n := fun (a k : Nat) => leNat ((image.drop a).take k)
  let body := image.drop 4096
  let key := (image.drop 48).take 1312
  n 0 4 == 0x394C5957 && 1 ≤ n 4 4 && n 4 4 ≤ 5 && n 12 4 == body.length && ((image.drop 3780).take 316).all (· == 0) &&
    4096 ≤ image.length && (List.range 4).any (fun i => Config.fusedKey i == some (Config.sha3 key)) &&
    Config.verifies key ((image.drop 1360).take 2420) (Config.sha3 (image.take 1360)) &&
    Config.sha3 body == (image.drop 16).take 32 && Config.minSvn (n 4 4) ≤ n 8 4

/-- RECOVERY_IMAGE_UPDATE (R315, R316): a verified image is accepted, and its header's measures are logged. -/
def execRecoveryImageUpdate (s : State) : Host.Outcome State Fault Refusal := whenDue (
  let image := s.args.map (BitVec.ofNat 8)
  if s.field bootstat 13 1 = 0 then none
  else if !imageOk image then some s
  else
    let n := fun (a k : Nat) => leNat ((image.drop a).take k)
    let e : List Byte × Nat × Nat := ((image.drop 16).take 32, n 4 4, n 8 4)
    some { s with boot := { s.boot with recovery := image, log := s.boot.log ++ [e] } })

/-! ## The A-die at registers and memory -/

/-- Do the A-die's cores run: released by step 4 of the cold start, which the recovery image does not run, and not in M3 (R313, R315,
R320)? -/
def State.aDieRuns (s : State) : Bool :=
  s.boot.powered && s.field bootstat 13 1 == 0 && (s.field bootstat 12 1 == 1 || 4 ≤ s.field bootstat 20 4) && s.field pmstat 12 2 != 3

/-- REGISTER_WRITE (R312): `bytes` of 0 stands for all eight. -/
def execRegisterWrite (s : State) : Host.Outcome State Fault Refusal := whenDue (
  let mask := if s.arg 2 = 0 then 255 else s.arg 2 % 256
  if s.aDieRuns then some (s.writeReg (s.arg 0) (BitVec.ofNat 64 (s.arg 1)) (byteMask mask)) else none)

/-- An A-die store: the home makes the A-die the only holder, and the bytes are readable from then on (R282, R358). -/
def State.aDieStore (s : State) (home line off : Nat) (bs : List Byte) : State :=
  let s := s.closeLine line
  ((s.grantLine home 4 line true).invalidateOn home line none).publish home none line off bs []

/-- Does an address lie in the context table (R328)? -/
def inCtxTable (pa : Nat) : Bool := decide (0x800001000000 ≤ pa ∧ pa < 0x800001800000)

/-- The contexts whose VALID a store to the context table has just set (R328). -/
def State.madeLive (s : State) (pa n : Nat) : List Nat :=
  let first := (pa - 0x800001000000) / 128
  if !inCtxTable pa then []
  else ((List.range (n / 128 + 2)).map (· + first)).filter (fun cid => cid < 65536 && s.ctxValid cid && !s.fleet.live.any (fun m => m.cid == cid))

/-- The device-side queue tables that the context table names, by their contexts (R328, R341). -/
def State.dqTables (s : State) : List (Nat × Nat) :=
  let cids := ((s.mem.filter (fun c => inCtxTable c.1 && 64 ≤ c.1 % 128 && c.1 % 128 < 70)).map (fun c => (c.1 - 0x800001000000) / 128)).eraseDups
  cids.map (fun cid => (cid, s.dsqAddr cid 0))

/-- What a driver's store of a byte leaves at an address: a byte of TWR, or of RD and W of a device-side queue, keeps its value, and one of
TDROP loses the bits written 1 (R328, R341). -/
def State.driverByte (s : State) (tables : List (Nat × Nat)) (a : Nat) (b : Byte) : Byte :=
  let old := (s.bytes a 1).getD 0 0
  if inCtxTable a && 60 ≤ a % 128 && a % 128 < 64 then old
  else if inCtxTable a && 56 ≤ a % 128 && a % 128 < 60 then old &&& ~~~b
  else if tables.any (fun t => t.2 ≤ a && a < t.2 + 2048 && 16 ≤ (a - t.2) % 32 && (a - t.2) % 32 < 24) then old
  else b

/-- The bytes of a driver's store as the tables take them. -/
def State.driverBytes (s : State) (pa : Nat) (bs : List Byte) : List Byte :=
  (List.range bs.length).map (fun i => s.driverByte s.dqTables (pa + i) (bs.getD i 0))

/-- The device-side queues that a store has enabled: W and RD are cleared (R341). -/
def State.clearEnabled (s before : State) : State :=
  s.dqTables.foldl (fun (s : State) t => (List.range 64).foldl (fun (s : State) q =>
    if s.dsqEnabled t.1 q && !before.dsqEnabled t.1 q then s.storeN (s.dsqAddr t.1 q + 16) 8 0 else s) s) s

/-- May the A-die access an address: populated memory, or a CXL window of ports 0 to 3, which is A-die memory alone (R3, R311; assumption
21)? -/
def State.aDieReaches (s : State) (pa : Nat) : Bool := s.populated pa || (paNode pa == 5 && decide (pa % 2 ^ 45 < 2 ^ 44))

/-- A_DIE_ACCESS (R282, R311, R320): nodes 0 to 3 through their directories, nodes 4 and 5 directly; in M2 an access to nodes 0 to 3 ends in
a bus error. -/
def execADieAccess (s : State) : Host.Outcome State Fault Refusal := whenDue (
  let store := s.arg 0 = 1
  let pa := s.arg 1
  let n := s.arg 2
  let bs := (s.args.drop 3).map (BitVec.ofNat 8)
  let mcur := s.field pmstat 12 2
  if 1 < s.arg 0 ∨ 2 ^ 48 ≤ pa ∨ n = 0 ∨ 128 < pa % 128 + n ∨ (store ∧ bs.length ≠ n) ∨ !s.aDieRuns then none
  else if paNode pa < 4 ∧ mcur = 2 then some (s.interrupt 4 pa)
  else if !s.aDieReaches pa then none
  else
    let line := lineOf pa
    let bs := s.driverBytes pa bs
    match homeOf line with
    | some h =>
      -- The message carries the A-die's count, which the state does not hold (R288).
      let s := s.setDie h { s.die h with lclk := mergeCount (s.die h).lclk (Config.freeWord s.turn (210000 + h)) }
      if store then some ((s.aDieStore h line (pa % 128) bs).clearEnabled s)
      else some ((s.closeLine line).grantLine h 4 line false)
    | none =>
      if !store then some s
      else
        let t := (s.storeBytes pa bs).clearEnabled s
        let live := (t.madeLive pa n).filter (fun cid => !s.ctxValid cid)
        some { t with agenda := live.map (fun c => Move.event .contextActivate [c]) ++ t.agenda })

end Sys2Proof.Machine
end

