-- ==== Sys2Proof/Machine/Pod.lean ====
section
/-! DEFINITION. Span ports and what pool appliances do by themselves: revocation, the flash tier, old versions (R380, R384, R387, R388). -/
namespace Sys2Proof.Machine
open Sys2Proof

/-- SPAN_PORT_ENABLE (R380): a write of EN. A port that stops is down, and PEER is no longer valid. -/
def execSpanPortEnable (s : State) : Host.Outcome State Fault Refusal := whenDue (
  let p := s.arg 0
  let d := p / 3
  let n := 3 + p % 3
  if 12 ≤ p then none
  else if s.arg 1 % 2 = 1 then some (s.setField (spctl p) 0 1 1)
  else
    let s := (s.setField (spctl p) 0 1 0).setField (linkReg d n) 63 1 0
    some (s.setDie d { s.die d with retraining := (s.die d).retraining.filter (· != n) }))

/-! ## Revocation -/

/-- The first hop of a port, where it is a pool appliance. -/
def State.applianceAt (s : State) (port : Nat) : Option Remote :=
  if s.linkUp (port / 3) (3 + port % 3) then (s.remote? (s.field (spctl port) 16 10)).filter (fun x => x.pool && !x.dead) else none

/-- Writes BLOCK into an entry, HOLD as given; GEN advances and cached copies go (R344, R348). -/
def State.writeBlock (s : State) (t : Tier) (inst label : Nat) (held : Bool) : State :=
  let old := s.entryInMem t inst label
  let w0 := putField (putField 0 2 1 (if held then 1 else 0)) 37 27 (old.gen + 1)
  (s.putEntry t inst label { w0 := w0.toNat, w1 := 0, w2 := 0, w3 := 0 }).dropCached t inst label

/-- The time that a revocation leaves: 10 ms, or what the pod manager set, from 1 ms to 1 s: free (R388). -/
def State.revokeTime (s : State) (label : Nat) : Nat :=
  if Config.pick s.turn 60 label % 2 = 0 then 16000000 else 1600000 + Config.pick s.turn 61 label % 1598400001

/-- HOLD on a PORT entry, by port and label in one operand (R348, R388). -/
def State.holdPort (s : State) (e : Nat) : State := s.setHold .port (e / 32768) (e % 32768) true

/-- A held PORT entry is written BLOCK and released; one that firmware has given a new landing and released stays (R388). -/
def State.blockPort (s : State) (e : Nat) : State :=
  let inst := e / 32768
  if (s.entryInMem .port inst (e % 32768)).hold then s.writeBlock .port inst (e % 32768) false else s

/-- REVOKE (R371, R388). The first such event is the message's arrival: HOLD on every entry that leads to the label. Once nothing is in
flight under them, a second one writes each BLOCK, releases it, and answers DONE. Operands of the rest: 32,768 × port + label. -/
def execRevoke (s : State) : Host.Outcome State Fault Refusal := whenDue (do
  let x ← s.applianceAt (s.arg 0)
  let label := s.arg 1 % 32768
  let es := (s.args.drop 2).filter (fun e => e < 12 * 32768)
  if 12 ≤ s.arg 0 then none
  else if x.revokes.any (fun r => r.1 == label) then
    if es.any (fun e => !(s.inFlight .port (e / 32768) (e % 32768)).isEmpty) then none
    else
      let s := s.setRemote { x with revokes := x.revokes.filter (fun r => r.1 != label) }
      some (es.foldl (fun (s : State) e => s.blockPort e) s)
  else
    let s := (s.setRemote { x with revokes := x.revokes ++ [(label, s.fc + s.revokeTime label)] }).sendControl (0x100 + x.id) (s.arg 0 / 3) false
    some (es.foldl (fun (s : State) e => s.holdPort e) s))

/-- REVOKE_DEADLINE (R388): no DONE by the deadline; HOLD and FORCE on the appliance's entry, which is then written BLOCK. What arrives
afterwards completes with REVOKED. -/
def execRevokeDeadline (s : State) : Host.Outcome State Fault Refusal := whenDue (do
  let x ← s.remote? (s.arg 0)
  let label := s.arg 1 % 32768
  let (_, due) ← x.revokes.find? (fun r => r.1 == label)
  if s.fc < due then none
  else
    let s := s.setRemote { x with revokes := x.revokes.filter (fun r => r.1 != label), revoked := label :: x.revoked.filter (· != label) }
    some ((s.forceEntry .remote x.id label).writeBlock .remote x.id label false))

/-! ## The flash tier -/

/-- FLASH_PROMOTE (R384): a block moves to the appliance's DRAM; what waits for it is served from then on. -/
def execFlashPromote (s : State) : Host.Outcome State Fault Refusal := whenDue (do
  let x ← s.remote? (s.arg 0)
  let b := s.arg 1
  if x.pool ∧ x.flash.contains b then some (s.setRemote { x with flash := x.flash.filter (· != b) }) else none)

/-- The hint on a block: the latest MHINT range over it, else the CH of its last access (R149, R384). -/
def Remote.hintOf (x : Remote) (b : Nat) : Nat :=
  match x.hints.reverse.find? (fun h => decide (h.1 % 2 ^ 48 < 65536 * (b + 1) ∧ 65536 * b < h.1 % 2 ^ 48 + h.2.1)) with
  | some h => h.2.2
  | none => (match x.accessed.find? (fun e => e.1 == b) with
    | some e => e.2
    | none => 0)

/-- The order of demotion: cold blocks first, hot ones last (R384). -/
def Remote.demotionClass (x : Remote) (b : Nat) : Nat :=
  match x.hintOf b with
  | 1 => 0
  | 2 => 2
  | _ => 1

/-- How recently a block was used: its place in the record of use, or beyond it. -/
def Remote.recency (x : Remote) (b : Nat) : Nat := (x.accessed.map (·.1)).idxOf b

/-- Does another block that DRAM holds come before this one in the order of demotion: a colder one, or one of its class used less recently?
Only blocks that the appliance has served or that a hint covers count. -/
def Remote.spares (x : Remote) (b : Nat) : Bool :=
  let known := x.accessed.map (·.1) ++ x.hints.map (fun h => flashBlock h.1)
  (known.filter (fun o => o != b && !x.flash.contains o)).any (fun o =>
    decide (x.demotionClass o < x.demotionClass b) || (x.demotionClass o == x.demotionClass b && decide (x.recency b < x.recency o)))

/-- FLASH_DEMOTION (R384): a block that none should go before moves to flash. -/
def execFlashDemotion (s : State) : Host.Outcome State Fault Refusal := whenDue (do
  let x ← s.remote? (s.arg 0)
  let b := s.arg 1
  if x.pool && decide (b < 2 ^ 32) && !x.flash.contains b && !x.spares b then some (s.setRemote { x with flash := b :: x.flash }) else none)

/-! ## Versions -/

/-- VERSION_RECLAIM (R387): a version that is not current and that no reader pins. Operands: module, control page, version. -/
def execVersionReclaim (s : State) : Host.Outcome State Fault Refusal := whenDue (do
  let x ← s.remote? (s.arg 0)
  let page := s.arg 1
  let v := s.arg 2 % 2 ^ 32
  let e ← x.regions.find? (fun e => e.1 == page)
  let a := remoteBase x.id + page
  let slot := s.loadN (a + 8 * (1 + v % 16)) 8
  if !x.pool ∨ s.loadN a 4 = v ∨ (slot / 2 ^ 32 = v ∧ slot % 2 ^ 32 ≠ 0) then none
  else some (s.setRemote { x with regions := (e.1, v) :: x.regions.filter (fun e => e.1 != page) }))

end Sys2Proof.Machine
end

