-- ==== Sys2Proof/Machine/Meter.lean ====
section
/-! DEFINITION. Scorepad's intervals and totals (R397, R399) and the Fuash port: metering, service, health, attestation (R402 to R406). -/
namespace Sys2Proof.Machine
open Sys2Proof

/-! ## Intervals -/

/-- A number as s64. -/
def word64 (x : Int) : DWord := BitVec.ofInt 64 x

/-- SCOREPAD_INTERVAL (R397, R399): every 1 ms. MEAS and IDLE are given in µJ; the charges, in pJ, in the order of the live records. MEAS =
CTX + IDLE + RESID holds of the interval, and so of the totals. -/
def execScorepadInterval (s : State) : Host.Outcome State Fault Refusal := whenDue (
  let f := s.fleet
  let meas := s.arg 0
  let idle := s.arg 1
  let charges := s.args.drop 2
  if !s.boot.powered ∨ s.fc < f.closedFc + 1600000 ∨ charges.length ≠ f.live.length then none
  else
    let live := (f.live.zip charges).map (fun e => (e.1.accrue s.turn).energy e.2)
    let pj := f.ctxPj + charges.foldl (· + ·) 0
    let ctx := pj / 1000000
    let resid : Int := (meas : Int) - ctx - idle
    let t := fun (i : Nat) => f.totals.getD i 0
    let resmax := max ((t 6).toNat % 2 ^ 32) (min (2 ^ 32 - 1) resid.natAbs)
    let totals := [s.flclk, t 1 + 1, t 2 + BitVec.ofNat 64 meas, t 3 + BitVec.ofNat 64 ctx, t 4 + BitVec.ofNat 64 idle, t 5 + word64 resid,
                   BitVec.ofNat 64 (f.calep * 2 ^ 32 + resmax), 0]
    some { s with fleet := { f with live := live, totals := totals, ctxPj := pj % 1000000, closedFc := s.fc } })

/-! ## Messages of type 0x7F -/

/-- A message leaves by the Fuash port. -/
def State.emit (s : State) (bs : List Byte) : State := { s with fleet := { s.fleet with outbox := s.fleet.outbox ++ [bs] } }

/-- A response to a metering or service command (R403): TYPE, PEN, CMD, ITAG, CC, BODY. -/
def State.reply (s : State) (cmd cc : Nat) (body : List Byte) : State :=
  s.emit ([0x7F, 0x00, 0x00, 0xD1, 0xC7, BitVec.ofNat 8 cmd, BitVec.ofNat 8 (s.arg 0), BitVec.ofNat 8 cc] ++ body)

/-- Is a command's request of the length it must have, its operands whole bytes: `widths` gives each operand's range (R403)? -/
def State.requestOk (s : State) (widths : List Nat) : Bool :=
  s.args.length == widths.length && (s.args.zip widths).all (fun e => decide (e.1 < e.2))

/-- A record as its 128 bytes. -/
def Meter.bytes (m : Meter) : List Byte := wordBytes (m.words.map BitVec.toNat)

/-- INFO (R403). Where no record is held the first SEQ held is a free value. -/
def execInfo (s : State) : Host.Outcome State Fault Refusal := whenDue (
  if !s.requestOk [256] then some (s.reply 1 1 [])
  else
    let f := s.fleet
    let first := match f.retired.head? with
      | some m => m.seq
      | none => Config.pick s.turn 63 0 % 2 ^ 32
    some (s.reply 1 0 ([128, f.retired.length, first, f.nextSeq, f.overflow.length, f.live.length].flatMap (leBytes 4))))

/-- READLIVE (R404): a snapshot at one fc; CC 3 for a context that is not live. -/
def execReadlive (s : State) : Host.Outcome State Fault Refusal := whenDue (
  if !s.requestOk [256, 65536] then some (s.reply 2 1 [])
  else
    match s.meter? (s.arg 1) with
    | none => some (s.reply 2 3 [])
    | some m =>
      let m := m.accrue s.turn
      let m := { m with words := m.words.set 2 s.flclk }
      let s : State := { s with fleet := { s.fleet with live := s.fleet.live.map (fun (x : Meter) => if x.cid = m.cid then m else x) } }
      some (s.reply 2 0 m.bytes))

/-- A record that READRET has returned: READ is set (R404). -/
def Meter.markRead (m : Meter) : Meter := { m with read := true, words := m.words.set 1 (m.words.getD 1 0 ||| 0x20000) }

/-- READRET (R404): records in SEQ order from the lowest held at or above the first; READ is set after the copy is taken. -/
def execReadret (s : State) : Host.Outcome State Fault Refusal := whenDue (
  let n := s.arg 2
  if !s.requestOk [256, 2 ^ 32, 9] || n == 0 then some (s.reply 3 1 [])
  else
    let out := (s.fleet.retired.filter (fun m => s.arg 1 ≤ m.seq)).take n
    let body := leBytes 4 out.length ++ leBytes 4 0 ++ out.flatMap Meter.bytes
    let hit := fun (m : Meter) => out.any (fun o => o.seq == m.seq)
    let s := s.reply 3 0 body
    some { s with fleet := { s.fleet with retired := s.fleet.retired.map (fun (m : Meter) => if hit m then m.markRead else m) } })

/-- Records of the overflow area enter the buffer in SEQ order as space frees (R401). -/
def Fleet.settle (f : Fleet) : Fleet :=
  let room := 16384 - f.retired.length
  { f with retired := f.retired ++ f.overflow.take room, overflow := f.overflow.drop room }

/-- ACK (R401, R404): frees the records at or below SEQ whose READ is set. As room comes, held writes of VALID take effect. -/
def execAck (s : State) : Host.Outcome State Fault Refusal := whenDue (
  let seq := s.arg 1
  if !s.requestOk [256, 2 ^ 32] || s.fleet.nextSeq ≤ seq then some (s.reply 4 1 [])
  else
    let freed := fun (m : Meter) => decide (m.seq ≤ seq) && m.read
    let n := (s.fleet.retired.filter freed).length
    let f := Fleet.settle { s.fleet with retired := s.fleet.retired.filter (fun m => !freed m) }
    let s : State := { s.reply 4 0 (leBytes 4 n) with fleet := { f with outbox := (s.reply 4 0 (leBytes 4 n)).fleet.outbox } }
    let due := if s.recordsFull then [] else f.heldValid.reverse
    some { s with agenda := due.map (fun cid => Move.event .contextActivate [cid]) ++ s.agenda })

/-- TOTALS (R399, R403). -/
def execTotals (s : State) : Host.Outcome State Fault Refusal := whenDue (
  if !s.requestOk [256] then some (s.reply 5 1 []) else some (s.reply 5 0 (wordBytes (s.fleet.totals.map BitVec.toNat))))

/-- The highest reading of each die's sensors, eight bytes (R326, R405). -/
def State.hottest (s : State) : List Byte :=
  (List.range 8).map (fun d => BitVec.ofNat 8 (((List.range 36).filter (fun i => sensorDie i == d)).foldl (fun m i => max m (s.boot.sensors.getD i 0)) 0))

/-- How many of the module's cores meet a test. -/
def State.countCores (s : State) (p : Core → Bool) : Nat := ((List.range 512).filter (fun c => p (s.core c))).length

/-- Fields packed from the lowest bit, `w` bits each. -/
def packBits (w : Nat) : List Nat → Nat
  | [] => 0
  | x :: rest => x % 2 ^ w + 2 ^ w * packBits w rest

/-- The body of HEALTH (R405). -/
def State.healthBody (s : State) : List Byte :=
  let links := (List.range 24).map (fun i => if s.linkUp (i / 6) (i % 6) then 1 else 0)
  let dropped := (List.range 3).any (fun q => s.field (faultBlock q + 0x20) 0 32 != 0)
  leBytes 4 (s.reg bootstat).toNat ++ leBytes 4 (s.reg pmstat).toNat ++ leBytes 8 (packBits 6 s.fleet.mchk) ++ leBytes 8 (packBits 1 links) ++
    s.hottest ++ leBytes 4 (s.countCores (fun c => !c.featm.getLsbD 0)) ++ leBytes 4 (s.countCores (fun c => !c.featm.getLsbD 1)) ++
    leBytes 4 (s.countCores (fun c => c.mark.isSome)) ++
    leBytes 4 ((if s.fleet.heldValid.isEmpty then 0 else 1) + (if dropped then 2 else 0)) ++ List.replicate 16 0

/-- HEALTH (R405). -/
def execHealth (s : State) : Host.Outcome State Fault Refusal := whenDue (
  if !s.requestOk [256] then some (s.reply 6 1 []) else some (s.reply 6 0 s.healthBody))

/-- CEILING (R325, R403): in place of ENVW, for every later write of PDIE. -/
def execCeiling (s : State) : Host.Outcome State Fault Refusal := whenDue (
  let w := s.arg 1
  if !s.requestOk [256, 2001] || w < 600 then some (s.reply 7 1 [])
  else some (({ s with boot := { s.boot with ceiling := w } } : State).reply 7 0 []))

/-- SETMODID (R379, R403): before step 10 of the cold start; CC 2 from then on. -/
def execSetmodid (s : State) : Host.Outcome State Fault Refusal := whenDue (
  if !s.requestOk [256, 1024] then some (s.reply 8 1 [])
  else if 10 ≤ s.field bootstat 20 4 then some (s.reply 8 2 [])
  else some ((s.setReg modid (BitVec.ofNat 64 (s.arg 1))).reply 8 0 []))

/-- START (R320, R403): asks for a cold start from M3; CC 2 elsewhere, and after a critical trip while a sensor reads at or above TWARN. -/
def execStart (s : State) : Host.Outcome State Fault Refusal := whenDue (
  let hot := s.field pmstat 15 1 == 1 && s.boot.sensors.any (fun c => decide (s.twarn ≤ c))
  if !s.requestOk [256] then some (s.reply 9 1 [])
  else if s.field pmstat 12 2 ≠ 3 ∨ hot then some (s.reply 9 2 [])
  else
    let s := s.setField bootstat 20 4 0
    some (({ s with boot := { s.boot with stage := 1 } } : State).reply 9 0 []))

/-- MCTP_CONTROL (R402): answered as DSP0236 gives, in bytes that the spec leaves to that standard: free ones (assumption 11). -/
def execMctpControl (s : State) : Host.Outcome State Fault Refusal := whenDue (
  some (s.emit (0x00 :: freeRun s.turn 510000 (Config.pick s.turn 64 0 % 1088))))

/-! ## Attestation -/

/-- An SPDM message received, with its code and parameters: the transcript takes it (R406, assumption 11). -/
def State.heard (s : State) (code p1 p2 : Nat) (rest : List Byte) : State :=
  { s with fleet := { s.fleet with transcript := s.fleet.transcript ++ [0x13, BitVec.ofNat 8 code, BitVec.ofNat 8 p1, BitVec.ofNat 8 p2] ++ rest } }

/-- An SPDM response; the transcript takes it. -/
def State.respond (s : State) (code p1 p2 : Nat) (rest : List Byte) : State :=
  let m := [0x13, BitVec.ofNat 8 code, BitVec.ofNat 8 p1, BitVec.ofNat 8 p2] ++ rest
  let s := s.emit (0x05 :: m)
  { s with fleet := { s.fleet with transcript := s.fleet.transcript ++ m } }

/-- An ERROR response with its code; the transcript is as it was before the request. -/
def State.spdmError (s : State) (code : Nat) : State := s.emit [0x05, 0x13, 0x7F, BitVec.ofNat 8 code, 0]

/-- The ERROR codes that the responses use: InvalidRequest, UnexpectedRequest, UnsupportedRequest (assumption 11). -/
def errInvalid : Nat := 1
/-- UnexpectedRequest. -/
def errUnexpected : Nat := 4
/-- UnsupportedRequest. -/
def errUnsupported : Nat := 7

/-- GET_VERSION (R406): SPDM 1.3; the transcript begins anew. -/
def execGetVersion (s : State) : Host.Outcome State Fault Refusal := whenDue (
  let s : State := { s with fleet := { s.fleet with spdm := 1, transcript := [] } }
  some ((s.heard 0x84 0 0 []).respond 0x04 0 0 [0, 1, 0x00, 0x13]))

/-- GET_CAPABILITIES (R406): what SPDM has of flags and sizes beside R406 is free (assumption 11). -/
def execGetCapabilities (s : State) : Host.Outcome State Fault Refusal := whenDue (
  if s.fleet.spdm ≠ 1 then some (s.spdmError errUnexpected)
  else
    let s := (s.heard 0xE1 0 0 []).respond 0x61 0 0 (freeRun s.turn 511000 16)
    some { s with fleet := { s.fleet with spdm := 2 } })

/-- NEGOTIATE_ALGORITHMS (R406): SHA3-256 and ML-DSA-44, nothing else. Operands: is each of them offered? -/
def execNegotiateAlgorithms (s : State) : Host.Outcome State Fault Refusal := whenDue (
  if s.fleet.spdm ≠ 2 then some (s.spdmError errUnexpected)
  else if s.arg 0 = 0 ∨ s.arg 1 = 0 then some (s.spdmError errInvalid)
  else
    let s := (s.heard 0xE3 0 0 [1, 1]).respond 0x63 0 0 (freeRun s.turn 512000 48)
    some { s with fleet := { s.fleet with spdm := 3 } })

/-- GET_DIGESTS (R406): slot 0 alone is provisioned. -/
def execGetDigests (s : State) : Host.Outcome State Fault Refusal := whenDue (
  if s.fleet.spdm ≠ 3 then some (s.spdmError errUnexpected)
  else some ((s.heard 0x81 0 0 []).respond 0x01 0x01 0x01 (Config.sha3 Config.certChain)))

/-- GET_CERTIFICATE (R402, R406): a part of slot 0's chain, as much as was asked for and a message holds. -/
def execGetCertificate (s : State) : Host.Outcome State Fault Refusal := whenDue (
  let off := s.arg 1
  if s.fleet.spdm ≠ 3 then some (s.spdmError errUnexpected)
  else if s.arg 0 ≠ 0 ∨ Config.certChain.length ≤ off then some (s.spdmError errInvalid)
  else
    let part := (Config.certChain.drop off).take (min (s.arg 2) 1079)
    let left := Config.certChain.length - off - part.length
    some ((s.heard 0x82 0 0 (leBytes 2 off ++ leBytes 2 (s.arg 2))).respond 0x02 0 0 (leBytes 2 part.length ++ leBytes 2 left ++ part)))

/-- CHALLENGE (R318, R406): once the identity key has been derived, the chain's digest, a free nonce, and the identity key's signature over the SHA3-256 of the transcript. -/
def execChallenge (s : State) : Host.Outcome State Fault Refusal := whenDue (
  let nonce := (s.args.drop 1).map (BitVec.ofNat 8)
  if s.fleet.spdm ≠ 3 ∨ s.boot.identity ≠ 2 then some (s.spdmError errUnexpected)
  else if s.arg 0 ≠ 0 ∨ nonce.length ≠ 32 then some (s.spdmError errInvalid)
  else
    let s := s.heard 0x83 0 0 nonce
    let body := Config.sha3 Config.certChain ++ freeRun s.turn 513000 32 ++ [0, 0]
    let m : List Byte := [0x13, 0x03, 0x00, 0x01] ++ body
    some (s.respond 0x03 0 1 (body ++ Config.sign (Config.sha3 (s.fleet.transcript ++ m)))))

/-- An entry of the measurement log as bytes: BDIG, KIND, SVN (R316, R406). -/
def logBytes (e : List Byte × Nat × Nat) : List Byte := e.1 ++ leBytes 4 e.2.1 ++ leBytes 4 e.2.2

/-- GET_MEASUREMENTS (R406): entry n of the log; 0xFE, the SHA3-256 of the whole log; 0, how many there are (assumption 11). -/
def execGetMeasurements (s : State) : Host.Outcome State Fault Refusal := whenDue (
  let i := s.arg 0
  let log := s.boot.log
  if s.fleet.spdm ≠ 3 then some (s.spdmError errUnexpected)
  else
    let t := s.heard 0xE0 0 i []
    if i = 0 then some (t.respond 0x60 log.length 0 [])
    else if i = 0xFE then some (t.respond 0x60 0 0 (Config.sha3 (log.flatMap logBytes)))
    else
      match log[i - 1]? with
      | some e => some (t.respond 0x60 0 0 (logBytes e))
      | none => some (s.spdmError errInvalid))

/-- UNSUPPORTED_REQUEST (R402, R403, R406). Operands: the MCTP type; then, for type 0x7F, the command and ITAG. -/
def execUnsupportedRequest (s : State) : Host.Outcome State Fault Refusal := whenDue (
  let t := s.arg 0
  let cmd := s.arg 1
  if t = 0x05 then some (s.spdmError errUnsupported)
  else if t = 0x7F then
    (if 1 ≤ cmd ∧ cmd ≤ 9 then none
     else some (s.emit [0x7F, 0x00, 0x00, 0xD1, 0xC7, BitVec.ofNat 8 cmd, BitVec.ofNat 8 (s.arg 2), 4]))
  else if t = 0 then none
  else some s)

end Sys2Proof.Machine
end

