-- ==== Sys2Proof/Machine/Uniform.lean ====
section
/-! DEFINITION. The uniform instructions (R103 to R105, R114, R116) and the label instructions (R106, R107), opcodes 0x20 to
0x23, all under a uniform guard (R101). -/
namespace Sys2Proof.Machine
open Sys2Proof

/-! ## Shared forms -/

/-- The second source as an exact value: S[b] under OP 0x20, IMM32 under OP 0x21 (R103, R104). -/
def Issuer.srSecond (x : Issuer) (turn : Nat) (f : SR) (imm : Bool) : Int :=
  let t := f.t.toNat
  if imm then (if intSigned t then f.imm.toInt else (f.imm.toNat : Int)) else uniRead t (x.srB turn f)

/-- A uniform instruction of two exact values (R104). -/
def State.uniInt (s : State) (f : SR) (imm : Bool) (op : Int → Int → Int) : Host.Outcome State Fault Refusal :=
  s.uni f fun u => [(u.sd f, uniResult f.t.toNat (op (uniRead f.t.toNat (u.srA s.turn f)) (u.srSecond s.turn f imm)))]

/-- A uniform instruction of two bit patterns at the type's width. -/
def State.uniBits (s : State) (f : SR) (imm : Bool) (op : Nat → Nat → Nat) : Host.Outcome State Fault Refusal :=
  let n := uniWidth f.t.toNat
  s.uni f fun u => [(u.sd f, uniResult f.t.toNat
    ((op (u.srA s.turn f % 2 ^ n) (modBits n (u.srSecond s.turn f imm)) : Nat) : Int))]

/-- A shift: its amount is the whole of S[b], or IMM32 zero-extended (R105). -/
def State.uniShift (s : State) (f : SR) (imm : Bool) (op : Nat → Nat → Nat → Int) : Host.Outcome State Fault Refusal :=
  let n := uniWidth f.t.toNat
  s.uni f fun u => [(u.sd f, uniResult f.t.toNat
    (op n (u.srA s.turn f % 2 ^ n) (if imm then f.imm.toNat else u.srB s.turn f)))]

/-- The quotient of R65. -/
def divide (t : Nat) (x y : Int) : Int := if y = 0 then -1 else if intSigned t then Int.tdiv x y else x / y

/-- The remainder of R65. -/
def remainder (t : Nat) (x y : Int) : Int := if y = 0 then x else x - divide t x y * y

/-! ## 0x20 and 0x21 -/

/-- SADD (R103). -/
def execSadd (f : SR) (s : State) : Host.Outcome State Fault Refusal := s.uniInt f false (· + ·)
/-- SADD, immediate (R103). -/
def execSaddImm (f : SR) (s : State) : Host.Outcome State Fault Refusal := s.uniInt f true (· + ·)
/-- SSUB (R103). -/
def execSsub (f : SR) (s : State) : Host.Outcome State Fault Refusal := s.uniInt f false (· - ·)
/-- SSUB, immediate (R103). -/
def execSsubImm (f : SR) (s : State) : Host.Outcome State Fault Refusal := s.uniInt f true (· - ·)
/-- SMUL (R103). -/
def execSmul (f : SR) (s : State) : Host.Outcome State Fault Refusal := s.uniInt f false (· * ·)
/-- SMUL, immediate (R103). -/
def execSmulImm (f : SR) (s : State) : Host.Outcome State Fault Refusal := s.uniInt f true (· * ·)
/-- SMULH (R103): the high 64 bits of the exact product. -/
def execSmulh (f : SR) (s : State) : Host.Outcome State Fault Refusal := s.uniInt f false (fun a b => a * b / (2 ^ 64 : Nat))
/-- SMULH, immediate (R103). -/
def execSmulhImm (f : SR) (s : State) : Host.Outcome State Fault Refusal := s.uniInt f true (fun a b => a * b / (2 ^ 64 : Nat))
/-- SDIV (R65). -/
def execSdiv (f : SR) (s : State) : Host.Outcome State Fault Refusal := s.uniInt f false (divide f.t.toNat)
/-- SDIV, immediate (R65). -/
def execSdivImm (f : SR) (s : State) : Host.Outcome State Fault Refusal := s.uniInt f true (divide f.t.toNat)
/-- SREM (R65). -/
def execSrem (f : SR) (s : State) : Host.Outcome State Fault Refusal := s.uniInt f false (remainder f.t.toNat)
/-- SREM, immediate (R65). -/
def execSremImm (f : SR) (s : State) : Host.Outcome State Fault Refusal := s.uniInt f true (remainder f.t.toNat)
/-- SAND (R103). -/
def execSand (f : SR) (s : State) : Host.Outcome State Fault Refusal := s.uniBits f false (· &&& ·)
/-- SAND, immediate (R103). -/
def execSandImm (f : SR) (s : State) : Host.Outcome State Fault Refusal := s.uniBits f true (· &&& ·)
/-- SOR (R103). -/
def execSor (f : SR) (s : State) : Host.Outcome State Fault Refusal := s.uniBits f false (· ||| ·)
/-- SOR, immediate (R103). -/
def execSorImm (f : SR) (s : State) : Host.Outcome State Fault Refusal := s.uniBits f true (· ||| ·)
/-- SXOR (R103). -/
def execSxor (f : SR) (s : State) : Host.Outcome State Fault Refusal := s.uniBits f false (· ^^^ ·)
/-- SXOR, immediate (R103). -/
def execSxorImm (f : SR) (s : State) : Host.Outcome State Fault Refusal := s.uniBits f true (· ^^^ ·)
/-- SSHL (R105). -/
def execSshl (f : SR) (s : State) : Host.Outcome State Fault Refusal := s.uniShift f false (fun n a k => shiftLeft n a k)
/-- SSHL, immediate (R105). -/
def execSshlImm (f : SR) (s : State) : Host.Outcome State Fault Refusal := s.uniShift f true (fun n a k => shiftLeft n a k)
/-- SSHR (R105). -/
def execSshr (f : SR) (s : State) : Host.Outcome State Fault Refusal := s.uniShift f false (fun n a k => shiftRight n a k)
/-- SSHR, immediate (R105). -/
def execSshrImm (f : SR) (s : State) : Host.Outcome State Fault Refusal := s.uniShift f true (fun n a k => shiftRight n a k)
/-- SSRA (R105). -/
def execSsra (f : SR) (s : State) : Host.Outcome State Fault Refusal := s.uniShift f false shiftArith
/-- SSRA, immediate (R105). -/
def execSsraImm (f : SR) (s : State) : Host.Outcome State Fault Refusal := s.uniShift f true shiftArith
/-- SMIN (R103). -/
def execSmin (f : SR) (s : State) : Host.Outcome State Fault Refusal := s.uniInt f false min
/-- SMIN, immediate (R103). -/
def execSminImm (f : SR) (s : State) : Host.Outcome State Fault Refusal := s.uniInt f true min
/-- SMAX (R103). -/
def execSmax (f : SR) (s : State) : Host.Outcome State Fault Refusal := s.uniInt f false max
/-- SMAX, immediate (R103). -/
def execSmaxImm (f : SR) (s : State) : Host.Outcome State Fault Refusal := s.uniInt f true max

/-- A uniform compare into Q[qd] (R114). -/
def State.uniCmp (s : State) (f : SR) (imm : Bool) : Host.Outcome State Fault Refusal :=
  s.uni f fun u => qdResult f.qd.toNat
    (condOf f.sc.toNat (uniRead f.t.toNat (u.srA s.turn f)) (u.srSecond s.turn f imm))

/-- SCMP (R114). -/
def execScmp (f : SR) (s : State) : Host.Outcome State Fault Refusal := s.uniCmp f false
/-- SCMP, immediate (R114). -/
def execScmpImm (f : SR) (s : State) : Host.Outcome State Fault Refusal := s.uniCmp f true

/-- A uniform select, all 64 bits (R103). -/
def State.uniSel (s : State) (f : SR) (imm : Bool) : Host.Outcome State Fault Refusal :=
  s.uni f fun u => [(u.sd f, if u.g.rdQ s.turn 4 f.sc.toNat then BitVec.ofNat 64 (u.srA s.turn f)
    else BitVec.ofNat 64 (modBits 64 (u.srSecond s.turn f imm)))]

/-- SSEL (R103). -/
def execSsel (f : SR) (s : State) : Host.Outcome State Fault Refusal := s.uniSel f false
/-- SSEL, immediate (R103). -/
def execSselImm (f : SR) (s : State) : Host.Outcome State Fault Refusal := s.uniSel f true

/-! ## 0x22 -/

/-- SMOV (R103). -/
def execSmov (f : SR) (s : State) : Host.Outcome State Fault Refusal :=
  s.uni f fun u => [(u.sd f, BitVec.ofNat 64 (u.srA s.turn f))]

/-- SMOVI (R103). -/
def execSmovi (f : SR) (s : State) : Host.Outcome State Fault Refusal :=
  s.uni f fun u => [(u.sd f, BitVec.ofNat 64 (immOf f.t.toNat f.imm))]

/-- SBFX (R116). -/
def execSbfx (f : SR) (s : State) : Host.Outcome State Fault Refusal :=
  s.uni f fun u => [(u.sd f, uniResult f.t.toNat
    (bitExtract (uniWidth f.t.toNat) (intSigned f.t.toNat) (u.srA s.turn f) (u.srB s.turn f)))]

/-- SBFI (R116): b64. -/
def execSbfi (f : SR) (s : State) : Host.Outcome State Fault Refusal :=
  s.uni f fun u => [(u.sd f, BitVec.ofNat 64 (bitInsert 64 (u.srA s.turn f) (u.srB s.turn f) (u.srC s.turn f)))]

/-- SPOPC (R103, R104). -/
def execSpopc (f : SR) (s : State) : Host.Outcome State Fault Refusal :=
  s.uni f fun u => [(u.sd f, BitVec.ofNat 64 (countOnes (uniWidth f.t.toNat) (u.srA s.turn f)))]

/-- SCLZ (R103, R104). -/
def execSclz (f : SR) (s : State) : Host.Outcome State Fault Refusal :=
  s.uni f fun u => [(u.sd f, BitVec.ofNat 64 (countZeros (uniWidth f.t.toNat) (u.srA s.turn f)))]

/-! ## 0x23: labels -/

/-- The K register a field of 192 to 207 names (R106). -/
def kField (v : BitVec 8) : Nat := v.toNat - 192

/-- K[a] as read at issue. -/
def Issuer.kA (x : Issuer) (turn : Nat) (f : SR) : DWord := x.g.rdK turn 1 (kField f.sa)

/-- KSET (R107): a value with bit 63 set or DEPTH above 4 raises UNDEF, under the guard alone. -/
def execKset (f : SR) (s : State) : Host.Outcome State Fault Refusal := s.issue fun u =>
  if u.g.uniformGuard s.turn f.toCommon then
    let v : DWord := BitVec.ofNat 64 (u.srA s.turn f)
    if kLegal v then s.write u [(.k (kField f.sd), v)] else s.raise u causeUndef 0
  else s.advance u.g u.name

/-- KGET (R107). -/
def execKget (f : SR) (s : State) : Host.Outcome State Fault Refusal := s.uni f fun u => [(u.sd f, u.kA s.turn f)]

/-- KDEPTH (R107). -/
def execKdepth (f : SR) (s : State) : Host.Outcome State Fault Refusal :=
  s.uni f fun u => [(u.sd f, BitVec.ofNat 64 (kDepth (u.kA s.turn f)))]

/-- KPUSH's new value (R107); a full stack stays. -/
def kPush (k : DWord) (label : Nat) : DWord :=
  if kDepth k = 4 then k
  else BitVec.ofNat 64 ((kDepth k + 1) * 2 ^ 60 + bitsAt k.toNat 0 45 * 2 ^ 15 + label % 2 ^ 15)

/-- KPUSH (R107). -/
def execKpush (f : SR) (s : State) : Host.Outcome State Fault Refusal := s.uni f fun u =>
  let k := u.kA s.turn f
  (.k (kField f.sd), kPush k (u.srB s.turn f)) :: qdResult f.qd.toNat (kDepth k == 4)

/-- KPOP (R107). -/
def execKpop (f : SR) (s : State) : Host.Outcome State Fault Refusal := s.uni f fun u =>
  let k := u.kA s.turn f
  (.k (kField f.sd), if kDepth k = 0 then k else kPop k) :: qdResult f.qd.toNat (kDepth k == 0)

/-- KSWAP (R107). -/
def execKswap (f : SR) (s : State) : Host.Outcome State Fault Refusal := s.uni f fun u =>
  let k := u.kA s.turn f
  (.k (kField f.sd), if kDepth k = 0 then k else putField k 0 15 (u.srB s.turn f)) :: qdResult f.qd.toNat (kDepth k == 0)

end Sys2Proof.Machine
end

