-- ==== Sys2Proof/Machine/Dispatch.lean ====
section
/-! DEFINITION. Which meaning each instruction and event has: one arm per constructor, one direct call. -/
namespace Sys2Proof.Machine
open Sys2Proof

def exec (i : Instr) (s : State) : Host.Outcome State Fault Refusal :=
  match i with
  | .nop f => Sys2Proof.Machine.execNop f s
  | .exit f => Sys2Proof.Machine.execExit f s
  | .kill f => Sys2Proof.Machine.execKill f s
  | .trap f => Sys2Proof.Machine.execTrap f s
  | .eret f => Sys2Proof.Machine.execEret f s
  | .brk f => Sys2Proof.Machine.execBrk f s
  | .sleep f => Sys2Proof.Machine.execSleep f s
  | .pmark f => Sys2Proof.Machine.execPmark f s
  | .bra f => Sys2Proof.Machine.execBra f s
  | .brc f => Sys2Proof.Machine.execBrc f s
  | .brx f => Sys2Proof.Machine.execBrx f s
  | .call f => Sys2Proof.Machine.execCall f s
  | .callx f => Sys2Proof.Machine.execCallx f s
  | .ret f => Sys2Proof.Machine.execRet f s
  | .loops f => Sys2Proof.Machine.execLoops f s
  | .elect f => Sys2Proof.Machine.execElect f s
  | .voteOr f => Sys2Proof.Machine.execVoteOr f s
  | .voteAnd f => Sys2Proof.Machine.execVoteAnd f s
  | .voteMask f => Sys2Proof.Machine.execVoteMask f s
  | .voteSame f => Sys2Proof.Machine.execVoteSame f s
  | .voteRank f => Sys2Proof.Machine.execVoteRank f s
  | .rdsrV f => Sys2Proof.Machine.execRdsrV f s
  | .rdsrS f => Sys2Proof.Machine.execRdsrS f s
  | .wrsr f => Sys2Proof.Machine.execWrsr f s
  | .fmtset f => Sys2Proof.Machine.execFmtset f s
  | .fmtget f => Sys2Proof.Machine.execFmtget f s
  | .yield f => Sys2Proof.Machine.execYield f s
  | .sadd f => Sys2Proof.Machine.execSadd f s
  | .saddImm f => Sys2Proof.Machine.execSaddImm f s
  | .ssub f => Sys2Proof.Machine.execSsub f s
  | .ssubImm f => Sys2Proof.Machine.execSsubImm f s
  | .smul f => Sys2Proof.Machine.execSmul f s
  | .smulImm f => Sys2Proof.Machine.execSmulImm f s
  | .smulh f => Sys2Proof.Machine.execSmulh f s
  | .smulhImm f => Sys2Proof.Machine.execSmulhImm f s
  | .sdiv f => Sys2Proof.Machine.execSdiv f s
  | .sdivImm f => Sys2Proof.Machine.execSdivImm f s
  | .srem f => Sys2Proof.Machine.execSrem f s
  | .sremImm f => Sys2Proof.Machine.execSremImm f s
  | .sand f => Sys2Proof.Machine.execSand f s
  | .sandImm f => Sys2Proof.Machine.execSandImm f s
  | .sor f => Sys2Proof.Machine.execSor f s
  | .sorImm f => Sys2Proof.Machine.execSorImm f s
  | .sxor f => Sys2Proof.Machine.execSxor f s
  | .sxorImm f => Sys2Proof.Machine.execSxorImm f s
  | .sshl f => Sys2Proof.Machine.execSshl f s
  | .sshlImm f => Sys2Proof.Machine.execSshlImm f s
  | .sshr f => Sys2Proof.Machine.execSshr f s
  | .sshrImm f => Sys2Proof.Machine.execSshrImm f s
  | .ssra f => Sys2Proof.Machine.execSsra f s
  | .ssraImm f => Sys2Proof.Machine.execSsraImm f s
  | .smin f => Sys2Proof.Machine.execSmin f s
  | .sminImm f => Sys2Proof.Machine.execSminImm f s
  | .smax f => Sys2Proof.Machine.execSmax f s
  | .smaxImm f => Sys2Proof.Machine.execSmaxImm f s
  | .scmp f => Sys2Proof.Machine.execScmp f s
  | .scmpImm f => Sys2Proof.Machine.execScmpImm f s
  | .ssel f => Sys2Proof.Machine.execSsel f s
  | .sselImm f => Sys2Proof.Machine.execSselImm f s
  | .smov f => Sys2Proof.Machine.execSmov f s
  | .smovi f => Sys2Proof.Machine.execSmovi f s
  | .sbfx f => Sys2Proof.Machine.execSbfx f s
  | .sbfi f => Sys2Proof.Machine.execSbfi f s
  | .spopc f => Sys2Proof.Machine.execSpopc f s
  | .sclz f => Sys2Proof.Machine.execSclz f s
  | .kset f => Sys2Proof.Machine.execKset f s
  | .kget f => Sys2Proof.Machine.execKget f s
  | .kpush f => Sys2Proof.Machine.execKpush f s
  | .kpop f => Sys2Proof.Machine.execKpop f s
  | .kswap f => Sys2Proof.Machine.execKswap f s
  | .kdepth f => Sys2Proof.Machine.execKdepth f s
  | .iadd f => Sys2Proof.Machine.execIadd f s
  | .iaddImm f => Sys2Proof.Machine.execIaddImm f s
  | .isub f => Sys2Proof.Machine.execIsub f s
  | .isubImm f => Sys2Proof.Machine.execIsubImm f s
  | .imul f => Sys2Proof.Machine.execImul f s
  | .imulImm f => Sys2Proof.Machine.execImulImm f s
  | .imulh f => Sys2Proof.Machine.execImulh f s
  | .imad f => Sys2Proof.Machine.execImad f s
  | .imadw f => Sys2Proof.Machine.execImadw f s
  | .iaddc f => Sys2Proof.Machine.execIaddc f s
  | .ishl f => Sys2Proof.Machine.execIshl f s
  | .ishlImm f => Sys2Proof.Machine.execIshlImm f s
  | .ishr f => Sys2Proof.Machine.execIshr f s
  | .ishrImm f => Sys2Proof.Machine.execIshrImm f s
  | .isra f => Sys2Proof.Machine.execIsra f s
  | .israImm f => Sys2Proof.Machine.execIsraImm f s
  | .ishf f => Sys2Proof.Machine.execIshf f s
  | .iand f => Sys2Proof.Machine.execIand f s
  | .iandImm f => Sys2Proof.Machine.execIandImm f s
  | .ior f => Sys2Proof.Machine.execIor f s
  | .iorImm f => Sys2Proof.Machine.execIorImm f s
  | .ixor f => Sys2Proof.Machine.execIxor f s
  | .ixorImm f => Sys2Proof.Machine.execIxorImm f s
  | .ilop3 f => Sys2Proof.Machine.execIlop3 f s
  | .imin f => Sys2Proof.Machine.execImin f s
  | .iminImm f => Sys2Proof.Machine.execIminImm f s
  | .imax f => Sys2Proof.Machine.execImax f s
  | .imaxImm f => Sys2Proof.Machine.execImaxImm f s
  | .iabs f => Sys2Proof.Machine.execIabs f s
  | .icmp f => Sys2Proof.Machine.execIcmp f s
  | .isel f => Sys2Proof.Machine.execIsel f s
  | .ipopc f => Sys2Proof.Machine.execIpopc f s
  | .iclz f => Sys2Proof.Machine.execIclz f s
  | .ibrev f => Sys2Proof.Machine.execIbrev f s
  | .ibfx f => Sys2Proof.Machine.execIbfx f s
  | .ibfi f => Sys2Proof.Machine.execIbfi f s
  | .idot4 f => Sys2Proof.Machine.execIdot4 f s
  | .mov f => Sys2Proof.Machine.execMov f s
  | .movs f => Sys2Proof.Machine.execMovs f s
  | .prmt f => Sys2Proof.Machine.execPrmt f s
  | .lea f => Sys2Proof.Machine.execLea f s
  | .movi f => Sys2Proof.Machine.execMovi f s
  | .rdlane f => Sys2Proof.Machine.execRdlane f s
  | .shflIdx f => Sys2Proof.Machine.execShflIdx f s
  | .shflRot f => Sys2Proof.Machine.execShflRot f s
  | .shflShift f => Sys2Proof.Machine.execShflShift f s
  | .shflXor f => Sys2Proof.Machine.execShflXor f s
  | .xch f => Sys2Proof.Machine.execXch f s
  | .fadd f => Sys2Proof.Machine.execFadd f s
  | .faddImm f => Sys2Proof.Machine.execFaddImm f s
  | .fsub f => Sys2Proof.Machine.execFsub f s
  | .fsubImm f => Sys2Proof.Machine.execFsubImm f s
  | .fmul f => Sys2Proof.Machine.execFmul f s
  | .fmulImm f => Sys2Proof.Machine.execFmulImm f s
  | .ffma f => Sys2Proof.Machine.execFfma f s
  | .fmin f => Sys2Proof.Machine.execFmin f s
  | .fminImm f => Sys2Proof.Machine.execFminImm f s
  | .fmax f => Sys2Proof.Machine.execFmax f s
  | .fmaxImm f => Sys2Proof.Machine.execFmaxImm f s
  | .fcmp f => Sys2Proof.Machine.execFcmp f s
  | .fclass f => Sys2Proof.Machine.execFclass f s
  | .frnd f => Sys2Proof.Machine.execFrnd f s
  | .fscale f => Sys2Proof.Machine.execFscale f s
  | .fdot2 f => Sys2Proof.Machine.execFdot2 f s
  | .frcp f => Sys2Proof.Machine.execFrcp f s
  | .frsq f => Sys2Proof.Machine.execFrsq f s
  | .fsqrt f => Sys2Proof.Machine.execFsqrt f s
  | .fdiv f => Sys2Proof.Machine.execFdiv f s
  | .fexp2 f => Sys2Proof.Machine.execFexp2 f s
  | .flog2 f => Sys2Proof.Machine.execFlog2 f s
  | .fsin f => Sys2Proof.Machine.execFsin f s
  | .fcos f => Sys2Proof.Machine.execFcos f s
  | .ftanh f => Sys2Proof.Machine.execFtanh f s
  | .cvt f => Sys2Proof.Machine.execCvt f s
  | .cvtp f => Sys2Proof.Machine.execCvtp f s
  | .cvtb f => Sys2Proof.Machine.execCvtb f s
  | .cvtx f => Sys2Proof.Machine.execCvtx f s
  | .ld f => Sys2Proof.Machine.execLd f s
  | .ldSx f => Sys2Proof.Machine.execLdSx f s
  | .st f => Sys2Proof.Machine.execSt f s
  | .ldu f => Sys2Proof.Machine.execLdu f s
  | .lduSx f => Sys2Proof.Machine.execLduSx f s
  | .stu f => Sys2Proof.Machine.execStu f s
  | .prf f => Sys2Proof.Machine.execPrf f s
  | .mhint f => Sys2Proof.Machine.execMhint f s
  | .cctlInv f => Sys2Proof.Machine.execCctlInv f s
  | .cctlWb f => Sys2Proof.Machine.execCctlWb f s
  | .cctlInvall f => Sys2Proof.Machine.execCctlInvall f s
  | .lds f => Sys2Proof.Machine.execLds f s
  | .ldsSx f => Sys2Proof.Machine.execLdsSx f s
  | .sts f => Sys2Proof.Machine.execSts f s
  | .atomAdd f => Sys2Proof.Machine.execAtomAdd f s
  | .atomAnd f => Sys2Proof.Machine.execAtomAnd f s
  | .atomOr f => Sys2Proof.Machine.execAtomOr f s
  | .atomXor f => Sys2Proof.Machine.execAtomXor f s
  | .atomMinS f => Sys2Proof.Machine.execAtomMinS f s
  | .atomMaxS f => Sys2Proof.Machine.execAtomMaxS f s
  | .atomMinU f => Sys2Proof.Machine.execAtomMinU f s
  | .atomMaxU f => Sys2Proof.Machine.execAtomMaxU f s
  | .atomExch f => Sys2Proof.Machine.execAtomExch f s
  | .atomCas f => Sys2Proof.Machine.execAtomCas f s
  | .atomInc f => Sys2Proof.Machine.execAtomInc f s
  | .atomDec f => Sys2Proof.Machine.execAtomDec f s
  | .atomFadd f => Sys2Proof.Machine.execAtomFadd f s
  | .atomsAdd f => Sys2Proof.Machine.execAtomsAdd f s
  | .atomsAnd f => Sys2Proof.Machine.execAtomsAnd f s
  | .atomsOr f => Sys2Proof.Machine.execAtomsOr f s
  | .atomsXor f => Sys2Proof.Machine.execAtomsXor f s
  | .atomsMinS f => Sys2Proof.Machine.execAtomsMinS f s
  | .atomsMaxS f => Sys2Proof.Machine.execAtomsMaxS f s
  | .atomsMinU f => Sys2Proof.Machine.execAtomsMinU f s
  | .atomsMaxU f => Sys2Proof.Machine.execAtomsMaxU f s
  | .atomsExch f => Sys2Proof.Machine.execAtomsExch f s
  | .atomsCas f => Sys2Proof.Machine.execAtomsCas f s
  | .atomsInc f => Sys2Proof.Machine.execAtomsInc f s
  | .atomsDec f => Sys2Proof.Machine.execAtomsDec f s
  | .atomsFadd f => Sys2Proof.Machine.execAtomsFadd f s
  | .redAdd f => Sys2Proof.Machine.execRedAdd f s
  | .redAnd f => Sys2Proof.Machine.execRedAnd f s
  | .redOr f => Sys2Proof.Machine.execRedOr f s
  | .redXor f => Sys2Proof.Machine.execRedXor f s
  | .redMinS f => Sys2Proof.Machine.execRedMinS f s
  | .redMaxS f => Sys2Proof.Machine.execRedMaxS f s
  | .redMinU f => Sys2Proof.Machine.execRedMinU f s
  | .redMaxU f => Sys2Proof.Machine.execRedMaxU f s
  | .redFadd f => Sys2Proof.Machine.execRedFadd f s
  | .updIadd32 f => Sys2Proof.Machine.execUpdIadd32 f s
  | .updIadd64 f => Sys2Proof.Machine.execUpdIadd64 f s
  | .updFadd32 f => Sys2Proof.Machine.execUpdFadd32 f s
  | .updFadd64 f => Sys2Proof.Machine.execUpdFadd64 f s
  | .updSmax32 f => Sys2Proof.Machine.execUpdSmax32 f s
  | .updSmin32 f => Sys2Proof.Machine.execUpdSmin32 f s
  | .updZmax32 f => Sys2Proof.Machine.execUpdZmax32 f s
  | .updZmin32 f => Sys2Proof.Machine.execUpdZmin32 f s
  | .updFmax32 f => Sys2Proof.Machine.execUpdFmax32 f s
  | .updFmin32 f => Sys2Proof.Machine.execUpdFmin32 f s
  | .updAnd64 f => Sys2Proof.Machine.execUpdAnd64 f s
  | .updOr64 f => Sys2Proof.Machine.execUpdOr64 f s
  | .updXor64 f => Sys2Proof.Machine.execUpdXor64 f s
  | .fence f => Sys2Proof.Machine.execFence f s
  | .mxacq f => Sys2Proof.Machine.execMxacq f s
  | .mxacqPair f => Sys2Proof.Machine.execMxacqPair f s
  | .mxrel f => Sys2Proof.Machine.execMxrel f s
  | .mxrdy f => Sys2Proof.Machine.execMxrdy f s
  | .mma f => Sys2Proof.Machine.execMma f s
  | .mmab f => Sys2Proof.Machine.execMmab f s
  | .mxwait f => Sys2Proof.Machine.execMxwait f s
  | .mxrd f => Sys2Proof.Machine.execMxrd f s
  | .mxwr f => Sys2Proof.Machine.execMxwr f s
  | .mxzero f => Sys2Proof.Machine.execMxzero f s
  | .mxst f => Sys2Proof.Machine.execMxst f s
  | .mxtest f => Sys2Proof.Machine.execMxtest f s
  | .cpyLd f => Sys2Proof.Machine.execCpyLd f s
  | .cpySt f => Sys2Proof.Machine.execCpySt f s
  | .cpseal f => Sys2Proof.Machine.execCpseal f s
  | .cpwait f => Sys2Proof.Machine.execCpwait f s
  | .mcjoin f => Sys2Proof.Machine.execMcjoin f s
  | .mcleave f => Sys2Proof.Machine.execMcleave f s
  | .mcld f => Sys2Proof.Machine.execMcld f s
  | .bar f => Sys2Proof.Machine.execBar f s
  | .bara f => Sys2Proof.Machine.execBara f s
  | .barw f => Sys2Proof.Machine.execBarw f s
  | .boinit f => Sys2Proof.Machine.execBoinit f s
  | .boarr f => Sys2Proof.Machine.execBoarr f s
  | .bowait f => Sys2Proof.Machine.execBowait f s
  | .qinit f => Sys2Proof.Machine.execQinit f s
  | .qpush f => Sys2Proof.Machine.execQpush f s
  | .qpop f => Sys2Proof.Machine.execQpop f s
  | .waitc f => Sys2Proof.Machine.execWaitc f s
  | .waitw f => Sys2Proof.Machine.execWaitw f s
  | .rgrow f => Sys2Proof.Machine.execRgrow f s
  | .rshrink f => Sys2Proof.Machine.execRshrink f s
  | .launch f => Sys2Proof.Machine.execLaunch f s
  | .xchTimeout => Sys2Proof.Machine.execXchTimeout s
  | .mxOpRetire => Sys2Proof.Machine.execMxOpRetire s
  | .copyRequestDone => Sys2Proof.Machine.execCopyRequestDone s
  | .heldEntryEnter => Sys2Proof.Machine.execHeldEntryEnter s
  | .heldEntryTimer => Sys2Proof.Machine.execHeldEntryTimer s
  | .fillDelivery => Sys2Proof.Machine.execFillDelivery s
  | .watchWake => Sys2Proof.Machine.execWatchWake s
  | .waitwPoll => Sys2Proof.Machine.execWaitwPoll s
  | .waitwSaveThreshold => Sys2Proof.Machine.execWaitwSaveThreshold s
  | .sleepWake => Sys2Proof.Machine.execSleepWake s
  | .spillMoveDone => Sys2Proof.Machine.execSpillMoveDone s
  | .lineRefetch => Sys2Proof.Machine.execLineRefetch s
  | .loadReply => Sys2Proof.Machine.execLoadReply s
  | .storePerformed => Sys2Proof.Machine.execStorePerformed s
  | .spAccessDone => Sys2Proof.Machine.execSpAccessDone s
  | .atomReply => Sys2Proof.Machine.execAtomReply s
  | .redAck => Sys2Proof.Machine.execRedAck s
  | .prfAccept => Sys2Proof.Machine.execPrfAccept s
  | .tierLookup => Sys2Proof.Machine.execTierLookup s
  | .l2MissFill => Sys2Proof.Machine.execL2MissFill s
  | .tokenRequest => Sys2Proof.Machine.execTokenRequest s
  | .persistentRequest => Sys2Proof.Machine.execPersistentRequest s
  | .invalidationArrive => Sys2Proof.Machine.execInvalidationArrive s
  | .invalidationApply => Sys2Proof.Machine.execInvalidationApply s
  | .l1DirtyWriteback => Sys2Proof.Machine.execL1DirtyWriteback s
  | .directoryGrant => Sys2Proof.Machine.execDirectoryGrant s
  | .invalidationAck => Sys2Proof.Machine.execInvalidationAck s
  | .regionMerge => Sys2Proof.Machine.execRegionMerge s
  | .atomAtHome => Sys2Proof.Machine.execAtomAtHome s
  | .switchCombine => Sys2Proof.Machine.execSwitchCombine s
  | .decombine => Sys2Proof.Machine.execDecombine s
  | .lostsplit => Sys2Proof.Machine.execLostsplit s
  | .retired => Sys2Proof.Machine.execRetired s
  | .atomlost => Sys2Proof.Machine.execAtomlost s
  | .atomlostTimeout => Sys2Proof.Machine.execAtomlostTimeout s
  | .updOpen => Sys2Proof.Machine.execUpdOpen s
  | .lineClose => Sys2Proof.Machine.execLineClose s
  | .uCopyEvict => Sys2Proof.Machine.execUCopyEvict s
  | .maquetteTest => Sys2Proof.Machine.execMaquetteTest s
  | .blockRelease => Sys2Proof.Machine.execBlockRelease s
  | .queueDoorbell => Sys2Proof.Machine.execQueueDoorbell s
  | .queuePacketRead => Sys2Proof.Machine.execQueuePacketRead s
  | .queueErrClear => Sys2Proof.Machine.execQueueErrClear s
  | .hostdone => Sys2Proof.Machine.execHostdone s
  | .hostPacket => Sys2Proof.Machine.execHostPacket s
  | .copyPacket => Sys2Proof.Machine.execCopyPacket s
  | .dsqRead => Sys2Proof.Machine.execDsqRead s
  | .dsqValidTimeout => Sys2Proof.Machine.execDsqValidTimeout s
  | .blockPlace => Sys2Proof.Machine.execBlockPlace s
  | .affinityTimeout => Sys2Proof.Machine.execAffinityTimeout s
  | .saveRequest => Sys2Proof.Machine.execSaveRequest s
  | .blockSaved => Sys2Proof.Machine.execBlockSaved s
  | .blockResume => Sys2Proof.Machine.execBlockResume s
  | .gangReserve => Sys2Proof.Machine.execGangReserve s
  | .gangEvict => Sys2Proof.Machine.execGangEvict s
  | .gangTimeout => Sys2Proof.Machine.execGangTimeout s
  | .workComplete => Sys2Proof.Machine.execWorkComplete s
  | .contextActivate => Sys2Proof.Machine.execContextActivate s
  | .contextInvalidate => Sys2Proof.Machine.execContextInvalidate s
  | .contextRetire => Sys2Proof.Machine.execContextRetire s
  | .scorepadInterval => Sys2Proof.Machine.execScorepadInterval s
  | .verdictRetry => Sys2Proof.Machine.execVerdictRetry s
  | .verdictFail => Sys2Proof.Machine.execVerdictFail s
  | .verdictTimeout => Sys2Proof.Machine.execVerdictTimeout s
  | .hold => Sys2Proof.Machine.execHold s
  | .drain => Sys2Proof.Machine.execDrain s
  | .drainTimeout => Sys2Proof.Machine.execDrainTimeout s
  | .shoot => Sys2Proof.Machine.execShoot s
  | .write => Sys2Proof.Machine.execWrite s
  | .release => Sys2Proof.Machine.execRelease s
  | .force => Sys2Proof.Machine.execForce s
  | .inval => Sys2Proof.Machine.execInval s
  | .wbScan => Sys2Proof.Machine.execWbScan s
  | .storageWriteDone => Sys2Proof.Machine.execStorageWriteDone s
  | .controlResend => Sys2Proof.Machine.execControlResend s
  | .domdead => Sys2Proof.Machine.execDomdead s
  | .late => Sys2Proof.Machine.execLate s
  | .dieReset => Sys2Proof.Machine.execDieReset s
  | .dieEvacuated => Sys2Proof.Machine.execDieEvacuated s
  | .dieResetTimeout => Sys2Proof.Machine.execDieResetTimeout s
  | .egressWaitTimeout => Sys2Proof.Machine.execEgressWaitTimeout s
  | .flitCrcError => Sys2Proof.Machine.execFlitCrcError s
  | .linkRetrain => Sys2Proof.Machine.execLinkRetrain s
  | .linkdown => Sys2Proof.Machine.execLinkdown s
  | .linepoison => Sys2Proof.Machine.execLinepoison s
  | .pclr => Sys2Proof.Machine.execPclr s
  | .spmark => Sys2Proof.Machine.execSpmark s
  | .coldStart => Sys2Proof.Machine.execColdStart s
  | .warmStart => Sys2Proof.Machine.execWarmStart s
  | .moduleState => Sys2Proof.Machine.execModuleState s
  | .pdie => Sys2Proof.Machine.execPdie s
  | .clgate => Sys2Proof.Machine.execClgate s
  | .itripClear => Sys2Proof.Machine.execItripClear s
  | .thermalWarning => Sys2Proof.Machine.execThermalWarning s
  | .criticalThermalTrip => Sys2Proof.Machine.execCriticalThermalTrip s
  | .currentLimitTrip => Sys2Proof.Machine.execCurrentLimitTrip s
  | .spanPortEnable => Sys2Proof.Machine.execSpanPortEnable s
  | .revoke => Sys2Proof.Machine.execRevoke s
  | .revokeDeadline => Sys2Proof.Machine.execRevokeDeadline s
  | .flashPromote => Sys2Proof.Machine.execFlashPromote s
  | .versionReclaim => Sys2Proof.Machine.execVersionReclaim s
  | .info => Sys2Proof.Machine.execInfo s
  | .readlive => Sys2Proof.Machine.execReadlive s
  | .readret => Sys2Proof.Machine.execReadret s
  | .ack => Sys2Proof.Machine.execAck s
  | .totals => Sys2Proof.Machine.execTotals s
  | .health => Sys2Proof.Machine.execHealth s
  | .ceiling => Sys2Proof.Machine.execCeiling s
  | .setmodid => Sys2Proof.Machine.execSetmodid s
  | .start => Sys2Proof.Machine.execStart s
  | .mctpControl => Sys2Proof.Machine.execMctpControl s
  | .getVersion => Sys2Proof.Machine.execGetVersion s
  | .getCapabilities => Sys2Proof.Machine.execGetCapabilities s
  | .negotiateAlgorithms => Sys2Proof.Machine.execNegotiateAlgorithms s
  | .getDigests => Sys2Proof.Machine.execGetDigests s
  | .getCertificate => Sys2Proof.Machine.execGetCertificate s
  | .challenge => Sys2Proof.Machine.execChallenge s
  | .getMeasurements => Sys2Proof.Machine.execGetMeasurements s
  | .registerWrite => Sys2Proof.Machine.execRegisterWrite s
  | .mainPowerLoss => Sys2Proof.Machine.execMainPowerLoss s
  | .evacuationTimeout => Sys2Proof.Machine.execEvacuationTimeout s
  | .powerTransitionDone => Sys2Proof.Machine.execPowerTransitionDone s
  | .linkTrained => Sys2Proof.Machine.execLinkTrained s
  | .aDieAccess => Sys2Proof.Machine.execADieAccess s
  | .recoveryImageUpdate => Sys2Proof.Machine.execRecoveryImageUpdate s
  | .flashDemotion => Sys2Proof.Machine.execFlashDemotion s
  | .unsupportedRequest => Sys2Proof.Machine.execUnsupportedRequest s

end Sys2Proof.Machine
end

