-- ==== Sys2Proof/Machine/Step.lean ====
section
/-! DEFINITION. One step: the next move of the agenda, or of the free schedule (assumption 3). A move lets time pass, lets a
quadrant issue one instruction (R235), or brings about an event of the opcode table. -/
namespace Sys2Proof.Machine

/-- The step's turn is over: the next free value is another. -/
def State.turnOver (s : State) : State := { s with turn := s.turn + 1, args := [] }

/-- The outcome of an instruction a quadrant issued: its group's slots then meet their joins (R86). -/
def finishIssue (o : Host.Outcome State Fault Refusal) : Host.Outcome State Fault Refusal :=
  match o with
  | .next s => .next s.afterIssue.turnOver
  | .fault f => .fault f
  | .refused r => .refused r

/-- The outcome of an event: one that cannot come about in this state is passed over. -/
def finishEvent (before : State) (o : Host.Outcome State Fault Refusal) : Host.Outcome State Fault Refusal :=
  match o with
  | .next s => .next s.turnOver
  | .fault _ => .next before.turnOver
  | .refused r => .refused r

/-- The second of a pair, for the same issuer (R47). -/
def State.runPartner (before after : State) (p : Partner) : Host.Outcome State Fault Refusal :=
  match before.pairSecond after p with
  | none => finishIssue (.next after)
  | some (j, t) =>
    match exec j t with
    | .next r => finishIssue (.next (r.endPair (before.issuer.getD (0, .a)).1))
    | o => o

/-- Runs an instruction for the issuer named in the state, and its partner in the same ac. -/
def State.runIssue (s : State) (i : Instr) (p : Option Partner) : Host.Outcome State Fault Refusal :=
  match p, exec i s with
  | some q, .next t => s.runPartner t q
  | _, o => finishIssue o

/-- One quadrant's ac (R235): the ready slot of highest age issues, an instruction or a pair. -/
def State.issueFrom (s : State) (core q : Nat) : Host.Outcome State Fault Refusal :=
  if s.coreRuns core then
    match (s.ageQuad core q).quadTurn (s.issueOrder core q) with
    | .held s' => .next s'.turnOver
    | .ended s' => .next s'.turnOver
    | .run i p s' => s'.runIssue i p
  else .next s.turnOver

/-- Does a slot, parked until now, take a trap while the other slot is in trap mode? It takes none before ERET (R96). -/
def State.trapsLate (before after : State) (gid : Nat) (n : SlotName) : Bool :=
  match before.group? gid, after.group? gid with
  | some g, some h => (g.slot n.other).trap.isSome && (g.slot n).trap.isNone && (h.slot n).trap.isSome
  | _, _ => false

/-- An instruction that a slot is parked in goes on (R232). A verdict on a lookup of the slot's own that came while the other slot was in
trap mode is taken first (R96). -/
def State.resumeFrom (s : State) (gid : Nat) (n : SlotName) : Host.Outcome State Fault Refusal :=
  match s.group? gid with
  | none => .next s.turnOver
  | some g =>
    match s.lateVerdict g n with
    | some t => .next t.turnOver
    | none =>
      match s.slotResumes g n with
      | none => .next s.turnOver
      | some i =>
        match finishIssue (exec i { s with issuer := some (gid, n) }) with
        | .next t => .next (if s.trapsLate t gid n then s.turnOver else t)
        | o => o

/-- What one move does. -/
def State.move (s : State) (m : Move) : Host.Outcome State Fault Refusal :=
  match m with
  | .pass acs fc => .next (s.noteGangs.pass acs fc).turnOver
  | .quad core q => s.issueFrom core q
  | .resume gid n => s.resumeFrom gid n
  | .event i args => finishEvent s (exec i { s with args := args, issuer := none })

/-- One step of the machine. -/
def step (s : State) : Host.Outcome State Fault Refusal :=
  match s.agenda with
  | m :: rest => { s with agenda := rest }.move m
  | [] =>
    match Config.freeMove s.turn with
    | m :: rest => { s with agenda := rest }.move m
    | [] => .next s.turnOver

/-- The state with one instruction stored where step fetches next (assumption 6): its 96 bits in slot 0 of a one-line program
of a group alone on the first quadrant of core 0, which the next move lets issue. -/
def State.withFetchWord (s : State) (nbits w : Nat) : State :=
  { s.layProgram (w % 2 ^ nbits) with
    agenda := [.quad 0 0], groups := [fetchGroup], blocks := [fetchBlock], grids := [fetchGrid] }

end Sys2Proof.Machine
end

