-- ==== Sys2Proof/Safety.lean ====
section
/-! DEFINITION. What counts as a safe step and a sound state, and what an instruction may change, in the terms the claims use. -/
namespace Sys2Proof.Machine

/-- The canonical form of the stores that hold memory and the module's registers: equal contents are equal data. -/
def State.Canonical (s : State) : Prop := Memory.wf s.mem = true ∧ Sparse.wf s.mmio = true

/-- A step that goes on. -/
def goesOn (o : Host.Outcome State Fault Refusal) : Prop := ∃ t, o = .next t

/-- A state that the machine never stops in, whatever the schedule and the outside world do next: every step goes on. -/
def State.Safe (s : State) : Prop := goesOn (step s)

/-! ## Frames -/

/-- Cells that exist: 32 lanes (R8). -/
def Cell.valid : Cell → Prop
  | .v _ l | .p _ l => l < 32
  | _ => True

/-- A value cut to what a cell holds: 32 bits of V, one of P and Q, 64 of S and K. -/
def Cell.fit : Cell → DWord → DWord
  | .v _ _, x => (x.setWidth 32).setWidth 64
  | .p _ _, x | .q _, x => (x.setWidth 1).setWidth 64
  | _, x => x

/-- Nothing outside the groups changed, and of the groups only the one numbered `gid`. -/
structure GroupOnly (s t : State) (gid : Nat) : Prop where
  rest : { t with groups := s.groups } = s
  others : ∀ id, id ≠ gid → t.group? id = s.group? id
  memory : ∀ a, t.byte a = s.byte a
  registers : ∀ a, t.reg a = s.reg a

/-- A group with the registers of another, and what is pending on them. -/
def Group.registersOf (h g : Group) : Group :=
  { h with v := g.v, s := g.s, k := g.k, p := g.p, q := g.q, stale := g.stale, late := g.late, wrote := g.wrote }

/-- A group with the slots of another. -/
def Group.slotsOf (h g : Group) : Group := { h with a := g.a, b := g.b }

/-- Of a group only its registers and its issuing slot changed. -/
structure RegistersOnly (g h : Group) (n : SlotName) : Prop where
  rest : (h.registersOf g).slotsOf g = g
  other : h.slot n.other = g.slot n.other

/-- A register instruction's whole effect: the issuing slot goes to the next instruction, each register cell that `val` gives a
value holds it, every other cell holds what it held, and nothing else changed. -/
structure Wrote (s t : State) (u : Issuer) (val : Cell → Option DWord) : Prop where
  only : GroupOnly s t u.g.id
  group : ∃ h, t.group? u.g.id = some h ∧ RegistersOnly u.g h u.name ∧ h.slot u.name = u.slot.advance ∧
    ∀ c : Cell, c.valid → h.peek c = (val c).getD (u.g.peek c)

/-- No register is written. -/
def noVal : Cell → Option DWord := fun _ => none

/-- A value `n` V registers wide for each lane of a set, low register first (R27). -/
def laneVal (part : Mask) (d n : Nat) (v : Nat → Nat) : Cell → Option DWord
  | .v r l => if laneIn part l ∧ d ≤ r ∧ r < d + n then some (BitVec.ofNat 64 (v l / 2 ^ (32 * (r - d)) % 2 ^ 32)) else none
  | _ => none

/-- A predicate for each lane of a set; P7 takes none (R32). -/
def predVal (part : Mask) (pd : Nat) (v : Nat → Bool) : Cell → Option DWord
  | .p r l => if r = pd ∧ pd ≠ 7 ∧ laneIn part l then some (if v l then 1 else 0) else none
  | _ => none

/-- The value of one named cell. -/
def cellVal (c : Cell) (x : DWord) : Cell → Option DWord := fun c' => if c' = c then some x else none

/-- The results of both. -/
def both (f g : Cell → Option DWord) : Cell → Option DWord := fun c => (f c).or (g c)

/-- The group of the issuing slot becomes `h`; nothing else changes. -/
def Becomes (s t : State) (u : Issuer) (h : Group) : Prop := GroupOnly s t u.g.id ∧ t.group? u.g.id = some h

/-! ## Taking a trap -/

/-- A trap frame's twelve words (R31): PC, cause, $efault, the mask over the lanes, FMT, Q0 to Q3 with the slot in bit 8, $lclk, the
request tag, four zeros. -/
def frameWord (s : State) (u : Issuer) (cause : Nat) (efault : DWord) (lanes : Mask) (tag : DWord) (i : Nat) : DWord :=
  match i with
  | 0 => u.slot.pc.setWidth 64
  | 1 => BitVec.ofNat 64 cause
  | 2 => efault
  | 3 => u.slot.mask ++ lanes
  | 4 => u.slot.fmt.setWidth 64
  | 5 => BitVec.ofNat 64 ((u.g.peek (.q 0)).toNat + 2 * (u.g.peek (.q 1)).toNat + 4 * (u.g.peek (.q 2)).toNat + 8 * (u.g.peek (.q 3)).toNat +
      (if u.name = .b then 256 else 0))
  | 6 => (s.core u.g.core).lclk
  | 7 => tag
  | _ => 0

/-- The slot may take a trap: it is not in trap mode, and the launch has a trap entry PC (R100). -/
def mayTrap (s : State) (u : Issuer) : Prop := u.slot.trap = none ∧ (s.launch u.g).trapPc ≠ 0xFFFFFFFFFF

/-- Trap entry, whole (R96): the frame stands in the trap bank, the slot enters trap mode at the trap entry PC with its mask, depths,
PC and cause kept; no other register, no other slot, no memory and nothing else changes. -/
structure TrapEntry (s t : State) (u : Issuer) (cause : Nat) (efault : DWord) (lanes : Mask) (tag : DWord) : Prop where
  only : GroupOnly s t u.g.id
  group : ∃ h, t.group? u.g.id = some h ∧ RegistersOnly u.g h u.name ∧
    (∀ i, i < 12 → h.peek (.s (192 + i)) = frameWord s u cause efault lanes tag i) ∧
    (∀ c : Cell, c.valid → (∀ i, i < 12 → c ≠ .s (192 + i)) → h.peek c = u.g.peek c) ∧
    h.slot u.name = { u.slot with
      pc := (s.launch u.g).trapPc, wait := none, check := true, refetched := []
      trap := some { mask := u.slot.mask, rets := u.slot.rets.length, spills := u.slot.spill.length, pc := u.slot.pc, cause := cause } }

end Sys2Proof.Machine
end

