-- ==== Sys2Proof/Certificates/Slice0/Obligations.lean ====
section
/-! DEFINITION. The statements for the provers, each a def Obligations.<Name> : Prop, and the vocabulary they use. A value is said in
arithmetic of Lean's own integers and bit vectors, a frame in the terms of Safety. -/
namespace Sys2Proof.Claims
open Sys2Proof Sys2Proof.Machine

/-! ## Uniform values -/

/-- The 64-bit uniform types; the others are 32-bit (R104). -/
def uniWide (t : Nat) : Bool := !(t == 0 || t == 1 || t == 2)

/-- S[a] of a uniform instruction, whole. -/
def srcA (s : State) (u : Issuer) (f : SR) : DWord := u.g.rdS u.slot s.turn 1 f.sa.toNat

/-- S[b]. -/
def srcB (s : State) (u : Issuer) (f : SR) : DWord := u.g.rdS u.slot s.turn 2 f.sb.toNat

/-- S[c]. -/
def srcC (s : State) (u : Issuer) (f : SR) : DWord := u.g.rdS u.slot s.turn 3 f.sc.toNat

/-- The second source: S[b], or IMM32 extended by the type (R104). -/
def second (s : State) (u : Issuer) (f : SR) (imm : Bool) : DWord :=
  if imm then (if intSigned f.t.toNat then f.imm.signExtend 64 else f.imm.setWidth 64) else srcB s u f

/-- A 32-bit result in a 64-bit register: sign-extended for s32, zero-extended for z32 (R104). -/
def extended (t : Nat) (x : Word) : DWord := if intSigned t then x.signExtend 64 else x.setWidth 64

/-- An operation at the width of the type, on the low bits of its sources (R104). -/
def byWidth (t : Nat) (g : ∀ w, BitVec w → BitVec w → BitVec w) (a b : DWord) : DWord :=
  if uniWide t then g 64 a b else extended t (g 32 (a.setWidth 32) (b.setWidth 32))

/-- The instruction completes: under its guard one S register takes a value, else none does, and nothing else changes (R101). -/
def uniform (i : Instr) (f : SR) (v : State → Issuer → DWord) : Prop :=
  ∀ s u, s.issuer? = some u → ∃ t, exec i s = .next t ∧
    Wrote s t u (if u.g.uniformGuard s.turn f.toCommon then cellVal (.s (sName u.slot f.sd.toNat)) (v s u) else noVal)

/-- Both forms of a uniform instruction, for every legal type: register and immediate. -/
def uniform2 (reg imm : SR → Instr) (types : List Nat) (g : Nat → ∀ w, BitVec w → BitVec w → BitVec w) : Prop :=
  ∀ (f : SR) (b : Bool), types.contains f.t.toNat → uniform ((if b then imm else reg) f) f (fun s u =>
    byWidth f.t.toNat (g f.t.toNat) (srcA s u f) (second s u f b))

/-- Both forms of a uniform shift: the amount is the whole of S[b], or IMM32 zero-extended (R105). -/
def uniformShift (reg imm : SR → Instr) (g : ∀ w, BitVec w → Nat → BitVec w) : Prop :=
  ∀ (f : SR) (b : Bool), uniform ((if b then imm else reg) f) f (fun s u =>
    byWidth f.t.toNat (fun w x _ => g w x (if b then f.imm.toNat else (srcB s u f).toNat)) (srcA s u f) 0)

/-- The integer types of the uniform set: s32, z32, s64, z64. -/
def uniTypes : List Nat := [1, 2, 3, 4]

/-- A comparison of two values by the type's signedness (R114). -/
def compare (sg : Bool) {w : Nat} (code : Nat) (x y : BitVec w) : Bool :=
  match code with
  | 0 => x == y
  | 1 => x != y
  | 2 => if sg then x.slt y else x.ult y
  | 3 => if sg then x.sle y else x.ule y
  | 4 => if sg then y.slt x else y.ult x
  | _ => if sg then y.sle x else y.ule x

/-- A bit field of `len` bits at `pos` cut to the width (R116): position and length are the low two bytes of B. -/
def fieldLen (w : Nat) (b : Nat) : Nat := if w ≤ b % 256 then 0 else min (b / 256 % 256) (w - b % 256)

/-- Extract (R116). -/
def extractField (sg : Bool) {w : Nat} (x : BitVec w) (b : Nat) : BitVec w :=
  let y := x.extractLsb' (b % 256) (fieldLen w b)
  if sg then y.signExtend w else y.setWidth w

/-- Insert the low bits of `x` into `z` (R116). -/
def insertField {w : Nat} (x z : BitVec w) (b : Nat) : BitVec w :=
  let m := (BitVec.allOnes (fieldLen w b)).setWidth w <<< (b % 256)
  (z &&& ~~~m) ||| ((x <<< (b % 256)) &&& m)

/-- The group with its issuing slot parked in an instruction (R232). -/
def parked (s : State) (u : Issuer) (i : Instr) (ops : List Nat) (c : Cond) : Group :=
  let w : Wait := { instr := i, ops := ops, cond := c, done := false, turn := s.turn, fc := s.fc }
  u.g.setSlot u.name { u.slot with wait := some w }

end Sys2Proof.Claims

open Sys2Proof Sys2Proof.Machine Sys2Proof.Claims

/-- SADD, SSUB, SMUL, SMULH, SDIV, SREM, register and immediate forms, for every legal type: the S destination takes a + b, a − b, the low N bits
of a × b, the high 64 bits of the exact product, the truncated quotient and remainder by the type's signedness, all ones and the dividend for a zero
divisor (R65, R103, R104), under the guard (R101); nothing else changes. -/
def Obligations.UniformArithmetic : Prop :=
  (uniform2 .sadd .saddImm uniTypes (fun _ _ a b => a + b) ∧
   uniform2 .ssub .ssubImm uniTypes (fun _ _ a b => a - b) ∧
   uniform2 .smul .smulImm uniTypes (fun _ _ a b => a * b) ∧
   uniform2 .smulh .smulhImm [3, 4] (fun t w a b =>
     if intSigned t then ((a.signExtend (2 * w) * b.signExtend (2 * w)) >>> w).setWidth w
     else ((a.setWidth (2 * w) * b.setWidth (2 * w)) >>> w).setWidth w)) ∧
  (uniform2 .sdiv .sdivImm uniTypes (fun t w a b =>
     if b = 0 then BitVec.allOnes w else if intSigned t then a.sdiv b else a.udiv b) ∧
   uniform2 .srem .sremImm uniTypes (fun t _ a b =>
     if b = 0 then a else if intSigned t then a.srem b else a.umod b))

/-- SAND, SOR, SXOR, and the shifts SSHL, SSHR, SSRA, whose amount is not cut (R105); SMIN and SMAX by the type's signedness. -/
def Obligations.UniformLogicShiftsAndExtremes : Prop :=
  uniform2 .sand .sandImm uniTypes (fun _ _ a b => a &&& b) ∧
  uniform2 .sor .sorImm uniTypes (fun _ _ a b => a ||| b) ∧
  uniform2 .sxor .sxorImm uniTypes (fun _ _ a b => a ^^^ b) ∧
  uniformShift .sshl .sshlImm (fun _ a n => a <<< min n 64) ∧
  uniformShift .sshr .sshrImm (fun _ a n => a >>> min n 64) ∧
  uniformShift .ssra .ssraImm (fun _ a n => a.sshiftRight (min n 64)) ∧
  uniform2 .smin .sminImm uniTypes (fun t _ a b => if (if intSigned t then a.slt b else a.ult b) then a else b) ∧
  uniform2 .smax .smaxImm uniTypes (fun t _ a b => if (if intSigned t then a.slt b else a.ult b) then b else a)

/-- SCMP writes the comparison of R114 to Q[qd] and no S register; SSEL, SMOV, SMOVI copy whole registers or the extended
immediate; SBFX, SBFI take the field of R116; SPOPC and SCLZ count at the type's width (R103, R104). -/
def Obligations.UniformCompareMoveAndFields : Prop :=
  (∀ (f : SR) (b : Bool) s u, s.issuer? = some u → f.qd.toNat < 4 → ∃ t, exec ((if b then Instr.scmpImm else Instr.scmp) f) s = .next t ∧
    Wrote s t u (if u.g.uniformGuard s.turn f.toCommon then cellVal (.q f.qd.toNat)
      (if (if uniWide f.t.toNat then compare (intSigned f.t.toNat) f.sc.toNat (srcA s u f) (second s u f b)
        else compare (intSigned f.t.toNat) f.sc.toNat ((srcA s u f).setWidth 32) ((second s u f b).setWidth 32)) then 1 else 0) else noVal)) ∧
  (∀ (f : SR) (b : Bool), f.t.toNat = 3 → uniform ((if b then Instr.sselImm else Instr.ssel) f) f (fun s u =>
    if u.g.rdQ s.turn 4 f.sc.toNat then srcA s u f else second s u f b)) ∧
  (∀ f, uniform (.smov f) f (fun s u => srcA s u f)) ∧
  (∀ f : SR, f.t.toNat = 3 ∨ f.t.toNat = 4 → uniform (.smovi f) f (fun _ _ =>
    if f.t.toNat = 3 then f.imm.signExtend 64 else f.imm.setWidth 64)) ∧
  (∀ f : SR, uniform (.sbfx f) f (fun s u => byWidth f.t.toNat (fun _ x _ =>
    extractField (intSigned f.t.toNat) x (srcB s u f).toNat) (srcA s u f) 0)) ∧
  (∀ f : SR, uniform (.sbfi f) f (fun s u => insertField (srcA s u f) (srcC s u f) (srcB s u f).toNat)) ∧
  (∀ f : SR, f.t.toNat = 0 ∨ f.t.toNat = 20 → uniform (.spopc f) f (fun s u =>
    BitVec.ofNat 64 ((List.range (if f.t.toNat = 20 then 64 else 32)).countP (fun j => (srcA s u f).getLsbD j)))) ∧
  (∀ f : SR, f.t.toNat = 0 ∨ f.t.toNat = 20 → uniform (.sclz f) f (fun s u =>
    if f.t.toNat = 20 then (srcA s u f).clz else ((srcA s u f).setWidth 32).clz.setWidth 64))
namespace Sys2Proof.Claims

/-! ## Values of lanes -/

/-- The lanes an instruction works in: active, and its guard holds (R101). -/
def partOf (s : State) (u : Issuer) (f : Common) : Mask := u.g.participating u.slot s.turn f

/-- The instruction completes: each participating lane of D takes a value `n` registers wide, and nothing else changes. -/
def lanes (i : Instr) (f : VR) (n : Nat) (v : State → Issuer → Nat → Nat) : Prop :=
  ∀ s u, s.issuer? = some u → ∃ t, exec i s = .next t ∧ Wrote s t u (laneVal (partOf s u f.toCommon) f.d.toNat n (v s u))

/-- The same in the form with an immediate. -/
def lanesImm (i : Instr) (f : VI) (n : Nat) (v : State → Issuer → Nat → Nat) : Prop :=
  ∀ s u, s.issuer? = some u → ∃ t, exec i s = .next t ∧ Wrote s t u (laneVal (partOf s u f.toCommon) f.d.toNat n (v s u))

/-- A bit vector's value by signedness. -/
def valueOf (sg : Bool) {w : Nat} (x : BitVec w) : Int := if sg then x.toInt else (x.toNat : Int)

/-- An exact result at a width: clamped when saturating, else its low bits (R64). -/
def narrowed (w : Nat) (sg sat : Bool) (v : Int) : BitVec w :=
  let lo : Int := if sg then -2 ^ (w - 1) else 0
  let hi : Int := if sg then 2 ^ (w - 1) - 1 else 2 ^ w - 1
  BitVec.ofInt w (if sat then max lo (min v hi) else v)

/-- A narrow result extended to its lane (R63). -/
def toLane (sg : Bool) {w : Nat} (x : BitVec w) : Nat := if sg then (x.signExtend (max 32 w)).toNat else x.toNat

/-- An operation on exact values, by the type: per lane, or per byte of a packed type (R109). -/
def typed (t : Nat) (sat : Bool) (op : Nat → Int → Int → Int) (a b : Nat) : Nat :=
  let sg := intSigned t
  let el := fun (w : Nat) (x y : BitVec w) => narrowed w sg sat (op w (valueOf sg x) (valueOf sg y))
  if t = 18 ∨ t = 19 then
    let byte := fun (x j : Nat) => (BitVec.ofNat 32 x).extractLsb' (8 * j) 8
    (el 8 (byte a 3) (byte b 3) ++ el 8 (byte a 2) (byte b 2) ++ el 8 (byte a 1) (byte b 1) ++ el 8 (byte a 0) (byte b 0)).toNat
  else toLane sg (el (intWidth t) (BitVec.ofNat _ a) (BitVec.ofNat _ b))

/-- IMM32 as a lane value: sign-extended for s64, else as it stands (R102). -/
def immLane (t : Nat) (imm : Word) : Nat := if t = 3 then (imm.signExtend 64).toNat else imm.toNat

/-- A VR instruction of two typed sources, for the types of the table. -/
def typed2 (i : VR → Instr) (types : List Nat) (op : Nat → Int → Int → Int) : Prop :=
  ∀ f : VR, types.contains f.t.toNat → let n := typeRegs f.t.toNat
    lanes (i f) f n (fun s u l => typed f.t.toNat f.sat op (u.opA s.turn f n l) (u.opB s.turn f n l))

/-- Its VI form. -/
def typed2Imm (i : VI → Instr) (types : List Nat) (op : Nat → Int → Int → Int) : Prop :=
  ∀ f : VI, types.contains f.t.toNat → let n := typeRegs f.t.toNat
    lanesImm (i f) f n (fun s u l => typed f.t.toNat f.sat op (u.g.rdWide s.turn 1 f.a.toNat l n) (immLane f.t.toNat f.imm))

/-- The bits of a VR instruction's two sources, combined at 32 or 64 bits. -/
def bits2 (i : VR → Instr) (g : ∀ w, BitVec w → BitVec w → BitVec w) : Prop :=
  ∀ f : VR, f.t.toNat = 0 ∨ f.t.toNat = 20 → let n := typeRegs f.t.toNat
    lanes (i f) f n (fun s u l => (g (32 * n) (BitVec.ofNat _ (u.opA s.turn f n l)) (BitVec.ofNat _ (u.opB s.turn f n l))).toNat)

/-- Its VI form. -/
def bits2Imm (i : VI → Instr) (g : ∀ w, BitVec w → BitVec w → BitVec w) : Prop :=
  ∀ f : VI, f.t.toNat = 0 ∨ f.t.toNat = 20 → let n := typeRegs f.t.toNat
    lanesImm (i f) f n (fun s u l => (g (32 * n) (BitVec.ofNat _ (u.g.rdWide s.turn 1 f.a.toNat l n)) (BitVec.ofNat _ f.imm.toNat)).toNat)

/-- A vector shift: the amount is one z32, whatever the type (R111). -/
def shifts (i : VR → Instr) (j : VI → Instr) (types : List Nat) (g : ∀ w, BitVec w → Nat → BitVec w) : Prop :=
  (∀ f : VR, types.contains f.t.toNat → let n := typeRegs f.t.toNat
    lanes (i f) f n (fun s u l => (g (32 * n) (BitVec.ofNat _ (u.opA s.turn f n l)) (u.opB s.turn f 1 l)).toNat)) ∧
  (∀ f : VI, types.contains f.t.toNat → let n := typeRegs f.t.toNat
    lanesImm (j f) f n (fun s u l => (g (32 * n) (BitVec.ofNat _ (u.g.rdWide s.turn 1 f.a.toNat l n)) f.imm.toNat).toNat))

/-- An operation on the bits of A alone, at 32 or 64 bits. -/
def bits1 (i : VR → Instr) (g : ∀ w, BitVec w → Nat) : Prop :=
  ∀ f : VR, f.t.toNat = 0 ∨ f.t.toNat = 20 → let n := typeRegs f.t.toNat
    lanes (i f) f 1 (fun s u l => g (32 * n) (BitVec.ofNat _ (u.opA s.turn f n l)))

/-- A bit of a number. -/
def bitOf (x i : Nat) : Nat := if x.testBit i then 1 else 0

/-- A byte of PRMT's selection (R117): x is the eight bytes of A and C, n the selector. -/
def permuted (x : DWord) (n : BitVec 6) : Byte :=
  let y := x.extractLsb' (8 * (n.setWidth 3).toNat) 8
  let z : Byte := match (n.extractLsb' 3 2).toNat with
    | 0 => y
    | 1 => y.reverse
    | 2 => 0
    | _ => if y.msb then 255 else 0
  if n.getLsbD 5 then ~~~z else z

end Sys2Proof.Claims

/-- IADD, ISUB, IMUL, IMIN, IMAX (register and immediate forms), IMULH, IABS: exact, then clamped with SAT or cut to the type's
width and extended as R63 gives, per lane or per byte of a packed type (R109); IMAD, IMADW, IDOT4 add their third source (R109, R110, R117),
IADDC carries (R110), LEA forms the 48-bit address of R119; other lanes and everything else keep their values. -/
def Obligations.VectorArithmetic : Prop :=
  typed2 .iadd (arithTypes ++ packedTypes) (fun _ a b => a + b) ∧ typed2Imm .iaddImm (arithTypes ++ packedTypes) (fun _ a b => a + b) ∧
  typed2 .isub (arithTypes ++ packedTypes) (fun _ a b => a - b) ∧ typed2Imm .isubImm (arithTypes ++ packedTypes) (fun _ a b => a - b) ∧
  typed2 .imul arithTypes (fun _ a b => a * b) ∧ typed2Imm .imulImm arithTypes (fun _ a b => a * b) ∧
  typed2 .imin (arithTypes ++ packedTypes) (fun _ a b => min a b) ∧ typed2Imm .iminImm (arithTypes ++ packedTypes) (fun _ a b => min a b) ∧
  typed2 .imax (arithTypes ++ packedTypes) (fun _ a b => max a b) ∧ typed2Imm .imaxImm (arithTypes ++ packedTypes) (fun _ a b => max a b) ∧
  typed2 .imulh [1, 2, 3, 4] (fun w a b => (a * b).fdiv (2 ^ w)) ∧
  (∀ f : VR, [1, 3, 5, 7, 18].contains f.t.toNat → let n := typeRegs f.t.toNat
    lanes (.iabs f) f n (fun s u l => typed f.t.toNat f.sat (fun _ a _ => if a < 0 then -a else a) (u.opA s.turn f n l) 0)) ∧
  (∀ f : VR, arithTypes.contains f.t.toNat → let n := typeRegs f.t.toNat; let w := intWidth f.t.toNat; let sg := intSigned f.t.toNat
    lanes (.imad f) f n (fun s u l => toLane sg (narrowed w sg f.sat
      (valueOf sg (BitVec.ofNat w (u.opA s.turn f n l)) * valueOf sg (BitVec.ofNat w (u.opB s.turn f n l)) + valueOf sg (BitVec.ofNat w (u.opC s.turn f n l)))))) ∧
  (∀ f : VR, f.t.toNat = 1 ∨ f.t.toNat = 2 → let ext := fun x : Nat => if f.t.toNat = 1 then (BitVec.ofNat 32 x).signExtend 64 else (BitVec.ofNat 32 x).setWidth 64
    lanes (.imadw f) f 2 (fun s u l => (ext (u.opA s.turn f 1 l) * ext (u.opB s.turn f 1 l) + BitVec.ofNat 64 (u.opC s.turn f 2 l)).toNat)) ∧
  (∀ (f : VR) s u, s.issuer? = some u → let part := partOf s u f.toCommon
    let sum := fun l => (BitVec.ofNat 33 (u.opA s.turn f 1 l)) + BitVec.ofNat 33 (u.opB s.turn f 1 l) +
      (if f.c.toNat ≠ 7 ∧ u.g.rdP s.turn 3 f.c.toNat l then 1 else 0)
    ∃ t, exec (.iaddc f) s = .next t ∧ Wrote s t u (both (laneVal part f.d.toNat 1 (fun l => ((sum l).setWidth 32).toNat))
      (predVal part f.pd.toNat (fun l => (sum l).msb)))) ∧
  (∀ f : VR, f.t.toNat = 18 ∨ f.t.toNat = 19 → let sg := f.t.toNat == 18
    lanes (.idot4 f) f 1 (fun s u l =>
      let e := fun (x j : Nat) => valueOf sg ((BitVec.ofNat 32 x).extractLsb' (8 * j) 8)
      let a := u.opA s.turn f 1 l; let b := u.opB s.turn f 1 l
      (narrowed 32 sg f.sat (valueOf sg (BitVec.ofNat 32 (u.opC s.turn f 1 l)) +
        e a 0 * e b 0 + e a 1 * e b 1 + e a 2 * e b 2 + e a 3 * e b 3)).toNat)) ∧
  (∀ f : VR, f.t.toNat = 1 ∨ f.t.toNat = 2 → lanes (.lea f) f 2 (fun s u l =>
    let e := BitVec.ofNat 32 (u.opB s.turn f 1 l)
    (BitVec.ofNat 48 (u.opA s.turn f 2 l) + (if f.t.toNat = 1 then e.signExtend 48 else e.setWidth 48) <<< f.rm.toNat).toNat))

/-- The vector shifts (R111), IAND, IOR, IXOR in both forms (R108), ISHF (R111), ILOP3 (R112), IPOPC, ICLZ and IBREV (R113). -/
def Obligations.VectorShiftsAndBits : Prop :=
  shifts .ishl .ishlImm [2, 4] (fun _ a n => a <<< min n 64) ∧ shifts .ishr .ishrImm [2, 4] (fun _ a n => a >>> min n 64) ∧
  shifts .isra .israImm [1, 3] (fun _ a n => a.sshiftRight (min n 64)) ∧
  bits2 .iand (fun _ a b => a &&& b) ∧ bits2Imm .iandImm (fun _ a b => a &&& b) ∧
  bits2 .ior (fun _ a b => a ||| b) ∧ bits2Imm .iorImm (fun _ a b => a ||| b) ∧
  bits2 .ixor (fun _ a b => a ^^^ b) ∧ bits2Imm .ixorImm (fun _ a b => a ^^^ b) ∧
  (∀ f : VR, lanes (.ishf f) f 1 (fun s u l =>
    (((BitVec.ofNat 32 (u.opC s.turn f 1 l) ++ BitVec.ofNat 32 (u.opA s.turn f 1 l)) >>> min (u.opB s.turn f 1 l) 64).setWidth 32).toNat)) ∧
  (∀ f : VR, f.t.toNat = 0 ∨ f.t.toNat = 20 → let n := typeRegs f.t.toNat
    lanes (.ilop3 f) f n (fun s u l => ((List.range (32 * n)).map (fun i => 2 ^ i * bitOf f.u.toNat
      (bitOf (u.opA s.turn f n l) i + 2 * bitOf (u.opB s.turn f n l) i + 4 * bitOf (u.opC s.turn f n l) i))).sum)) ∧
  bits1 .ipopc (fun w x => (List.range w).countP (fun j => x.getLsbD j)) ∧
  bits1 .iclz (fun _ x => x.clz.toNat) ∧
  (∀ f : VR, f.t.toNat = 0 ∨ f.t.toNat = 20 → let n := typeRegs f.t.toNat
    lanes (.ibrev f) f n (fun s u l => (BitVec.ofNat (32 * n) (u.opA s.turn f n l)).reverse.toNat))

/-- ICMP writes PD in each participating lane (R114); ISEL chooses whole values (R115); IBFX, IBFI take the field of R116; PRMT
chooses bytes (R117); MOV, MOVS, MOVI copy (R118). -/
def Obligations.VectorCompareFieldsAndMoves : Prop :=
  (∀ (f : VR) s u, s.issuer? = some u → arithTypes.contains f.t.toNat → let n := typeRegs f.t.toNat; let w := intWidth f.t.toNat
    ∃ t, exec (.icmp f) s = .next t ∧ Wrote s t u (predVal (partOf s u f.toCommon) f.pd.toNat (fun l =>
      compare (intSigned f.t.toNat) f.rm.toNat (BitVec.ofNat w (u.opA s.turn f n l)) (BitVec.ofNat w (u.opB s.turn f n l))))) ∧
  (∀ f : VR, let n := typeRegs f.t.toNat
    lanes (.isel f) f n (fun s u l => if u.g.rdP s.turn 3 f.c.toNat l then u.opA s.turn f n l else u.opB s.turn f n l)) ∧
  (∀ f : VR, let n := typeRegs f.t.toNat
    lanes (.ibfx f) f n (fun s u l =>
      (extractField (intSigned f.t.toNat) (BitVec.ofNat (32 * n) (u.opA s.turn f n l)) (u.opB s.turn f n l)).toNat)) ∧
  (∀ f : VR, let n := typeRegs f.t.toNat
    lanes (.ibfi f) f n (fun s u l => (insertField (BitVec.ofNat (32 * n) (u.opA s.turn f n l)) (BitVec.ofNat (32 * n) (u.opC s.turn f n l))
      (u.opB s.turn f n l)).toNat)) ∧
  (∀ f : VR, lanes (.prmt f) f 1 (fun s u l =>
    let x := BitVec.ofNat 32 (u.opC s.turn f 1 l) ++ BitVec.ofNat 32 (u.opA s.turn f 1 l)
    let sel := fun j => (BitVec.ofNat 32 (u.opB s.turn f 1 l)).extractLsb' (6 * j) 6
    (permuted x (sel 3) ++ permuted x (sel 2) ++ permuted x (sel 1) ++ permuted x (sel 0)).toNat)) ∧
  (∀ f : VR, let n := typeRegs f.t.toNat
    lanes (.mov f) f n (fun s u l => u.g.rdWide s.turn 1 f.a.toNat l n)) ∧
  (∀ f : VR, f.t.toNat = 0 ∨ f.t.toNat = 20 → lanes (.movs f) f (typeRegs f.t.toNat) (fun s u _ =>
    if f.t.toNat = 0 then (u.g.rdS u.slot s.turn 2 f.u.toNat).toNat % 2 ^ 32 else (u.g.rdS u.slot s.turn 2 f.u.toNat).toNat)) ∧
  (∀ f : VI, lanesImm (.movi f) f (typeRegs f.t.toNat) (fun _ _ _ => immLane f.t.toNat f.imm))
namespace Sys2Proof.Claims

/-- DEPTH of a label stack: bits 62 to 60 (R33). -/
def depthOf (k : DWord) : Nat := (k.extractLsb' 60 3).toNat

/-- A Q result: none for 7. -/
def qVal (qd : Nat) (b : Bool) : Cell → Option DWord := if qd = 7 then noVal else cellVal (.q qd) (if b then 1 else 0)

/-- A label instruction that writes K[d] and Q[qd] from k = K[a] and S[b] (R107): under its guard these two alone change. -/
def label (i : Instr) (f : SR) (v : DWord → DWord → DWord) (full : DWord → Bool) : Prop :=
  ∀ s u, s.issuer? = some u → let k := u.g.rdK s.turn 1 (f.sa.toNat - 192)
    ∃ t, exec i s = .next t ∧ Wrote s t u (if u.g.uniformGuard s.turn f.toCommon then
      both (cellVal (.k (f.sd.toNat - 192)) (if full k then k else v k (srcB s u f))) (qVal f.qd.toNat (full k)) else noVal)

/-- An instruction that raises a precise trap for all its slot's lanes, with no request. -/
def raises (i : Instr) (s : State) (u : Issuer) (cause : Nat) (efault : DWord) : Prop :=
  ∃ t, exec i s = .next t ∧ TrapEntry s t u cause efault u.slot.mask 0

end Sys2Proof.Claims

/-- KSET, KGET, KDEPTH, KPUSH, KPOP and KSWAP (R107), in every field the table allows; an illegal value raises UNDEF, under the
guard alone. -/
def Obligations.LabelInstructions : Prop :=
  (∀ (f : SR) s u, s.issuer? = some u → let v := srcA s u f
    (v.msb = true ∨ 4 < depthOf v → u.g.uniformGuard s.turn f.toCommon → mayTrap s u → raises (.kset f) s u 1 0) ∧
    (v.msb = false ∧ depthOf v ≤ 4 ∨ ¬ u.g.uniformGuard s.turn f.toCommon → ∃ t, exec (.kset f) s = .next t ∧
      Wrote s t u (if u.g.uniformGuard s.turn f.toCommon then cellVal (.k (f.sd.toNat - 192)) v else noVal))) ∧
  (∀ f : SR, uniform (.kget f) f (fun s u => u.g.rdK s.turn 1 (f.sa.toNat - 192))) ∧
  (∀ f : SR, uniform (.kdepth f) f (fun s u => BitVec.ofNat 64 (depthOf (u.g.rdK s.turn 1 (f.sa.toNat - 192))))) ∧
  (∀ f : SR, label (.kpush f) f (fun k b => BitVec.ofNat 4 (depthOf k + 1) ++ k.extractLsb' 0 45 ++ b.extractLsb' 0 15) (fun k => depthOf k == 4)) ∧
  (∀ f : SR, label (.kpop f) f (fun k _ => BitVec.ofNat 4 (depthOf k - 1) ++ 0#15 ++ k.extractLsb' 15 45) (fun k => depthOf k == 0)) ∧
  (∀ f : SR, label (.kswap f) f (fun k b => k.extractLsb' 15 49 ++ b.extractLsb' 0 15) (fun k => depthOf k == 0))

/-- What a read of a register gives (R14, R59): the value the register holds, or one it held before a result still pending; only the former once
nothing is pending on it, which a marker brings about for the results issued for its lanes. How a vector instruction reads its sources (R27, R102), with
nothing pending: a lane's register, pair or quad, low register first; with BU or CU the value of U, the same in every lane, 32 bits of it for a narrow
type. -/
def Obligations.ReadsOfRegisters : Prop :=
  ((∀ (g : Group) turn port c, g.read turn port c = g.peek c ∨ ∃ e ∈ g.stale, e.cell = c ∧ g.read turn port c = e.old) ∧
   (∀ (g : Group) turn port c, (∀ e ∈ g.stale, e.cell ≠ c) → g.read turn port c = g.peek c) ∧
   (∀ (g : Group) (m : Mask), (∀ c, (g.mark m).peek c = g.peek c) ∧ ∀ e, e ∈ (g.mark m).stale ↔ e ∈ g.stale ∧ e.lanes &&& m = 0)) ∧
  (∀ (u : Issuer) turn (f : VR) n l, u.g.stale = [] →
     (∀ r, u.g.rdWide turn 1 r l n = ((List.range n).map (fun i => (u.g.peek (.v (r + i) l)).toNat * 2 ^ (32 * i))).sum) ∧
     u.opA turn f n l = u.g.rdWide turn 1 f.a.toNat l n ∧
     (let x := (u.g.peek (.s (sName u.slot f.u.toNat))).toNat
      u.opB turn f n l = (if f.bu then (if n = 1 then x % 2 ^ 32 else x) else u.g.rdWide turn 1 f.b.toNat l n) ∧
      u.opC turn f n l = (if f.cu then (if n = 1 then x % 2 ^ 32 else x) else u.g.rdWide turn 1 f.c.toNat l n)))
namespace Sys2Proof.Claims

/-- The source lane of a SHFL (R121): segments of W lanes; `kind` is idx, rot, shift, xor. -/
def shuffleSource (kind w l : Nat) (b : Word) : Option Nat :=
  let base := l / w * w
  match kind with
  | 0 => some (base + b.toNat % w)
  | 1 => some (base + (l % w + b.toNat) % w)
  | 2 => if (base : Int) ≤ l + b.toInt ∧ l + b.toInt < base + w then some (l + b.toInt).toNat else none
  | _ => some (l ^^^ (b.toNat % w))

/-- The lanes of a set below a number, in which P[a] is true. -/
def votes (s : State) (u : Issuer) (part : Mask) (a k : Nat) : List Nat :=
  (List.range k).filter (fun l => part.getLsbD l && u.g.rdP s.turn 0 a l)

/-- A query that writes one predicate in each participating lane. -/
def queryP (i : Instr) (f : VR) (v : State → Issuer → Nat → Bool) : Prop :=
  ∀ s u, s.issuer? = some u → f.pd.toNat ≠ 7 → ∃ t, exec i s = .next t ∧ Wrote s t u (predVal (partOf s u f.toCommon) f.pd.toNat (v s u))

/-- The special registers of R35 and R36 but the trap registers: number and value in a lane. -/
def specials (s : State) (u : Issuer) (l : Nat) : List (Nat × DWord) :=
  let g := u.g
  [(0x00, BitVec.ofNat 64 l), (0x01, BitVec.ofNat 64 g.grp), (0x02, BitVec.ofNat 64 (g.core % 4)), (0x03, BitVec.ofNat 64 (g.core / 4 % 8)),
   (0x04, BitVec.ofNat 64 (g.core / 32 % 4)), (0x05, BitVec.ofNat 64 (g.core / 128)), (0x06, s.reg 0x2000 &&& 0x3FF), (0x07, BitVec.ofNat 64 g.cid),
   (0x08, (s.die (g.core / 128)).clock), (0x09, (s.core g.core).lclk), (0x0A, u.slot.fmt.setWidth 64), (0x0B, (s.core g.core).featm.setWidth 64),
   (0x10, BitVec.ofNat 64 l), (0x18, 32)] ++
  (List.range 7).map (fun i => (0x11 + i, BitVec.ofNat 64 (g.lvlIdx.getD (i + 1) 0))) ++
  (List.range 7).map (fun i => (0x19 + i, BitVec.ofNat 64 (g.lvlDim.getD (i + 1) 1)))

/-- The value of a special register in a lane. -/
def specialOf (s : State) (u : Issuer) (l n : Nat) : Option DWord := (specials s u l).lookup n

/-- What an XCH parks with (R122): the partner's place, the participating lanes, A in every lane. -/
def xchWait (s : State) (u : Issuer) (f : VR) (core grp : Nat) : Wait :=
  { instr := .xch f, cond := .event, done := false, turn := s.turn, fc := s.fc
    ops := [core, grp, (partOf s u f.toCommon).toNat] ++ (List.range 32).map (fun l => u.g.rdWide s.turn 1 f.a.toNat l (typeRegs f.t.toNat)) }

/-- FMT values that are legal: bits 31 to 20 zero, the rounding code at most 5 (R34). -/
def fmtOk (w : Word) : Prop := w.extractLsb' 20 12 = 0 ∧ (w.extractLsb' 15 3).toNat ≤ 5

end Sys2Proof.Claims

/-- ELECT, VOTE.or, VOTE.and, VOTE.same, VOTE.mask, VOTE.rank (R90): each participating lane takes the value over the participating lanes. RDLANE and
the four SHFLs (R121): the value of the source lane as it stood, or the fill C, with the predicate that tells which. Nothing else changes. -/
def Obligations.LanesTogether : Prop :=
  ((∀ f : VR, queryP (.elect f) f (fun s u l => (List.range l).all (fun k => !(partOf s u f.toCommon).getLsbD k))) ∧
   (∀ f : VR, queryP (.voteOr f) f (fun s u _ => !(votes s u (partOf s u f.toCommon) f.a.toNat 32).isEmpty)) ∧
   (∀ f : VR, queryP (.voteAnd f) f (fun s u _ =>
     (List.range 32).all (fun k => !(partOf s u f.toCommon).getLsbD k || u.g.rdP s.turn 0 f.a.toNat k))) ∧
   (∀ f : VR, f.t.toNat = 0 ∨ f.t.toNat = 20 → queryP (.voteSame f) f (fun s u _ =>
     let part := partOf s u f.toCommon
     let v := fun k => u.g.rdWide s.turn 0 f.a.toNat k (typeRegs f.t.toNat)
     (List.range 32).all (fun j => (List.range 32).all (fun k => !part.getLsbD j || !part.getLsbD k || v j == v k)))) ∧
   (∀ f : VR, lanes (.voteMask f) f 1 (fun s u _ => ((votes s u (partOf s u f.toCommon) f.a.toNat 32).map (fun k => 2 ^ k)).sum)) ∧
   (∀ f : VR, lanes (.voteRank f) f 1 (fun s u l => (votes s u (partOf s u f.toCommon) f.a.toNat l).length))) ∧
  ((∀ (f : VR) s u, s.issuer? = some u → let n := typeRegs f.t.toNat; let part := partOf s u f.toCommon
     let j := ((u.g.rdS u.slot s.turn 2 f.u.toNat).setWidth 5).toNat
     ∃ t, exec (.rdlane f) s = .next t ∧ Wrote s t u (both (laneVal part f.d.toNat n (fun _ => u.g.rdWide s.turn 1 f.a.toNat j n))
       (predVal part f.pd.toNat (fun _ => part.getLsbD j)))) ∧
   (∀ (kind : Fin 4) (f : VR) s u, s.issuer? = some u → f.rm.toNat ≤ 4 → let n := typeRegs f.t.toNat; let part := partOf s u f.toCommon
     let i := ([Instr.shflIdx, Instr.shflRot, Instr.shflShift, Instr.shflXor].getD kind.val Instr.shflIdx) f
     let src := fun l => (shuffleSource kind.val (32 / 2 ^ f.rm.toNat) l (BitVec.ofNat 32 (u.opB s.turn f 1 l))).filter (fun j => part.getLsbD j)
     ∃ t, exec i s = .next t ∧ Wrote s t u (both
       (laneVal part f.d.toNat n (fun l => match src l with | some j => u.g.rdWide s.turn 1 f.a.toNat j n | none => u.opC s.turn f n l))
       (predVal part f.pd.toNat (fun l => (src l).isSome)))))

/-- XCH as it issues (R122): a reserved bit or a GRP above 95 raises UNDEF; with nobody at the named place it completes at once, D := A
and PD false; toward a partner that is not parked in an XCH the slot parks; toward one parked in an XCH of the same T for this group both
complete together, each lane of both taking the other's A with PD true. -/
def Obligations.ExchangeOutcomes : Prop :=
  ∀ (f : VR) s u, s.issuer? = some u → u.slot.wait = none → let n := typeRegs f.t.toNat; let part := partOf s u f.toCommon
    let w := u.g.rdS u.slot s.turn 2 f.u.toNat
    let core := u.g.core / 128 * 128 + u.g.core / 32 % 4 * 32 + (w.extractLsb' 0 3).toNat * 4 + (w.extractLsb' 3 2).toNat
    let grp := (w.extractLsb' 5 7).toNat
    let partner := s.groups.find? (fun x => x.core == core && x.grp == grp && x.cid == u.g.cid && x.life == .resident && x.id != u.g.id)
    let own := fun l => u.g.rdWide s.turn 1 f.a.toNat l n
    (w >>> 12 ≠ 0 ∨ 95 < grp → mayTrap s u → raises (.xch f) s u 1 0) ∧
    (w >>> 12 = 0 → grp ≤ 95 → partner = none → ∃ t, exec (.xch f) s = .next t ∧
      Wrote s t u (both (laneVal part f.d.toNat n own) (predVal part f.pd.toNat (fun _ => false)))) ∧
    (∀ p, w >>> 12 = 0 → grp ≤ 95 → partner = some p → p.a.wait = none → p.b.wait = none → ∃ t, exec (.xch f) s = .next t ∧
      Becomes s t u (u.g.setSlot u.name { u.slot with wait := some (xchWait s u f core grp) })) ∧
    (∀ p x f', w >>> 12 = 0 → grp ≤ 95 → partner = some p → p.a.wait = some x → p.b.wait = none → x.instr = .xch f' → f'.t = f.t →
      x.done = false → x.ops.take 2 = [u.g.core, u.g.grp] → s.groupIssues p →
      p.a.advance.arriving = false → p.b.arriving = false →
      let m : Mask := BitVec.ofNat 32 (x.ops.getD 2 0); let theirs := fun l => x.ops.getD (3 + l) 0
      ∃ t, exec (.xch f) s = .next t ∧
        (∃ h, t.group? u.g.id = some h ∧ RegistersOnly u.g h u.name ∧ h.slot u.name = u.slot.advance ∧
          ∀ c : Cell, c.valid → h.peek c = (both (laneVal part f.d.toNat n (fun l => if m.getLsbD l then theirs l else own l))
            (predVal part f.pd.toNat (fun l => m.getLsbD l)) c).getD (u.g.peek c)) ∧
        (∃ h, t.group? p.id = some h ∧ RegistersOnly p h .a ∧ h.a = p.a.advance ∧
          ∀ c : Cell, c.valid → h.peek c = (both (laneVal m f'.d.toNat n (fun l => if part.getLsbD l then own l else theirs l))
            (predVal m f'.pd.toNat (fun l => part.getLsbD l)) c).getD (p.peek c)) ∧
        (∀ i, i ≠ u.g.id → i ≠ p.id → t.group? i = s.group? i) ∧ { t with groups := s.groups } = s)

/-- RDSR, WRSR, FMTSET and FMTGET (R91, R92): every special register by its number; the trap registers in trap mode; an illegal FMT, or
a trap register written outside trap mode, raises UNDEF. -/
def Obligations.SpecialRegisters : Prop :=
  (∀ (f : EF) s u, s.issuer? = some u → (specialOf s u 0 f.u.toNat).isSome →
    ∃ t, exec (.rdsrV f) s = .next t ∧ Wrote s t u (laneVal (partOf s u f.toCommon) f.d.toNat 1 (fun l =>
      (((specialOf s u l f.u.toNat).getD 0).setWidth 32).toNat))) ∧
  (∀ (f : EF) s u, s.issuer? = some u → (specialOf s u 0 f.u.toNat).isSome →
    ∃ t, exec (.rdsrS f) s = .next t ∧ Wrote s t u (cellVal (.s (sName u.slot f.d.toNat)) ((specialOf s u 0 f.u.toNat).getD 0))) ∧
  (∀ (f : EF) (i : Nat) s u, s.issuer? = some u → i < 3 → f.u.toNat = 0x0C + i →
    ∃ t, exec (.rdsrS f) s = .next t ∧ Wrote s t u (cellVal (.s (sName u.slot f.d.toNat))
      (if u.slot.trap.isSome then u.g.read s.turn 0 (.s (192 + i)) else 0))) ∧
  (∀ (f : EF) s u, s.issuer? = some u → f.u.toNat = 0x0A → let w := (u.g.rdS u.slot s.turn 0 f.a.toNat).setWidth 32
    (fmtOk w → ∃ t, exec (.wrsr f) s = .next t ∧ Becomes s t u (u.g.setSlot u.name { u.slot.advance with fmt := w })) ∧
    (¬ fmtOk w → mayTrap s u → raises (.wrsr f) s u 1 0)) ∧
  (∀ (f : EF) (i : Nat) s u, s.issuer? = some u → i < 3 → f.u.toNat = 0x0C + i →
    (u.slot.trap = none → mayTrap s u → raises (.wrsr f) s u 1 0) ∧
    (u.slot.trap ≠ none → ∃ t, exec (.wrsr f) s = .next t ∧ Wrote s t u (cellVal (.s (192 + i)) (u.g.rdS u.slot s.turn 0 f.a.toNat)))) ∧
  (∀ (f : EF) s u, s.issuer? = some u →
    (fmtOk f.imm → ∃ t, exec (.fmtset f) s = .next t ∧ Becomes s t u (u.g.setSlot u.name { u.slot.advance with fmt := f.imm })) ∧
    (¬ fmtOk f.imm → mayTrap s u → raises (.fmtset f) s u 1 0)) ∧
  (∀ (f : EF) s u, s.issuer? = some u →
    ∃ t, exec (.fmtget f) s = .next t ∧ Wrote s t u (cellVal (.s (sName u.slot f.d.toNat)) (u.slot.fmt.setWidth 64)))
namespace Sys2Proof.Claims

/-- A target that the check of R82 passes: the state after the fetch of its line. -/
def lands (s : State) (u : Issuer) (pc : Int) (s' : State) : Prop := s.checkTarget u.g pc = (s', .ok)

/-- The PC of an offset from a slot's PC, taken exactly (R44). -/
def away (x : Slot) (off : BitVec 24) : Int := (x.pc.toNat : Int) + off.toInt

/-- Neither slot stands at its innermost join or without lanes: no Arrive follows (R86). -/
def quiet (g : Group) : Prop := g.a.arriving = false ∧ g.b.arriving = false

/-- $efault of BADTARGET: the PC, and why (R97). -/
def badAt (pc : Int) (why : Nat) : DWord := BitVec.ofNat 24 why ++ BitVec.ofInt 40 pc

/-- The group after Split (R86) where the spill entry, if one is pushed, stays in the core; none when both stacks are full. -/
def splitOf (s : State) (u : Issuer) (taken rest : Mask) (tpc rpc jpc : Pc) : Option Group :=
  let x := u.slot
  let y := u.g.slot u.name.other
  if taken = 0 then some (u.g.setSlot u.name { x with pc := rpc, check := false })
  else if rest = 0 then some (u.g.setSlot u.name { x with pc := tpc, check := false })
  else if y.st = .free then
    some ((u.g.setSlot u.name { x with pc := rpc, mask := rest, pj := some jpc, pf := x.fmt, check := false }).setSlot u.name.other
      { Slot.empty with st := .run, pc := tpc, mask := taken, fmt := x.fmt, pj := some jpc, pf := x.fmt, rets := x.rets })
  else if u.g.a.spill.length + u.g.b.spill.length = 128 then none
  else some (u.g.setSlot u.name { x with
    pc := tpc, mask := taken, check := false
    spill := { rpc := rpc, jpc := jpc, mask := rest, fmt := x.fmt, cached := true, stamp := s.turn } :: x.spill })

/-- At most one spill entry is in the core: a push leaves both there (R40). -/
def roomInCore (g : Group) : Prop := ((g.a.spill ++ g.b.spill).filter (·.cached)).length ≤ 1

/-- The slot that holds the taken lanes after Split. -/
def holderOf (u : Issuer) (rest : Mask) : SlotName :=
  if rest ≠ 0 ∧ (u.g.slot u.name.other).st = .free then u.name.other else u.name

/-- The return stack of a slot with one more entry. -/
def calledIn (g : Group) (n : SlotName) (pc : Pc) : Group := g.setSlot n { g.slot n with rets := pc :: (g.slot n).rets }

end Sys2Proof.Claims

/-- BRA (R83) goes to pc + OFF when UQ = 0 or the guard holds and the target passes R82, else to pc + 1; a target outside the segment
raises BADTARGET. BRC, BRX and CALLX (R82 to R86): the participating lanes, or those of the lowest lane's target, are taken and Split runs; a
split that finds both stacks full raises SPILLFULL; a table not at slot 0 raises BADTARGET; CALLX pushes pc + 1 where the taken lanes are. -/
def Obligations.Branches : Prop :=
  (∀ (f : BF) s u, s.issuer? = some u →
    (f.uq ∧ ¬ u.g.uniformGuard s.turn f.toCommon → ∃ t, exec (.bra f) s = .next t ∧ Becomes s t u (u.g.setSlot u.name u.slot.advance)) ∧
    (f.uq = false ∨ u.g.uniformGuard s.turn f.toCommon → let pc := away u.slot f.off
      (∀ s', lands s u pc s' → ∃ t, exec (.bra f) s = .next t ∧
        Becomes s' t u (u.g.setSlot u.name { u.slot with pc := BitVec.ofInt 40 pc, check := false, wait := none })) ∧
      (pc < 0 ∨ 5 * (s.launch u.g).lines ≤ pc → mayTrap s u → raises (.bra f) s u 3 (badAt pc 1)))) ∧
  (∀ (f : BF) s u, s.issuer? = some u → let x := u.slot; let taken := partOf s u f.toCommon; let rest := x.mask &&& ~~~taken
    let j := away x f.joff
    ∀ s', (if taken = 0 then s' = s else lands s u (away x f.off) s') → 0 ≤ j → j < 5 * (s.launch u.g).lines →
    roomInCore u.g → (∀ h, splitOf s u taken rest (BitVec.ofInt 40 (away x f.off)) (x.pc + 1) (BitVec.ofInt 40 j) = some h → quiet h →
      ∃ t, exec (.brc f) s = .next t ∧ Becomes s' t u h) ∧
    (splitOf s u taken rest (BitVec.ofInt 40 (away x f.off)) (x.pc + 1) (BitVec.ofInt 40 j) = none → mayTrap s u →
      ∃ t, exec (.brc f) s = .next t ∧ TrapEntry s' t u 11 0 x.mask 0)) ∧
  (∀ (f : BF) (call : Bool) s u, s.issuer? = some u → let x := u.slot; let base := away x f.off; let i := (if call then Instr.callx f else Instr.brx f)
    let j := away x f.joff
    (base % 5 ≠ 0 → mayTrap s u → raises i s u 3 (badAt base 5)) ∧
    (base % 5 = 0 → 0 ≤ base → ∀ s' ts, s.tableTargets u base.toNat f.a.toNat (lanesOf (partOf s u f.toCommon)) = (s', .ok ts) →
      0 ≤ j → j < 5 * (s.launch u.g).lines → roomInCore u.g →
      (ts = [] → ∃ t, exec i s = .next t ∧ Becomes s' t u (u.g.setSlot u.name x.advance)) ∧
      (∀ l pc more, ts = (l, pc) :: more → x.rets.length < 32 ∨ call = false →
        let taken := maskOf (fun l => ts.any (fun e => e.1 == l && e.2 == pc)); let rest := x.mask &&& ~~~taken
        taken ≠ 0 → ∀ h, splitOf s u taken rest (BitVec.ofInt 40 pc) x.pc (BitVec.ofInt 40 j) = some h →
          let h := if call then calledIn h (holderOf u rest) (x.pc + 1) else h
          quiet h → ∃ t, exec i s = .next t ∧ Becomes s' t u h)))


/-- CALL, RET and LOOPS (R83, R85): the pushed and popped PCs; CALLDEPTH with 32 entries (0) and with none (1); LOOPS counts S[a] down
and goes back while it is not zero. -/
def Obligations.CallsAndLoops : Prop :=
  (∀ (f : BF) s u, s.issuer? = some u → let x := u.slot; let pc := away x f.off; ∀ s', lands s u pc s' →
    (x.rets.length < 32 → ∃ t, exec (.call f) s = .next t ∧
      Becomes s' t u (u.g.setSlot u.name { x with pc := BitVec.ofInt 40 pc, check := false, wait := none, rets := (x.pc + 1) :: x.rets })) ∧
    (32 ≤ x.rets.length → mayTrap s u → ∃ t, exec (.call f) s = .next t ∧ TrapEntry s' t u 12 0 x.mask 0)) ∧
  (∀ (f : BF) s u, s.issuer? = some u → let x := u.slot
    (x.rets = [] → mayTrap s u → raises (.ret f) s u 12 1) ∧
    (∀ pc rest, x.rets = pc :: rest → ∀ s', lands s u pc.toNat s' → ∃ t, exec (.ret f) s = .next t ∧
      Becomes s' t u (u.g.setSlot u.name { x with pc := pc, check := false, wait := none, rets := rest }))) ∧
  (∀ (f : BF) s u, s.issuer? = some u → let x := u.slot; let c := Cell.s (sName x f.a.toNat); let n := u.g.rdS x s.turn 0 f.a.toNat
    (n = 0 → ∃ t, exec (.loops f) s = .next t ∧ Wrote s t u noVal) ∧
    (n = 1 → ∃ t, exec (.loops f) s = .next t ∧ Wrote s t u (cellVal c 0)) ∧
    (1 < n → ∀ s', lands s u (away x f.off) s' → ∃ t, exec (.loops f) s = .next t ∧ GroupOnly s' t u.g.id ∧
      ∃ h, t.group? u.g.id = some h ∧ RegistersOnly u.g h u.name ∧
        h.slot u.name = { x with pc := BitVec.ofInt 40 (away x f.off), check := false, wait := none } ∧
        ∀ c' : Cell, c'.valid → h.peek c' = (cellVal c (n - 1) c').getD (u.g.peek c')))

namespace Sys2Proof.Claims

/-- The four words of a trace record (R94): the logical count after the increment; $dieidx, $oct, $clus, $core, $grp, the slot and the PC; the slot's
active lanes and IMM32; the value of S[a]. -/
def traceWord (s : State) (u : Issuer) (f : EF) (i : Nat) : DWord :=
  match i with
  | 0 => (s.core u.g.core).lclk + 1
  | 1 => 0#7 ++ BitVec.ofNat 2 (u.g.core / 128) ++ BitVec.ofNat 2 (u.g.core / 32 % 4) ++ BitVec.ofNat 3 (u.g.core / 4 % 8) ++
      BitVec.ofNat 2 (u.g.core % 4) ++ BitVec.ofNat 7 u.g.grp ++ (if u.name = .b then 1#1 else 0#1) ++ u.slot.pc
  | 2 => u.slot.mask ++ f.imm
  | _ => u.g.rdS u.slot s.turn 0 f.a.toNat

/-- What a PMARK under tracing changes outside the memory that it writes (R94): its slot goes on and its core counts one up; the watches over the
written bytes are to read again; nothing else. -/
structure Marked (s t : State) (u : Issuer) : Prop where
  group : t.group? u.g.id = some (u.g.setSlot u.name u.slot.advance)
  others : ∀ i, i ≠ u.g.id → t.group? i = s.group? i
  count : t.core u.g.core = { s.core u.g.core with lclk := (s.core u.g.core).lclk + 1 }
  cores : ∀ c, c ≠ u.g.core → t.core c = s.core c
  watches : t.watches.map (fun w => { w with written := false }) = s.watches.map (fun w => { w with written := false })
  rest : { t with groups := s.groups, cores := s.cores, watches := s.watches, mem := s.mem } = s

end Sys2Proof.Claims

/-- NOP and YIELD (R61): only the next PC, and for YIELD the age at zero. SLEEP (R93): with IMM32 = 0, or once its wait is over, only the next PC; else it
parks until its die has counted IMM32 ac. PMARK (R94): without tracing only the next PC; with it the core's logical count is one up and, where the write
index TWR is below 2^TLOG, the record's four words stand at TRACE + 32 × TWR, TWR is one up and every other byte of memory is as before; with TWR at
2^TLOG or above, which the model takes as a full ring (assumption 12), no record is written and TDROP alone is one up. -/
def Obligations.WaitsYieldsAndMarks : Prop :=
  (∀ (f : EF) s u, s.issuer? = some u →
    (∃ t, exec (.nop f) s = .next t ∧ Becomes s t u (u.g.setSlot u.name u.slot.advance)) ∧
    (∃ t, exec (.yield f) s = .next t ∧ Becomes s t u (u.g.setSlot u.name { u.slot.advance with age := 0 })) ∧
    (f.imm = 0 ∨ u.slot.wait ≠ none → ∃ t, exec (.sleep f) s = .next t ∧ Becomes s t u (u.g.setSlot u.name u.slot.advance)) ∧
    (f.imm ≠ 0 → u.slot.wait = none → ∃ t, exec (.sleep f) s = .next t ∧ Becomes s t u
      (parked s u (.sleep f) [] (.clock ((s.die (u.g.core / 128)).clock.toNat + f.imm.toNat))))) ∧
  (∀ (f : EF) s u, s.issuer? = some u → let w6 := BitVec.ofNat 64 (s.ctxWord u.g.cid 6); let w7 := BitVec.ofNat 64 (s.ctxWord u.g.cid 7)
    let entry := 0x800001000000 + 128 * u.g.cid; let twr := (w7.extractLsb' 32 32).toNat; let full := 2 ^ (w6.extractLsb' 48 5).toNat ≤ twr
    let a := (w6.extractLsb' 0 48).toNat + 32 * twr
    (w6.msb = false → ∃ t, exec (.pmark f) s = .next t ∧ Becomes s t u (u.g.setSlot u.name u.slot.advance)) ∧
    (w6.msb = true → ¬ full → u.g.core < 512 → u.g.grp < 96 → ∃ t, exec (.pmark f) s = .next t ∧ Marked s t u ∧
      (∀ k, k < 32 → a + 32 ≤ entry + 60 ∨ entry + 64 ≤ a → t.byte (a + k) = (traceWord s u f (k / 8)).extractLsb' (8 * (k % 8)) 8) ∧
      (∀ k, k < 4 → t.byte (entry + 60 + k) = (BitVec.ofNat 32 (twr + 1)).extractLsb' (8 * k) 8) ∧
      ∀ b, (b < a ∨ a + 32 ≤ b) → (b < entry + 60 ∨ entry + 64 ≤ b) → t.byte b = s.byte b) ∧
    (w6.msb = true → full → ∃ t, exec (.pmark f) s = .next t ∧ Marked s t u ∧
      (∀ k, k < 4 → w7.setWidth 32 ≠ BitVec.allOnes 32 → t.byte (entry + 56 + k) = (w7.setWidth 32 + 1).extractLsb' (8 * k) 8) ∧
      ∀ b, (b < entry + 56 ∨ entry + 60 ≤ b) → t.byte b = s.byte b))

/-- TRAP and BRK (R95, R96): with a participating lane, trap entry with cause 6 or 7, IMM32 as $efault and the participating lanes in S183; with none,
no effect. ERET (R99): outside trap mode it raises UNDEF; to the PC written at entry or the next it restores the mask, the depths, FMT from S184, Q0 to
Q3 from S185, the PC from S180, and leaves trap mode; no other register changes. -/
def Obligations.TrapsAndReturns : Prop :=
  (∀ (f : EF) (brk : Bool) s u, s.issuer? = some u → let i := (if brk then Instr.brk f else Instr.trap f); let part := partOf s u f.toCommon
     (part = 0 → ∃ t, exec i s = .next t ∧ Becomes s t u (u.g.setSlot u.name u.slot.advance)) ∧
     (part ≠ 0 → mayTrap s u → ∃ t, exec i s = .next t ∧ TrapEntry s t u (if brk then 7 else 6) (f.imm.setWidth 64) part 0)) ∧
  (∀ (f : EF) s u, s.issuer? = some u → let x := u.slot; let pc : Pc := (u.g.peek (.s 192)).setWidth 40
     (x.trap = none → mayTrap s u → raises (.eret f) s u 1 0) ∧
     (∀ m, x.trap = some m → pc = m.pc ∨ pc = m.pc + 1 → ∃ t, exec (.eret f) s = .next t ∧ GroupOnly s t u.g.id ∧
       ∃ h, t.group? u.g.id = some h ∧ RegistersOnly u.g h u.name ∧
         h.slot u.name = { x with
           trap := none, mask := m.mask, rets := x.rets.drop (x.rets.length - m.rets), spill := x.spill.drop (x.spill.length - m.spills)
           fmt := (u.g.peek (.s 196)).setWidth 32, pc := pc, check := false, wait := none } ∧
         (∀ i, i < 4 → h.peek (.q i) = if (u.g.peek (.s 197)).getLsbD i then 1 else 0) ∧
         (∀ c : Cell, c.valid → (∀ i, i < 4 → c ≠ .q i) → h.peek c = u.g.peek c)))

/-- The ends of lanes and groups (R88, R89, R100): EXIT takes its participating lanes out of the slot; a group whose last lanes leave, a
KILL, and a trap in trap mode or without a trap entry PC leave the group retired with both slots free. -/
def Obligations.GroupEnds : Prop :=
  (∀ (f : EF) s u, s.issuer? = some u → let h := u.g.setSlot u.name { u.slot.advance with mask := u.slot.mask &&& ~~~partOf s u f.toCommon }
    quiet h → ∃ t, exec (.exit f) s = .next t ∧ Becomes s t u h) ∧
  (∀ (f : EF) s u, s.issuer? = some u → u.slot.mask &&& ~~~partOf s u f.toCommon = 0 → u.slot.st = .run → u.slot.moving = false →
    u.slot.spill = [] → u.slot.pj = none → (u.g.slot u.name.other).st = .free →
    ∃ t h, exec (.exit f) s = .next t ∧ t.group? u.g.id = some h ∧ h.life = .retired ∧ h.a.st = .free ∧ h.b.st = .free) ∧
  (∀ (f : EF) s u, s.issuer? = some u →
    ∃ t h, exec (.kill f) s = .next t ∧ t.group? u.g.id = some h ∧ h.life = .retired ∧ h.a.st = .free ∧ h.b.st = .free) ∧
  (∀ (f : EF) s u, s.issuer? = some u → partOf s u f.toCommon ≠ 0 →
    u.slot.trap ≠ none ∨ (s.launch u.g).trapPc = 0xFFFFFFFFFF →
    ∃ t h, exec (.trap f) s = .next t ∧ t.group? u.g.id = some h ∧ h.life = .retired ∧ h.a.st = .free ∧ h.b.st = .free)
namespace Sys2Proof.Claims

/-! ## Floating point -/

/-- The rational number of an exact value; none for infinities and NaNs, or over a denominator of zero. -/
def ratOf : Val → Option Rat
  | .fin neg n d e => if d = 0 then none else some ((if neg then -1 else 1) * (n : Rat) / (d : Rat) * (2 : Rat) ^ e)
  | _ => none

/-- The magnitude of a rational. -/
def magOf (x : Rat) : Rat := if x < 0 then -x else x

/-- The value of a magnitude code of a format (R66): subnormals below 2^mant, then the hidden bit. -/
def codeVal (f : Fmt) (c : Nat) : Rat :=
  let m := c % 2 ^ f.mant
  if c / 2 ^ f.mant = 0 then (m : Rat) * (2 : Rat) ^ (1 - (f.bias : Int) - f.mant)
  else ((m + 2 ^ f.mant : Nat) : Rat) * (2 : Rat) ^ ((c / 2 ^ f.mant : Nat) - (f.bias : Int) - f.mant)

/-- The formats: f32, f64, f16, bf16, e4m3, e5m2, e2m1. -/
def formats : List Nat := [9, 10, 11, 12, 13, 14, 15]

/-- Which magnitude code a rounding code chooses for v > 0 among those of a format that can hold it (R71). -/
def chosen (f : Fmt) (rm : Nat) (neg : Bool) (v : Rat) (k rho x : Nat) : Prop :=
  let low := codeVal f x ≤ v ∧ ∀ y, y ≤ f.maxCode → codeVal f y ≤ v → y ≤ x
  let high := v ≤ codeVal f x ∧ ∀ y, y ≤ f.maxCode → v ≤ codeVal f y → x ≤ y
  let near := ∀ y, y ≤ f.maxCode → magOf (codeVal f x - v) ≤ magOf (codeVal f y - v)
  let tied := fun y => y ≤ f.maxCode ∧ y ≠ x ∧ magOf (codeVal f y - v) = magOf (codeVal f x - v)
  match rm with
  | 0 => near ∧ ∀ y, tied y → x % 2 = 0
  | 1 => low
  | 2 => if neg then low else high
  | 3 => if neg then high else low
  | 4 => near ∧ ∀ y, tied y → y < x
  | _ => (low ∧ (codeVal f x = v ∨ ((v - codeVal f x) / (codeVal f (x + 1) - codeVal f x) * (2 : Rat) ^ k).floor + rho < 2 ^ k)) ∨
      (high ∧ 0 < x ∧ (2 : Int) ^ k ≤ ((v - codeVal f (x - 1)) / (codeVal f x - codeVal f (x - 1)) * (2 : Rat) ^ k).floor + rho)

end Sys2Proof.Claims

/-- The codes of every format as values (R66): sign, subnormals, normals, infinities and NaNs; e2m1 codes decoded in a block (R70). The exact
arithmetic under the instructions (R68, R69): sums, products, quotients and roots of finite values are those of the rationals, with the signs of zero
results; the invalid operations on infinities and zeros give NaN. -/
def Obligations.FloatValues : Prop :=
  ((∀ (t : Nat) (neg : Bool) (c : Nat), t ∈ formats → c < 2 ^ ((fmtOf t).expo + (fmtOf t).mant) → let f := fmtOf t; let x := f.signBit neg + c
     (c ≤ f.maxCode → ratOf (f.widen x) = some ((if neg then -1 else 1) * codeVal f c) ∧ (f.widen x).neg? = neg) ∧
     (f.maxCode < c → f.widen x = if f.infs ∧ c = f.maxCode + 1 then .inf neg else .nan neg)) ∧
   (∀ (c spec scale : Nat) (bspe : Bool), c < 16 → spec < 256 → scale < 256 →
     (scale = 255 → decodeE2M1 c spec scale bspe = .nan false) ∧
     (scale ≠ 255 → ¬ (c = 8 ∧ bspe) → ratOf (decodeE2M1 c spec scale bspe) =
       some ((if 8 ≤ c then -1 else 1) * (([0, 1, 2, 3, 4, 6, 8, 12].getD (c % 8) 0 : Nat) : Rat) * (2 : Rat) ^ ((scale : Int) - 128))) ∧
     (scale ≠ 255 → c = 8 → bspe → ∀ x, ratOf ((fmtOf 13).widen spec) = some x →
       ratOf (decodeE2M1 c spec scale bspe) = some (x * (2 : Rat) ^ ((scale : Int) - 127))))) ∧
  ((∀ rd a b x y, ratOf a = some x → ratOf b = some y →
     ratOf (Val.add rd a b) = some (x + y) ∧ ratOf (Val.mul a b) = some (x * y) ∧
     (x + y = 0 → (Val.add rd a b).neg? = if x = 0 ∧ y = 0 ∧ a.neg? = b.neg? then a.neg? else rd) ∧
     (x + y ≠ 0 → (Val.add rd a b).neg? = decide (x + y < 0)) ∧ (Val.mul a b).neg? = (a.neg? != b.neg?)) ∧
   (∀ a b x y, ratOf a = some x → ratOf b = some y → y ≠ 0 →
     ratOf (Val.div a b) = some (x / y) ∧ (Val.div a b).neg? = (a.neg? != b.neg?)) ∧
   (∀ a b x y, ratOf a = some x → ratOf b = some y → y = 0 →
     Val.div a b = if x = 0 then .nan false else .inf (a.neg? != b.neg?)) ∧
   (∀ (neg : Bool) (n d : Nat) (e : Int), 0 < d → let v := Val.fin neg n d e
     (n = 0 → v.sqrt = .zero neg) ∧ (0 < n → neg → v.sqrt = .nan false) ∧
     (0 < n → neg = false → ∀ x, ratOf v = some x → ∃ r, ratOf v.sqrt = some r ∧ 0 < r ∧
       magOf (r * r - x) ≤ x * (2 : Rat) ^ (-158 : Int) ∧ ∀ y : Rat, 0 < y → y * y = x → r = y)) ∧
   (∀ a b rd, Val.add rd (.inf a) (.inf b) = if a = b then .inf a else .nan false) ∧
   (∀ a b n d e, Val.mul (.inf a) (.fin b n d e) = (if n = 0 then .nan false else .inf (a != b)) ∧
     Val.mul (.fin b n d e) (.inf a) = (if n = 0 then .nan false else .inf (b != a)) ∧ Val.mul (.inf a) (.inf b) = .inf (a != b) ∧
     Val.div (.inf a) (.inf b) = .nan false ∧ Val.div (.fin b n d e) (.inf a) = .zero (b != a) ∧ Val.div (.inf a) (.fin b n d e) = .inf (a != b)))

/-- RoundTo a format (R71, R72, R76, R80): of a value within the finite range the code that the rounding code chooses, with the sign,
INX where it is not equal and UNF where it is then also below the normals; past the range by a whole last place the overflow result of R72;
saturating, the finite end. -/
def Obligations.FloatRounding : Prop :=
  ∀ (t rm : Nat) (neg : Bool) (n d : Nat) (e : Int) (k rho : Nat), t ∈ formats → rm < 6 → 0 < n → 0 < d → rho < 2 ^ k → let f := fmtOf t
    let v := (n : Rat) / (d : Rat) * (2 : Rat) ^ e; let top := codeVal f f.maxCode; let value := Val.fin neg n d e
    (v ≤ top → ∃ x, x ≤ f.maxCode ∧ chosen f rm neg v k rho x ∧
      f.round rm k rho value = (f.signBit neg + x, { Conds.none with inx := decide (codeVal f x ≠ v), unf := decide (codeVal f x ≠ v ∧ x < 2 ^ f.mant) }) ∧
      (f.deliver true rm k rho value).1 = f.signBit neg + x) ∧
    (top + (top - codeVal f (f.maxCode - 1)) ≤ v →
      (f.round rm k rho value).2 = { Conds.none with ovf := true, inx := true } ∧
      (f.round rm k rho value).1 = f.signBit neg + (if t = 13 then 0x7F else if t = 15 then 7
        else if rm = 1 ∨ (rm = 2 ∧ neg) ∨ (rm = 3 ∧ ¬ neg) then f.maxCode else f.maxCode + 1) ∧
      f.deliver true rm k rho value = (f.signBit neg + f.maxCode, { Conds.none with ovf := true, inx := true }))
namespace Sys2Proof.Claims

/-- An element of a lane: a half of a packed type (R66), else the low bits of the type's width. -/
def elemOf (t x j : Nat) : Nat := if t = 16 ∨ t = 17 then x / 2 ^ (16 * j) % 2 ^ 16 else x % 2 ^ (fmtOf t).width

/-- The value of an element under the modifiers: the absolute value first, then the negation (R125). -/
def fval (t x j : Nat) (ab ng : Bool) : Val :=
  let v := (fmtOf t).widen (elemOf t x j)
  let v := if ab then v.abs else v
  if ng then v.negate else v

/-- An element that is a signalling NaN (R80): a NaN with its top mantissa bit clear, in a format that has infinities. -/
def signals (t x j : Nat) : Bool :=
  let c := elemOf t x j
  let f := fmtOf t
  f.infs && decide (f.maxCode + 1 < c % 2 ^ (f.expo + f.mant)) && !c.testBit (f.mant - 1)

/-- A lane's value from its elements, and a condition of any of them. -/
def elems (t : Nat) (v : Nat → Nat) : Nat := if t = 16 ∨ t = 17 then v 0 + v 1 * 2 ^ 16 else v 0

/-- A condition of an element of a lane. -/
def anyElem (t : Nat) (b : Nat → Bool) : Bool := b 0 || ((t == 16 || t == 17) && b 1)

/-- The random bits of SR that an element uses (R71): the halves of the operand for a packed type. -/
def srBits (t c j : Nat) : Nat × Nat := if t = 16 ∨ t = 17 then (16, c / 2 ^ (16 * j) % 2 ^ 16) else (32, c % 2 ^ 32)

/-- The rounding code in force: RM, or FMT[17:15] for RM = 6 (R58). -/
def rmOf (u : Issuer) (rm : BitVec 3) : Nat := if rm = 6 then (u.slot.fmt.extractLsb' 15 3).toNat else rm.toNat

/-- An arithmetic result: a NaN is the canonical one with sign 0 (R68), else one rounding, saturating with SAT or FMT[19]. -/
def delivered (u : Issuer) (t : Nat) (sat : Bool) (rm : BitVec 3) (c j : Nat) (v : Val) : Nat × Conds :=
  (fmtOf t).deliver (sat || u.slot.fmt.getLsbD 19) (rmOf u rm) (srBits t c j).1 (srBits t c j).2 (if v.isNan then .nan false else v)

/-- NaN from operands that are none. -/
def invalid (ops : List Val) (v : Val) : Bool := v.isNan && ops.all (fun x => !x.isNan)

/-- A VR instruction completes: each participating lane of D takes its elements' codes at type `t`, its PD whether an element reports;
nothing else changes. -/
def floats (i : Instr) (f : VR) (t : Nat) (code : State → Issuer → Nat → Nat → Nat) (tells : State → Issuer → Nat → Nat → Bool) : Prop :=
  ∀ s u, s.issuer? = some u → let part := partOf s u f.toCommon
    ∃ s', exec i s = .next s' ∧ Wrote s s' u (both (laneVal part f.d.toNat (typeRegs t) (fun l => elems t (code s u l)))
      (predVal part f.pd.toNat (fun l => anyElem t (tells s u l))))

/-- A two-source operation, its exact value and what its PD lists (R124, R125, R128). -/
def float2 (i : VR → Instr) (value : Bool → Val → Val → Val) (tells : Val → Val → Bool → Conds → Bool) : Prop :=
  ∀ f : VR, let t := f.t.toNat; let n := typeRegs t
    let x := fun s u l j => fval t (u.opA (State.turn s) f n l) j f.aa f.na
    let y := fun s u l j => fval t (u.opB (State.turn s) f n l) j f.ab f.nb
    let v := fun s u l j => value (rmOf u f.rm == 3) (x s u l j) (y s u l j)
    let r := fun s u l j => delivered u t f.sat f.rm (s.random u f l) j (v s u l j)
    floats (i f) f t (fun s u l j => (r s u l j).1) (fun s u l j => tells (x s u l j) (y s u l j)
      (invalid [x s u l j, y s u l j] (v s u l j) || signals t (u.opA s.turn f n l) j || signals t (u.opB s.turn f n l) j) (r s u l j).2)

/-- Its immediate form: IMM32 of the type, an f32 widened exactly under f64 (R127). -/
def float2Imm (i : VI → Instr) (value : Bool → Val → Val → Val) : Prop :=
  ∀ f : VI, let t := f.t.toNat; let n := typeRegs t
    lanesImm (i f) f n (fun s u l => elems t (fun j => (delivered u t f.sat f.rm (s.noRandom l) j (value (rmOf u f.rm == 3)
      (fval t (u.g.rdWide s.turn 1 f.a.toNat l n) j false false) (fval (if t = 10 then 9 else t) f.imm.toNat j false false))).1))

/-- The integer that a rounding code makes of a rational (R71, R73); a sticky direction is that of the magnitude. -/
def wholeOf (rm k rho : Nat) (x : Rat) : Int :=
  let lo := (magOf x).floor
  let fr := magOf x - (lo : Rat)
  let up : Bool := match rm with
    | 0 => decide (1 / 2 < fr) || (fr == 1 / 2 && lo % 2 == 1)
    | 1 => false
    | 2 => decide (0 < fr ∧ 0 < x)
    | 3 => decide (0 < fr ∧ x < 0)
    | 4 => decide (1 / 2 ≤ fr)
    | _ => decide ((2 : Int) ^ k ≤ (fr * (2 : Rat) ^ k).floor + rho)
  let m := if up then lo + 1 else lo
  if x < 0 then -m else m

/-- The place of a code that is no NaN in the order by value with −0 below +0. -/
def orderOf (t c : Nat) : Int :=
  let m := c % 2 ^ ((fmtOf t).width - 1)
  if c.testBit ((fmtOf t).width - 1) then -(m : Int) - 1 else m

/-- A NaN code. -/
def nanAt (t c : Nat) : Bool :=
  let m := c % 2 ^ ((fmtOf t).width - 1)
  decide ((fmtOf t).maxCode + (if (fmtOf t).infs then 1 else 0) < m)

/-- The smaller or larger of two codes (R129). -/
def pickOf (t : Nat) (largest : Bool) (x y : Nat) : Nat :=
  if nanAt t x && nanAt t y then (fmtOf t).nanCode false
  else if nanAt t x then y else if nanAt t y then x
  else if (decide (orderOf t x < orderOf t y)) == largest then y else x

/-- A code under the modifiers: its sign bit cleared, then flipped. -/
def modOf (t : Nat) (ab ng : Bool) (c : Nat) : Nat :=
  let w := (fmtOf t).width - 1
  c % 2 ^ w + (if (c.testBit w && !ab) != ng then 2 ^ w else 0)

/-- FCMP's condition codes (R130). -/
def compares (t code x y : Nat) : Bool :=
  let key := fun c => if c % 2 ^ ((fmtOf t).width - 1) = 0 then 0 else if orderOf t c < 0 then orderOf t c + 1 else orderOf t c
  if nanAt t x || nanAt t y then code == 1 || code == 6
  else match code with
    | 0 => key x == key y
    | 1 => key x != key y
    | 2 => decide (key x < key y)
    | 3 => decide (key x ≤ key y)
    | 4 => decide (key y < key x)
    | 5 => decide (key y ≤ key x)
    | _ => false

/-- FCLASS's bit (R131). -/
def classBit (t c : Nat) : Nat :=
  let f := fmtOf t
  let m := c % 2 ^ (f.width - 1)
  let neg := c.testBit (f.width - 1)
  if nanAt t c then (if signals t c 0 then 8 else 9)
  else if m = f.maxCode + 1 then (if neg then 0 else 7)
  else if m = 0 then (if neg then 3 else 4)
  else if m < 2 ^ f.mant then (if neg then 2 else 5)
  else if neg then 1 else 6

/-- The floating types of the arithmetic instructions. -/
def arithFloats : List Nat := [9, 10, 11, 12, 16, 17]

/-- An approximation completes: each element is a function of the modified code. -/
def approximates (i : VR → Instr) (tells : Conds → Bool) (a : Approx) : Prop :=
  ∀ f : VR, let t := f.t.toNat
    let r := fun s u l j => a.result t (f.sat || u.slot.fmt.getLsbD 19) (modOf t f.aa f.na (elemOf t (u.opA (State.turn s) f (typeRegs t) l) j))
    floats (i f) f t (fun s u l j => (r s u l j).1) (fun s u l j => tells (r s u l j).2)

end Sys2Proof.Claims

/-- FADD, FSUB, FMUL (both forms), FDIV, FFMA, FDOT2 and FSQRT (R124, R125, R127, R128): one rounding of the exact value, the listed
conditions in PD; FSCALE multiplies by 2^B, zero staying zero. -/
def Obligations.FloatArithmetic : Prop :=
  float2 .fadd Val.add (fun _ _ inv c => inv || c.ovf) ∧ float2Imm .faddImm Val.add ∧
  float2 .fsub (fun rd a b => Val.add rd a b.negate) (fun _ _ inv c => inv || c.ovf) ∧ float2Imm .fsubImm (fun rd a b => Val.add rd a b.negate) ∧
  float2 .fmul (fun _ => Val.mul) (fun _ _ inv c => inv || c.ovf) ∧ float2Imm .fmulImm (fun _ => Val.mul) ∧
  float2 .fdiv (fun _ => Val.div) (fun a b inv c => inv || c.ovf || (!a.isNan && !a.isInf && !a.isZero && b.isZero)) ∧
  (∀ f : VR, let t := f.t.toNat; let n := typeRegs t
    let x := fun s u l j => fval t (u.opA (State.turn s) f n l) j f.aa f.na
    let y := fun s u l j => fval t (u.opB (State.turn s) f n l) j f.ab f.nb
    let z := fun s u l j => fval t (u.opC (State.turn s) f n l) j false f.nc
    let p := fun s u l j => Val.mul (x s u l j) (y s u l j)
    let v := fun s u l j => Val.add (rmOf u f.rm == 3) (z s u l j) (p s u l j)
    let r := fun s u l j => delivered u t f.sat f.rm (s.random u f l) j (v s u l j)
    floats (.ffma f) f t (fun s u l j => (r s u l j).1) (fun s u l j =>
      invalid [x s u l j, y s u l j] (p s u l j) || invalid [z s u l j, p s u l j] (v s u l j) || signals t (u.opA s.turn f n l) j ||
        signals t (u.opB s.turn f n l) j || signals t (u.opC s.turn f n l) j || (r s u l j).2.ovf)) ∧
  (∀ f : VR, let t := f.t.toNat
    let x := fun s u l j => fval t (u.opA (State.turn s) f 1 l) j false f.na
    let y := fun s u l j => fval t (u.opB (State.turn s) f 1 l) j false f.nb
    let z := fun s u l => fval 9 (u.opC (State.turn s) f 1 l) 0 false f.nc
    let p := fun s u l j => Val.mul (x s u l j) (y s u l j)
    let v0 := fun s u l => Val.add (rmOf u f.rm == 3) (z s u l) (p s u l 0)
    let v := fun s u l => Val.add (rmOf u f.rm == 3) (v0 s u l) (p s u l 1)
    let r := fun s u l => delivered u 9 f.sat f.rm (s.random u f l) 0 (v s u l)
    floats (.fdot2 f) f 9 (fun s u l _ => (r s u l).1) (fun s u l _ =>
      invalid [x s u l 0, y s u l 0] (p s u l 0) || invalid [z s u l, p s u l 0] (v0 s u l) || invalid [x s u l 1, y s u l 1] (p s u l 1) ||
        invalid [v0 s u l, p s u l 1] (v s u l) || signals t (u.opA s.turn f 1 l) 0 || signals t (u.opA s.turn f 1 l) 1 ||
        signals t (u.opB s.turn f 1 l) 0 || signals t (u.opB s.turn f 1 l) 1 || signals 9 (u.opC s.turn f 1 l) 0 || (r s u l).2.ovf)) ∧
  (∀ f : VR, [9, 10, 11, 12].contains f.t.toNat → let t := f.t.toNat; let n := typeRegs t
    let x := fun s u l => fval t (u.opA (State.turn s) f n l) 0 f.aa f.na
    floats (.fsqrt f) f t (fun s u l _ => (delivered u t f.sat f.rm (s.random u f l) 0 (x s u l).sqrt).1)
      (fun s u l _ => invalid [x s u l] (x s u l).sqrt || signals t (u.opA s.turn f n l) 0)) ∧
  (∀ f : VR, let t := f.t.toNat; let n := typeRegs t
    let x := fun s u l j => fval t (u.opA (State.turn s) f n l) j f.aa f.na
    let k := fun s u l => max (-6000) (min 6000 (BitVec.ofNat 32 (u.opB (State.turn s) f 1 l)).toInt)
    let r := fun s u l j => delivered u t f.sat f.rm (s.random u f l) j (if (x s u l j).isZero then x s u l j else (x s u l j).scale (k s u l))
    floats (.fscale f) f t (fun s u l j => (r s u l j).1) (fun s u l j => (r s u l j).2.ovf || (r s u l j).2.unf))

/-- FRND (R128) to the whole number its rounding code gives, zeros and infinities as they are; FMIN and FMAX in both forms (R129), FCMP (R130)
and FCLASS (R131). -/
def Obligations.FloatChoices : Prop :=
  (∀ f : VR, arithFloats.contains f.t.toNat → let t := f.t.toNat; let n := typeRegs t
    let x := fun s u l j => fval t (u.opA (State.turn s) f n l) j f.aa f.na
    let w := fun s u l j => (ratOf (x s u l j)).map (wholeOf (rmOf u f.rm) (srBits t (s.random u f l) j).1 (srBits t (s.random u f l) j).2)
    floats (.frnd f) f t (fun s u l j => ((fmtOf t).round 0 0 0 (match w s u l j with
        | some m => Val.fin (x s u l j).neg? m.natAbs 1 0
        | none => if (x s u l j).isNan then .nan false else x s u l j)).1)
      (fun s u l j => (w s u l j).any (fun m => some (m : Rat) != ratOf (x s u l j)))) ∧
  (∀ (f : VR) (largest : Bool), arithFloats.contains f.t.toNat → let t := f.t.toNat; let n := typeRegs t
    floats (if largest then .fmax f else .fmin f) f t
      (fun s u l j => pickOf t largest (modOf t f.aa f.na (elemOf t (u.opA s.turn f n l) j)) (modOf t f.ab f.nb (elemOf t (u.opB s.turn f n l) j)))
      (fun s u l j => signals t (u.opA s.turn f n l) j || signals t (u.opB s.turn f n l) j)) ∧
  (∀ (f : VI) (largest : Bool), arithFloats.contains f.t.toNat → let t := f.t.toNat; let n := typeRegs t
    lanesImm (if largest then .fmaxImm f else .fminImm f) f n (fun s u l => elems t (fun j =>
      pickOf t largest (elemOf t (u.g.rdWide s.turn 1 f.a.toNat l n) j)
        (if t = 10 then ((fmtOf 10).round 0 0 0 ((fmtOf 9).widen f.imm.toNat)).1 else elemOf t f.imm.toNat j)))) ∧
  (∀ (f : VR) s u, s.issuer? = some u → [9, 10, 11, 12].contains f.t.toNat → let t := f.t.toNat; let n := typeRegs t
    ∃ s', exec (.fcmp f) s = .next s' ∧ Wrote s s' u (predVal (partOf s u f.toCommon) f.pd.toNat (fun l => compares t f.rm.toNat
      (modOf t f.aa f.na (elemOf t (u.opA s.turn f n l) 0)) (modOf t f.ab f.nb (elemOf t (u.opB s.turn f n l) 0))))) ∧
  (∀ f : VR, [9, 10, 11, 12].contains f.t.toNat → let t := f.t.toNat
    lanes (.fclass f) f 1 (fun s u l => 2 ^ classBit t (elemOf t (u.opA s.turn f (typeRegs t) l) 0)))

namespace Sys2Proof.Claims

/-- The spacing of a format at a magnitude is 2^k (R132): 2^mant spacings make the binade it lies in, and below the normal numbers the spacing is that of
the subnormals. -/
def spacingAt (f : Fmt) (v : Rat) (k : Int) : Prop :=
  1 - (f.bias : Int) - f.mant ≤ k ∧ magOf v < (2 : Rat) ^ (k + f.mant + 1) ∧
  ((2 : Rat) ^ (k + f.mant) ≤ magOf v ∨ k = 1 - (f.bias : Int) - f.mant)

/-- The seven functions. -/
def approximations : List Approx := [.rcp, .rsq, .exp2, .log2, .sin, .cos, .tanh]

/-- The condition INV, DZ or OVF alone. -/
def invOnly : Conds := { Conds.none with inv := true }
/-- DZ alone. -/
def dzOnly : Conds := { Conds.none with dz := true }
/-- OVF alone. -/
def ovfOnly : Conds := { Conds.none with ovf := true }

end Sys2Proof.Claims

/-- FRCP, FRSQ, FEXP2, FLOG2, FSIN, FCOS and FTANH complete (R125): each element of each participating lane takes a fixed function of its modified code, its
type and whether SAT or FMT[19] is 1, and PD the conditions that R125 lists for it. Of that function, Approx.at before saturation: FRCP in f32 and f64
lies within one spacing of the type at the exact reciprocal, for every finite source that is not zero and whose reciprocal does not pass the largest finite
value; the results that R132 lists as exact, for all five functions it names; every special input of R133 with its conditions, a result beyond the
largest finite value included. The error bounds of the other six are not stated here. -/
def Obligations.Approximations : Prop :=
  (approximates .frcp (fun c => c.dz || c.ovf) .rcp ∧ approximates .frsq (fun c => c.inv || c.dz) .rsq ∧
   approximates .fexp2 (fun c => c.ovf) .exp2 ∧ approximates .flog2 (fun c => c.inv || c.dz) .log2 ∧
   approximates .fsin (fun c => c.inv) .sin ∧ approximates .fcos (fun c => c.inv) .cos ∧ approximates .ftanh (fun _ => false) .tanh) ∧
  (∀ t x v, t = 9 ∨ t = 10 → x < 2 ^ (fmtOf t).width → ratOf ((fmtOf t).widen x) = some v → v ≠ 0 → magOf v⁻¹ ≤ codeVal (fmtOf t) (fmtOf t).maxCode →
     ∃ r k, ratOf ((fmtOf t).widen (Approx.rcp.at t x).1) = some r ∧ spacingAt (fmtOf t) v⁻¹ k ∧ magOf (r - v⁻¹) ≤ (2 : Rat) ^ k) ∧
  (∀ t x y v w (i : Int), x < 2 ^ (fmtOf t).width → y < 2 ^ (fmtOf t).width → ratOf ((fmtOf t).widen x) = some v → ratOf ((fmtOf t).widen y) = some w →
     (t = 9 ∨ t = 10 → magOf v = (2 : Rat) ^ i → w * v = 1 → (Approx.rcp.at t x).1 = y) ∧
     (t = 9 ∨ t = 10 → v = (2 : Rat) ^ i → 0 < w → w * w * v = 1 → (Approx.rsq.at t x).1 = y) ∧
     ([9, 11, 12].contains t → v = (i : Rat) → w = (2 : Rat) ^ i → (Approx.exp2.at t x).1 = y) ∧
     ([9, 11, 12].contains t → v = (2 : Rat) ^ i → ratOf ((fmtOf t).widen (Approx.log2.at t x).1) = some (i : Rat)) ∧
     ([9, 11, 12].contains t → magOf v ≤ (2 : Rat) ^ (-12 : Int) → (Approx.sin.at t x).1 = x ∧ (Approx.tanh.at t x).1 = x)) ∧
  (∀ t, [9, 10, 11, 12].contains t → let f := fmtOf t; let inf := f.maxCode + 1; let one := f.bias * 2 ^ f.mant; let sign := 2 ^ (f.width - 1)
    let nan := inf + 2 ^ (f.mant - 1); let ok := Conds.none
    approximations.map (fun a => a.at t 0) = [(inf, dzOnly), (inf, dzOnly), (one, ok), (sign + inf, dzOnly), (0, ok), (one, ok), (0, ok)] ∧
    approximations.map (fun a => a.at t sign) =
      [(sign + inf, dzOnly), (sign + inf, dzOnly), (one, ok), (sign + inf, dzOnly), (sign, ok), (one, ok), (sign, ok)] ∧
    approximations.map (fun a => a.at t inf) = [(0, ok), (0, ok), (inf, ok), (inf, ok), (nan, invOnly), (nan, invOnly), (one, ok)] ∧
    approximations.map (fun a => a.at t (sign + inf)) =
      [(sign, ok), (nan, invOnly), (0, ok), (nan, invOnly), (nan, invOnly), (nan, invOnly), (sign + one, ok)] ∧
    Approx.log2.at t one = (0, ok) ∧
    (∀ (a : Approx) x, x < 2 ^ f.width → nanAt t x → a.at t x = (nan, if signals t x 0 then invOnly else ok)) ∧
    (∀ x v, x < 2 ^ f.width → ratOf (f.widen x) = some v →
      (v < 0 → Approx.rsq.at t x = (nan, invOnly) ∧ Approx.log2.at t x = (nan, invOnly)) ∧
      (v ≠ 0 → codeVal f f.maxCode + (2 : Rat) ^ ((f.bias : Int) - f.mant - 1) ≤ magOf v⁻¹ →
        Approx.rcp.at t x = ((if v < 0 then sign else 0) + inf, ovfOnly)) ∧
      (t ≠ 10 → ((f.bias + 1 : Nat) : Rat) ≤ v → Approx.exp2.at t x = (inf, ovfOnly))) ∧
    (∀ (a : Approx) (sat : Bool) x, let r := a.at t x
      a.result t sat x = (if sat ∧ r.1 = inf then f.maxCode else if sat ∧ r.1 = sign + inf then sign + f.maxCode else r.1, r.2)))
namespace Sys2Proof.Claims

/-- The integer types. -/
def isInt (t : Nat) : Bool := decide (1 ≤ t ∧ t ≤ 8)

/-- A source of CVT: an integer of its type, or a floating code (R136). -/
def sourceOf (t x : Nat) : Val :=
  if isInt t then (let v := valueOf (intSigned t) (BitVec.ofNat (intWidth t) x); .fin (decide (v < 0)) v.natAbs 1 0)
  else (fmtOf t).widen (elemOf t x 0)

/-- A value converted to an integer type (R73): rounded, clamped; a NaN gives 0, an infinity its end. INV, INX. -/
def toInteger (t rm k rho : Nat) (v : Val) : Nat × Bool × Bool :=
  let w := intWidth t
  let sg := intSigned t
  let lo : Int := if sg then -2 ^ (w - 1) else 0
  let hi : Int := if sg then 2 ^ (w - 1) - 1 else 2 ^ w - 1
  match ratOf v with
  | some x =>
    let m := wholeOf rm k rho x
    (toLane sg (BitVec.ofInt w (max lo (min m hi))), decide (m < lo ∨ hi < m), decide (((max lo (min m hi) : Int) : Rat) ≠ x))
  | none => (if v.isNan then 0 else toLane sg (BitVec.ofInt w (if v.neg? then lo else hi)), true, !v.isNan)

/-- A value converted to any type, with INV and INX. A NaN keeps its source's sign (R68). -/
def converted (u : Issuer) (t : Nat) (sat : Bool) (rm : BitVec 3) (k rho : Nat) (v : Val) (snan : Bool) : Nat × Bool × Bool :=
  if isInt t then toInteger t (rmOf u rm) k rho v
  else (let r := (fmtOf t).deliver (sat || u.slot.fmt.getLsbD 19) (rmOf u rm) k rho v; (r.1, snan, r.2.inx))

/-- CVT's floating types (R134). -/
def cvtFloats : List Nat := [9, 10, 11, 12, 13, 14]

/-- The value of an ordinary element code of a block. -/
def e2m1Of (c : Nat) : Rat := (if 8 ≤ c then -1 else 1) * (([0, 1, 2, 3, 4, 6, 8, 12].getD (c % 8) 0 : Nat) : Rat) / 2

end Sys2Proof.Claims

/-- CVT, CVTP and CVTX (R134, R136, R137, R139): each value once rounded to the destination type, integers clamped, PD on INV or INX. -/
def Obligations.Conversions : Prop :=
  (∀ f : VR, let t := f.t.toNat; let w := f.u.toNat; (isInt t ∨ cvtFloats.contains t) → (isInt w ∨ cvtFloats.contains w) →
    let x := fun s u l => u.opA (State.turn s) f (typeRegs w) l
    let r := fun s u l => converted u t f.sat f.rm 32 (State.random s u f l % 2 ^ 32) (sourceOf w (x s u l)) (!isInt w && signals w (x s u l) 0)
    floats (.cvt f) f t (fun s u l _ => (r s u l).1) (fun s u l _ => (r s u l).2.1 || (r s u l).2.2)) ∧
  (∀ f : VR, [(16, 9), (17, 9)].contains (f.t.toNat, f.u.toNat) → let t := f.t.toNat
    let x := fun s u l j => if j = 0 then u.opA (State.turn s) f 1 l else u.opB (State.turn s) f 1 l
    let r := fun s u l j => converted u t f.sat f.rm 16 (State.random s u f l / 2 ^ (16 * j) % 2 ^ 16) (sourceOf 9 (x s u l j)) (signals 9 (x s u l j) 0)
    floats (.cvtp f) f t (fun s u l j => (r s u l j).1) (fun s u l j => (r s u l j).2.1 || (r s u l j).2.2)) ∧
  (∀ (f : VR) s u, s.issuer? = some u → (f.t.toNat = 13 ∨ f.t.toNat = 14) → (f.u.toNat = 9 ∨ f.u.toNat = 16 ∨ f.u.toNat = 17) →
    let t := f.t.toNat; let w := f.u.toNat; let part := partOf s u f.toCommon; let n := if w = 9 then 2 else 4
    let x := fun l j => if 2 * j < n then u.opA (State.turn s) f 1 l else u.opB (State.turn s) f 1 l
    let r := fun l j => converted u t f.sat f.rm 32 (State.random s u f l % 2 ^ 32) ((fmtOf w).widen (elemOf w (x l j) (j % 2))) (signals w (x l j) (j % 2))
    ∃ s', exec (.cvtp f) s = .next s' ∧ Wrote s s' u (both
      (laneVal part f.d.toNat 1 (fun l => ((List.range n).map (fun j => (r l j).1 * 2 ^ (8 * j))).sum))
      (predVal part f.pd.toNat (fun l => (List.range n).any (fun j => (r l j).2.1 || (r l j).2.2))))) ∧
  (∀ f : VR, [9, 11, 12].contains f.t.toNat → let t := f.t.toNat
    let byte := fun s u i => ((BitVec.ofNat 32 (u.opA (State.turn s) f 1 (i / 4))).extractLsb' (8 * (i % 4)) 8).toNat
    let x := fun s u l => decodeE2M1 (byte s u (l / 2) / 16 ^ (l % 2) % 16) (byte s u 17) (byte s u 16) (u.slot.fmt.getLsbD 18)
    let r := fun s u l => converted u t f.sat f.rm 32 (State.random s u f l % 2 ^ 32) (x s u l) false
    floats (.cvtx f) f t (fun s u l _ => (r s u l).1) (fun s u l _ => (r s u l).2.1 || (r s u l).2.2))

/-- CVTB (R77, R138): lanes 0 to 3 of D take the element codes, lane 4 SPEC and SCALE, the rest 0; a block with an infinity or NaN is zeros
under SCALE FFH with INV; else SCALE comes from the greatest magnitude, and with nearest rounding and no special every element takes a nearest
code of its value over that scale. -/
def Obligations.BlockQuantise : Prop :=
  (∀ (f : VR) s u, s.issuer? = some u → let part := partOf s u f.toCommon
    let low := (List.range 32).find? (fun l => part.getLsbD l)
    let b := quantise (rmOf u f.rm) (u.slot.fmt.getLsbD 18) (u.opB s.turn f 1 (low.getD 0) % 256)
      ((List.range 32).map (fun l => (if part.getLsbD l then u.opA s.turn f 1 l else 0, State.random s u f l)))
    ∃ s', exec (.cvtb f) s = .next s' ∧ Wrote s s' u (both (laneVal part f.d.toNat 1 (fun l =>
        if l < 4 then ((List.range 8).map (fun j => b.codes.getD (8 * l + j) 0 * 16 ^ j)).sum else if l = 4 then b.spec * 256 + b.scale else 0))
      (predVal part f.pd.toNat (fun _ => b.conds.inv || b.conds.inx)))) ∧
  (∀ rm bspe spec (xs : List (Nat × Nat)), xs.length = 32 → (∃ x ∈ xs, ratOf ((fmtOf 9).widen x.1) = none) →
    quantise rm bspe spec xs = { codes := List.replicate 32 0, scale := 255, spec := 0, conds := { Conds.none with inv := true } }) ∧
  (∀ rm spec (xs : List (Nat × Nat)) (vs : List Rat), rm = 0 ∨ rm = 4 → xs.length = 32 → xs.map (fun x => ratOf ((fmtOf 9).widen x.1)) = vs.map some →
    let b := quantise rm false spec xs; let unit := (2 : Rat) ^ ((b.scale : Int) - 127)
    b.codes.length = 32 ∧ b.spec = 0 ∧ (∀ c ∈ b.codes, c < 16) ∧ b.conds.inv = false ∧
    (∀ p ∈ vs.zip b.codes, ∀ c, c < 16 → magOf (p.1 - e2m1Of p.2 * unit) ≤ magOf (p.1 - e2m1Of c * unit)) ∧
    (b.conds.inx = true ↔ ∃ p ∈ vs.zip b.codes, p.1 ≠ e2m1Of p.2 * unit) ∧
    ((∀ v ∈ vs, v = 0) → b.scale = 127) ∧
    ((∃ v ∈ vs, v ≠ 0) → b.scale ≤ 254 ∧ (∀ v ∈ vs, b.scale < 254 → magOf v < 8 * unit) ∧ (0 < b.scale → ∃ v ∈ vs, 4 * unit ≤ magOf v)))
namespace Sys2Proof.Claims

/-! ## Memory -/

/-- The offset of a lane's global access (R142): OW takes 16 more bits from the next register; DISP is signed; 48 bits. -/
def globalAt (s : State) (u : Issuer) (f : MF) (l : Nat) : Nat :=
  (((if f.ow then (u.g.rdV s.turn 1 (f.a.toNat + 1) l).setWidth 16 else 0#16) ++ (u.g.rdV s.turn 1 f.a.toNat l).setWidth 32) +
    f.disp.signExtend 48).toNat

/-- The offset of a uniform access (R142). -/
def uniformAt (s : State) (u : Issuer) (f : MF) : Nat := ((u.g.rdS u.slot s.turn 1 f.a.toNat).setWidth 48 + f.disp.signExtend 48).toNat

/-- The scratchpad address of a lane, exact (R144); below zero it names a place beyond every allotment. -/
def padAt (s : State) (u : Issuer) (f : MF) (l : Nat) : Int := ((u.g.rdV s.turn 1 f.a.toNat l).toNat : Int) + f.disp.toInt

/-- The registers of a lane that a value of a size fills (R145): one up to four bytes, then two, four. -/
def filled (f : MF) (l : Nat) : List Cell :=
  (List.range (if f.sz.toNat ≤ 2 then 1 else if f.sz.toNat = 3 then 2 else 4)).map (fun i => Cell.v (f.d.toNat + i) l)

/-- What a lane asks for. -/
def loadLane (f : MF) (l a : Nat) : LaneOp := { lane := l, addr := a, data := 0, extra := 0, result := none, cells := filled f l }

/-- What a lane stores: the low bytes of its registers. -/
def storeLane (s : State) (u : Issuer) (f : MF) (l a : Nat) : LaneOp :=
  { lane := l, addr := a, extra := 0, result := none, cells := []
    data := u.g.rdWide s.turn 2 f.d.toNat l (filled f l).length % 2 ^ (8 * 2 ^ f.sz.toNat) }

/-- What an atomic carries: its operand, the swap value of cas, and the registers of the old value where it returns one. -/
def atomicLane (s : State) (u : Issuer) (f : MF) (cas ret : Bool) (l a : Nat) : LaneOp :=
  let n := (filled f l).length
  { lane := l, addr := a, data := u.g.rdWide s.turn 2 f.c.toNat l n, result := none
    extra := if cas then u.g.rdWide s.turn 2 (f.c.toNat + n) l n else 0, cells := if ret then filled f l else [] }

/-- The access that an instruction counts on its path (R17, R38), done at once where no lane takes part (R150). -/
structure Counted (s : State) (u : Issuer) (path : Path) (loads stores : Bool) (part : Mask) (dest : List Cell) (a : Access) : Prop where
  issued : a.slot = u.name ∧ a.pc = u.slot.pc ∧ a.turn = s.turn
  path : a.path = path ∧ a.loads = loads ∧ a.stores = stores
  lanes : a.lanes = part ∧ a.dest = dest
  state : a.done = decide (part = 0) ∧ a.fail = none

/-- A global access comes under way: it is counted, each lane stands in one request of the line it names (R365), no register, byte or other
group changes, and the slot goes on. -/
def Asked (s t : State) (u : Issuer) (f : MF) (path : Path) (loads stores : Bool) (kind : ReqKind) (need : BitVec 5) (part : Mask)
    (op : Nat → LaneOp) : Prop :=
  ∃ (a : Access) (new : List Req), Counted s u path loads stores part (((List.range 32).filter (fun l => part.getLsbD l)).flatMap (fun l => (op l).cells)) a ∧
    t.group? u.g.id = some (({ u.g with accs := u.g.accs ++ [a] }.fall).setSlot u.name u.slot.advance) ∧
    (∀ i, i ≠ u.g.id → t.group? i = s.group? i) ∧ t.reqs = s.reqs ++ new ∧
    (∀ r ∈ new, r.acc = a.id ∧ r.gid = u.g.id ∧ r.core = u.g.core ∧ r.cid = u.g.cid ∧ r.turn = s.turn ∧ r.kind = kind ∧ r.need = need ∧
      r.k = u.g.rdK s.turn 3 (f.u.toNat - 192) ∧ r.k0 = r.k ∧ r.off = r.off0 ∧ ∀ o ∈ r.lanes, o.addr / 128 * 128 = r.off0) ∧
    new.Pairwise (fun x y => x.off0 ≠ y.off0) ∧
    (∀ l, l < 32 → (new.flatMap (·.lanes)).filter (fun o => o.lane == l) = if part.getLsbD l then [op l] else []) ∧
    (∀ c, t.core c = { s.core c with seq := (t.core c).seq }) ∧
    { t with groups := s.groups, reqs := s.reqs, nextId := s.nextId, cores := s.cores } = s

/-- A scratchpad access comes under way as one request of all its lanes to one core. -/
def PadAsked (s t : State) (u : Issuer) (f : MF) (path : Path) (loads stores : Bool) (kind : ReqKind) (part : Mask) (op : Nat → LaneOp) : Prop :=
  ∃ (a : Access) (new : List SpReq), Counted s u path loads stores part (((List.range 32).filter (fun l => part.getLsbD l)).flatMap (fun l => (op l).cells)) a ∧
    t.group? u.g.id = some (({ u.g with accs := u.g.accs ++ [a] }.fall).setSlot u.name u.slot.advance) ∧
    (∀ i, i ≠ u.g.id → t.group? i = s.group? i) ∧ t.spReqs = s.spReqs ++ new ∧
    (part = 0 → new = []) ∧ (part ≠ 0 → ∃ r, new = [r] ∧ r.acc = a.id ∧ r.gid = u.g.id ∧ r.turn = s.turn ∧ r.kind = kind ∧ r.left = part ∧
      r.target = (if f.spc.toNat = 2 then u.g.core / 4 * 4 + (u.g.core + f.peer.toNat) % 4 else u.g.core) ∧
      (r.base, r.allot) = s.allot r.target u.g.block ∧
      r.lanes = ((List.range 32).filter (fun l => part.getLsbD l)).map op) ∧
    { t with groups := s.groups, spReqs := s.spReqs, nextId := s.nextId } = s

/-- Nothing holds a release access back (R265, R17, R39): what it covers has succeeded and is performed at its scope. -/
def ReleaseFree (s : State) (u : Issuer) (f : MF) (path : Path) : Prop :=
  let turn := (u.slot.wait.map (·.turn)).getD s.turn
  oldestFailed (u.g.fenced false true turn) = none ∧ s.fenceHolds u.g false true f.scp.toNat turn = true ∧ u.g.counter path ≠ 63 ∧
    (path = .sp ∨ (s.freeLog u.g).isSome)

/-- No lane is misaligned for its size (R145). -/
def aligned (f : MF) (part : Mask) (at_ : Nat → Int) : Prop := ∀ l, l < 32 → part.getLsbD l → at_ l % (2 ^ f.sz.toNat : Nat) = 0

/-- The lowest misaligned lane. -/
def firstOff (f : MF) (part : Mask) (at_ : Nat → Int) (l : Nat) : Prop :=
  l < 32 ∧ part.getLsbD l ∧ at_ l % (2 ^ f.sz.toNat : Nat) ≠ 0 ∧ ∀ k, k < l → part.getLsbD k → at_ k % (2 ^ f.sz.toNat : Nat) = 0

/-- ORD release, acq_rel or sc (R265). -/
def releasing (f : MF) : Prop := f.ord.toNat = 3 ∨ f.ord.toNat = 4 ∨ f.ord.toNat = 5

/-- A release form that something holds back, with no error to deliver, parks as FENCE.release at its own SCP does (R150, R265). -/
def Waits (i : Instr) (f : MF) (path : Path) (s : State) (u : Issuer) : Prop :=
  oldestFailed (u.g.fenced false true s.turn) = none → ¬ ReleaseFree s u f path → u.slot.wait = none →
    ∃ t, exec i s = .next t ∧ Becomes s t u (parked s u i [] (.fence false true f.scp.toNat s.turn))

/-- A per-lane global instruction: MISALIGN at the lowest misaligned lane; a release form that some lane makes parks until nothing holds it; else the
access is under way. -/
def globalForm (i : Instr) (f : MF) (path : Path) (loads stores : Bool) (kind : ReqKind) (need : BitVec 5) (op : State → Issuer → Nat → Nat → LaneOp) : Prop :=
  ∀ s u, s.issuer? = some u → let part := partOf s u f.toCommon; let at_ := fun l => (globalAt s u f l : Int)
    (∀ l, firstOff f part at_ l → mayTrap s u → raises i s u 8 (BitVec.ofNat 64 l)) ∧
    (aligned f part at_ → stores = true → releasing f → part ≠ 0 → Waits i f path s u) ∧
    (aligned f part at_ → (stores = true → releasing f → part ≠ 0 → ReleaseFree s u f path) →
      ∃ t, exec i s = .next t ∧ Asked s t u f path loads stores kind need part (fun l => op s u l (globalAt s u f l)))

/-- A scratchpad instruction likewise. -/
def padForm (i : Instr) (f : MF) (path : Path) (loads stores : Bool) (kind : ReqKind) (op : State → Issuer → Nat → Nat → LaneOp) : Prop :=
  ∀ s u, s.issuer? = some u → let part := partOf s u f.toCommon
    (∀ l, firstOff f part (padAt s u f) l → mayTrap s u → raises i s u 8 (BitVec.ofNat 64 l)) ∧
    (aligned f part (padAt s u f) → stores = true → releasing f → part ≠ 0 → Waits i f path s u) ∧
    (aligned f part (padAt s u f) → (stores = true → releasing f → part ≠ 0 → ReleaseFree s u f path) →
      ∃ t, exec i s = .next t ∧ PadAsked s t u f path loads stores kind part
        (fun l => op s u l (if padAt s u f l < 0 then 2 ^ 40 else (padAt s u f l).toNat)))

/-- A uniform instruction: one request of the group under its guard (R148). -/
def uniformForm (i : Instr) (f : MF) (path : Path) (loads stores : Bool) (kind : ReqKind) (need : BitVec 5) (op : State → Issuer → Nat → LaneOp) : Prop :=
  ∀ s u, s.issuer? = some u → let takes := u.g.uniformGuard s.turn f.toCommon; let a := uniformAt s u f
    (takes → a % 2 ^ f.sz.toNat ≠ 0 → mayTrap s u → raises i s u 8 0) ∧
    (takes → a % 2 ^ f.sz.toNat = 0 → stores = true → releasing f → Waits i f path s u) ∧
    ((takes → a % 2 ^ f.sz.toNat = 0) → (stores = true → releasing f → takes → ReleaseFree s u f path) →
      ∃ t, exec i s = .next t ∧ Asked s t u f path loads stores kind need (if takes then 1 else 0) (fun _ => op s u a))

/-- The bits of the rights R, W, A, U in a mask (R246). -/
def rights : List (BitVec 5) := [rightR, rightW, rightA, rightU]

/-- The operations of the atomics, by the order of their opcodes (R154). -/
def atomOps : List (AtomOp × (MF → Instr) × (MF → Instr)) :=
  [(.add, .atomAdd, .atomsAdd), (.and, .atomAnd, .atomsAnd), (.or, .atomOr, .atomsOr), (.xor, .atomXor, .atomsXor),
   (.minS, .atomMinS, .atomsMinS), (.maxS, .atomMaxS, .atomsMaxS), (.minU, .atomMinU, .atomsMinU), (.maxU, .atomMaxU, .atomsMaxU),
   (.exch, .atomExch, .atomsExch), (.cas, .atomCas, .atomsCas), (.inc, .atomInc, .atomsInc), (.dec, .atomDec, .atomsDec),
   (.fadd, .atomFadd, .atomsFadd)]

/-- The reductions (R158). -/
def redOps : List (AtomOp × (MF → Instr)) :=
  [(.add, .redAdd), (.and, .redAnd), (.or, .redOr), (.xor, .redXor), (.minS, .redMinS), (.maxS, .redMaxS), (.minU, .redMinU), (.maxU, .redMaxU),
   (.fadd, .redFadd)]

/-- The update-only writes by tag (R159). -/
def updOps : List (Nat × (MF → Instr)) :=
  [(1, .updIadd32), (2, .updIadd64), (3, .updFadd32), (4, .updFadd64), (5, .updSmax32), (6, .updSmin32), (7, .updZmax32), (8, .updZmin32),
   (9, .updFmax32), (10, .updFmin32), (11, .updAnd64), (12, .updOr64), (13, .updXor64)]

end Sys2Proof.Claims

/-- LD and ST with zero or sign extension (R142, R145, R147), LDU and STU (R148), PRF (R151): what each lane asks for, MISALIGN, and that nothing else
changes as the access comes under way; LDS and STS (R144): the core named, the block's allotment there, exact addresses. -/
def Obligations.LoadsAndStores : Prop :=
  ((∀ f, globalForm (.ld f) f .ld true false (.load (2 ^ f.sz.toNat) false) rightR (fun _ _ => loadLane f)) ∧
   (∀ f, globalForm (.ldSx f) f .ld true false (.load (2 ^ f.sz.toNat) true) rightR (fun _ _ => loadLane f)) ∧
   (∀ f, globalForm (.st f) f .st false true (.store (2 ^ f.sz.toNat)) rightW (fun s u => storeLane s u f)) ∧
   (∀ (f : MF) (sx : Bool), uniformForm (if sx then .lduSx f else .ldu f) f .ld true false (.load (2 ^ f.sz.toNat) sx) rightR (fun _ u a =>
     { lane := 0, addr := a, data := 0, extra := 0, result := none, cells := [.s (sName u.slot f.d.toNat)] })) ∧
   (∀ f, uniformForm (.stu f) f .st false true (.store (2 ^ f.sz.toNat)) rightW (fun s u a =>
     { lane := 0, addr := a, data := (u.g.rdS u.slot s.turn 2 f.d.toNat).toNat % 2 ^ (8 * 2 ^ f.sz.toNat), extra := 0, result := none, cells := [] })) ∧
   (∀ (f : MF) s u, s.issuer? = some u → let part := partOf s u f.toCommon
     ∃ t, exec (.prf f) s = .next t ∧ Asked s t u f .ld false false .prf rightR part
       (fun l => { lane := l, addr := globalAt s u f l, data := 0, extra := 0, result := none, cells := [] }))) ∧
  ((∀ (f : MF) (sx : Bool), padForm (if sx then .ldsSx f else .lds f) f .sp true false (.load (2 ^ f.sz.toNat) sx) (fun _ _ => loadLane f)) ∧
   (∀ f, padForm (.sts f) f .sp false true (.store (2 ^ f.sz.toNat)) (fun s u => storeLane s u f)))

/-- ATOM, ATOMS, RED and UPD (R154, R157, R158, R159): each operation is asked for at its address with its operands, on the at path. -/
def Obligations.AtomicAccesses : Prop :=
  (∀ e ∈ atomOps, ∀ f, globalForm (e.2.1 f) f .atom true true (.atom e.1 (2 ^ f.sz.toNat)) rightA (fun s u => atomicLane s u f (e.1 == .cas) true)) ∧
  (∀ e ∈ atomOps, ∀ f, padForm (e.2.2 f) f .atom true true (.atom e.1 (2 ^ f.sz.toNat)) (fun s u => atomicLane s u f (e.1 == .cas) true)) ∧
  (∀ e ∈ redOps, ∀ f, globalForm (e.2 f) f .atom false true (.red e.1 (2 ^ f.sz.toNat)) rightA (fun s u => atomicLane s u f false false)) ∧
  (∀ e ∈ updOps, ∀ f, globalForm (e.2 f) f .atom false true (.upd e.1) rightU (fun s u => atomicLane s u f false false))

/-- The value an atomic leaves (R154), at 32 or 64 bits, in bit-vector arithmetic; a reduction and an update leave the same. -/
def Obligations.AtomicValues : Prop :=
  (∀ (w : Nat) (x y z : BitVec w), w = 32 ∨ w = 64 → let new := fun (o : AtomOp) => o.new w x.toNat y.toNat z.toNat
    new .add = (x + y).toNat ∧ new .and = (x &&& y).toNat ∧ new .or = (x ||| y).toNat ∧ new .xor = (x ^^^ y).toNat ∧
    new .minS = (if y.slt x then y else x).toNat ∧ new .maxS = (if x.slt y then y else x).toNat ∧
    new .minU = min x.toNat y.toNat ∧ new .maxU = max x.toNat y.toNat ∧ new .exch = y.toNat ∧
    new .cas = (if x = y then z else x).toNat ∧ new .inc = (if x.ult y then x + 1 else 0).toNat ∧
    new .dec = (if x = 0 ∨ y.ult x then y else x - 1).toNat) ∧
  (∀ (x y : BitVec 32), updOp 1 x.toNat y.toNat = (x + y).toNat ∧ updOp 5 x.toNat y.toNat = (if x.slt y then y else x).toNat ∧
    updOp 6 x.toNat y.toNat = (if y.slt x then y else x).toNat ∧ updOp 7 x.toNat y.toNat = max x.toNat y.toNat ∧
    updOp 8 x.toNat y.toNat = min x.toNat y.toNat) ∧
  (∀ (x y : BitVec 64), updOp 2 x.toNat y.toNat = (x + y).toNat ∧ updOp 11 x.toNat y.toNat = (x &&& y).toNat ∧
    updOp 12 x.toNat y.toNat = (x ||| y).toNat ∧ updOp 13 x.toNat y.toNat = (x ^^^ y).toNat) ∧
  (∀ tag x, 1 ≤ tag → tag ≤ 13 → x < 2 ^ updWidth tag → tag ∉ [3, 4, 9, 10] → updOp tag (updIdentity tag) x = x)

/-- FENCE (R162), CCTL (R153) and MHINT (R152): a fence with nothing to wait for goes on, and its acquire side applies the pending
invalidations; CCTL.inv and CCTL.invall leave no copy of the lines named or of the context, CCTL.wb none that is dirty; MHINT's record. -/
def Obligations.FencesAndCacheControl : Prop :=
  (∀ (f : MF) s u, s.issuer? = some u → let acq := f.ord.toNat != 3; let rel := f.ord.toNat != 2; let turn := (u.slot.wait.map (·.turn)).getD s.turn
    (oldestFailed (u.g.fenced acq rel turn) = none → s.fenceHolds u.g acq rel f.scp.toNat turn = true →
      ∃ t, exec (.fence f) s = .next t ∧
        t.group? u.g.id = some (({ u.g with relTurn := if rel then turn else u.g.relTurn }).setSlot u.name u.slot.advance) ∧ (acq = false → GroupOnly s t u.g.id) ∧
        (acq = true → ∀ l ∈ s.l1, l.core = u.g.core → l.old.isSome → ∀ m ∈ t.l1, ¬ m.same l)) ∧
    (oldestFailed (u.g.fenced acq rel turn) = none → s.fenceHolds u.g acq rel f.scp.toNat turn = false → u.slot.wait = none →
      ∃ t, exec (.fence f) s = .next t ∧ Becomes s t u (parked s u (.fence f) [] (.fence acq rel f.scp.toNat s.turn)))) ∧
  (∀ (f : MF) s u, s.issuer? = some u → let part := partOf s u f.toCommon
    let names := fun (m : L1Line) => ∃ l, l < 32 ∧ part.getLsbD l ∧ m.cid = u.g.cid ∧ m.k = u.g.rdK s.turn 3 (f.u.toNat - 192) ∧
      m.off = globalAt s u f l / 128 * 128 ∧ m.core = s.l1For u.g.core m.off
    (∃ t, exec (.cctlInv f) s = .next t ∧ t.group? u.g.id = some (u.g.setSlot u.name u.slot.advance) ∧
      (s.l1.Pairwise (fun x y => ¬ x.same y) → ∀ m ∈ t.l1, ¬ names m)) ∧
    (∃ t, exec (.cctlWb f) s = .next t ∧ t.group? u.g.id = some (u.g.setSlot u.name u.slot.advance) ∧
      (s.l1.Pairwise (fun x y => ¬ x.same y) → ∀ m ∈ t.l1, names m → m.dirty = [])) ∧
    (∃ t, exec (.cctlInvall f) s = .next t ∧ t.group? u.g.id = some (u.g.setSlot u.name u.slot.advance) ∧
      ∀ m ∈ t.l1, ¬ (m.cid = u.g.cid ∧ s.sharesL1 u.g.core m.core))) ∧
  (∀ (f : MF) s u, s.issuer? = some u → ∃ t, exec (.mhint f) s = .next t ∧ t.group? u.g.id = some (u.g.setSlot u.name u.slot.advance) ∧
    (∀ l s' a m, partOf s u f.toCommon = BitVec.twoPow 32 l → l < 32 → s.resolve u.g.cid u.g.core (u.g.core / 128) (u.g.rdK s.turn 3 (f.u.toNat - 192))
        (globalAt s u f l) 0 = (s', .lands a) → remoteOf a.addr = some m → f.ch ≠ 0 → (u.g.rdV s.turn 2 f.c.toNat l).toNat ≠ 0 → 0 < a.room →
      ∀ r ∈ t.remotes, r.id = m → r.pool → ∃ r0 ∈ s'.remotes, r0.id = m ∧
        r.hints = (r0.hints ++ [(a.addr / 4096 * 4096, min (4096 * (u.g.rdV s.turn 2 f.c.toNat l).toNat) (a.room + a.addr % 4096), f.ch.toNat)]).drop
          (r0.hints.length + 1 - 4096)))
namespace Sys2Proof.Claims

/-! ## The matrix array -/

/-- A matrix operation is queued on the owner's array and counted in mx (R176, R178); no register, byte or other array changes. -/
def MxQueued (s t : State) (u : Issuer) (part : Mask) (dest : List Cell) (op : Nat → MxOp) : Prop :=
  ∃ a : Access, Counted s u .mx false false part dest a ∧
    t.group? u.g.id = some (({ u.g with accs := u.g.accs ++ [a] }.fall).setSlot u.name u.slot.advance) ∧
    (∀ i, i ≠ u.g.id → t.group? i = s.group? i) ∧
    t.matrix u.g.core = { s.matrix u.g.core with ops := (s.matrix u.g.core).ops ++ [op a.id] } ∧
    (∀ c, t.core c = { s.core c with matrix := t.matrix c }) ∧ (∀ c, c ≠ u.g.core → t.matrix c = s.matrix c) ∧
    { t with groups := s.groups, cores := s.cores, nextId := s.nextId } = s

/-- The operation completes at once for no lane, and is queued for some. -/
def mxForm (i : Instr) (f : MX) (s : State) (u : Issuer) (dest : Mask → List Cell) (op : Mask → Nat → MxOp) : Prop :=
  let part := partOf s u f.toCommon
  (part = 0 → ∃ t, exec i s = .next t ∧ Becomes s t u (u.g.setSlot u.name u.slot.advance)) ∧
  (part ≠ 0 → ∃ t, exec i s = .next t ∧ MxQueued s t u part (dest part) (op part))

/-- The selector S[u] of a tile names one of the owner's (R179): row block below 4, or below 8 for a pair; column block below 4. -/
def tileOk (s : State) (u : Issuer) (f : MX) : Prop :=
  let v := u.g.rdS u.slot s.turn 2 f.u.toNat
  v >>> 5 = 0 ∧ (v.getLsbD 2 = true → s.ownsPair u.g)

/-- The rows of a slice that a group supplies: `n` registers of each lane (R171). -/
def rowsOf (g : Group) (turn reg n : Nat) : List (List Word) :=
  (List.range 32).map (fun l => (List.range n).map (fun i => g.rdV turn 5 (reg + i) l))

/-- A slice as the latch keeps it (R177): a copy of the rows; one taken from the registers is named by the operation that took it. -/
def latched (op : Nat) (e : Nat × ASlice) : Nat × ASlice := (e.1, { e.2 with turn := 0, op := if e.2.turn = 0 then e.2.op else op })

/-- The accumulator word of a bank (R173). -/
def accWord (s : State) (core bank row col : Nat) : Word := Sparse.get (s.matrix core).acc (bank * 16384 + 128 * row + col)

/-- The core whose array holds the rows of a position or row block: the owner's for 0 to 3, the other of its pair for 4 to 7. -/
def rowsAt (core p : Nat) : Nat := if p < 4 then core else if core % 2 = 0 then core + 1 else core - 1

/-- The oldest operation of a core's array is about to retire: the core runs, the owner is live, no word is poisoned and no register of
the owner was written since. -/
def mayRetire (s : State) (core : Nat) (g : Group) (o : MxOp) (rest : List MxOp) : Prop :=
  s.args = [core] ∧ (s.matrix core).ops = o :: rest ∧ (s.matrix core).owner = some g.id ∧ s.group? g.id = some g ∧ g.core = core ∧
    s.coreRuns core = true ∧ g.live = true ∧ g.late = [] ∧ g.wrote = [] ∧ ∀ c, (s.matrix c).bad = []

end Sys2Proof.Claims

/-- MXACQ and MXREL (R168 to R170): a free array that no resumed block is owed is granted with its roster, the accumulators of another context zeroed; a
pair request takes both; an owner or an illegal roster raises UNDEF, a taken array parks; MXREL frees an idle array. Without the array MXREL and MXTEST
raise UNDEF, and so does every other instruction that needs it where some lane takes part; those with no lane only go on, owner or not (R13, R167). -/
def Obligations.MatrixOwnership : Prop :=
  (∀ (f : MX) (pair : Bool) s u, s.issuer? = some u → u.slot.wait = none → f.pair = pair →
    let i := (if pair then Instr.mxacqPair f else Instr.mxacq f); let c := u.g.core; let o := rowsAt c 4
    let r := u.g.rdS u.slot s.turn 1 f.u.toNat
    (s.owns u.g c ∨ ¬ rosterOk u.g r pair → mayTrap s u → raises i s u 1 0) ∧
    (rosterOk u.g r pair → (s.matrix c).owner = none → (s.matrix c).fifo = [] → (s.matrix c).reserved = none →
      (s.matrix o).owner = none → (s.matrix o).fifo = [] → (∀ b ∈ s.blocks, ∀ e ∈ b.owed, e.1 / 2 ≠ c / 2) → ∃ t, exec i s = .next t ∧
        t.group? u.g.id = some (u.g.setSlot u.name u.slot.advance) ∧ (t.matrix c).owner = some u.g.id ∧ (t.matrix c).roster = r ∧
        (t.matrix c).pair = pair ∧ (pair = true → (t.matrix o).owner = some u.g.id) ∧ (pair = false → t.matrix o = s.matrix o) ∧
        (t.matrix c).acc = (if (s.matrix c).ownerCid = u.g.cid then (s.matrix c).acc else [])) ∧
    (rosterOk u.g r pair → (∃ gid, (s.matrix c).owner = some gid ∧ gid ≠ u.g.id) → ∃ t, exec i s = .next t ∧
      t.group? u.g.id = some (parked s u i [r.toNat] .granted))) ∧
  (∀ (f : MX) s u, s.issuer? = some u → s.owns u.g u.g.core → (s.matrix u.g.core).ops = [] → ∃ t, exec (.mxrel f) s = .next t ∧
    (∃ h, t.group? u.g.id = some h ∧ h.slot u.name = u.slot.advance ∧ ∀ c : Cell, h.peek c = u.g.peek c) ∧
    ((s.matrix u.g.core).fifo = [] → (s.matrix (rowsAt u.g.core 4)).fifo = [] → (∀ b ∈ s.blocks, ∀ e ∈ b.owed, e.1 / 2 ≠ u.g.core / 2) → (t.matrix u.g.core).owner = none ∧
      (t.matrix u.g.core).ready = [] ∧ (t.matrix u.g.core).latch = none)) ∧
  (∀ (f : MX) s u, s.issuer? = some u → u.slot.wait = none → s.owns u.g u.g.core = false → mayTrap s u →
    raises (.mxrel f) s u 1 0 ∧ raises (.mxtest f) s u 1 0 ∧
    (partOf s u f.toCommon ≠ 0 → raises (.mma f) s u 1 0 ∧ raises (.mmab f) s u 1 0 ∧ raises (.mxrd f) s u 1 0 ∧ raises (.mxwr f) s u 1 0 ∧
      raises (.mxzero f) s u 1 0 ∧ raises (.mxst f) s u 1 0)) ∧
  (∀ (f : MX) s u, s.issuer? = some u → u.slot.wait = none → s.ownsPair u.g = false → f.pair = true → mayTrap s u →
    raises (.mxtest f) s u 1 0 ∧
    (partOf s u f.toCommon ≠ 0 → raises (.mma f) s u 1 0 ∧ raises (.mmab f) s u 1 0 ∧ raises (.mxzero f) s u 1 0 ∧ raises (.mxst f) s u 1 0)) ∧
  (∀ (f : MX) s u, s.issuer? = some u → partOf s u f.toCommon = 0 →
    ∀ i ∈ [Instr.mma f, .mmab f, .mxrd f, .mxwr f, .mxzero f, .mxst f], ∃ t, exec i s = .next t ∧ Becomes s t u (u.g.setSlot u.name u.slot.advance))

/-- MXRDY, MXWAIT and MXTEST (R175, R178, R182): the slice pending at the array; the wait that an idle group passes, and the error it delivers;
the self-test that parks for 128 ac and then writes S[u]. -/
def Obligations.MatrixFeedsAndWaits : Prop :=
  (∀ (f : MX) s u, s.issuer? = some u → let a := (mxFormats f u.slot.fmt).1; let m := s.matrix u.g.core
    (a ∉ [7, 8, 11, 12, 13, 14, 15] → mayTrap s u → raises (.mxrdy f) s u 1 0) ∧
    (a ∈ [7, 8, 11, 12, 13, 14, 15] → (∀ x ∈ m.ready, x.gid ≠ u.g.id) → ∃ t, exec (.mxrdy f) s = .next t ∧
      t.group? u.g.id = some ({ u.g with feeding := true }.setSlot u.name u.slot.advance) ∧ (∀ i, i ≠ u.g.id → t.group? i = s.group? i) ∧
      t.matrix u.g.core = { m with ready := m.ready ++ [{ gid := u.g.id, reg := f.a.toNat, fmt := a, ks := f.ks.toNat, words := [], turn := s.turn, op := 0 }] } ∧
      (∀ c, c ≠ u.g.core → t.matrix c = s.matrix c) ∧ ∀ b, t.byte b = s.byte b)) ∧
  (∀ (f : MX) s u, s.issuer? = some u →
    (u.g.mxErrors = [] → u.g.counter .mx = 0 → (∀ x ∈ (s.matrix u.g.core).ready, x.gid ≠ u.g.id) →
      ∃ t, exec (.mxwait f) s = .next t ∧ Becomes s t u (u.g.setSlot u.name u.slot.advance)) ∧
    (∀ e pc rest, u.g.mxErrors = (e, pc) :: rest → mayTrap s u → ∃ t h, exec (.mxwait f) s = .next t ∧ t.group? u.g.id = some h ∧
      h.mxErrors = rest ∧ h.peek (.s 193) = 9 ∧ h.peek (.s 195) = u.slot.mask ++ e.lanes ∧ (h.slot u.name).pc = (s.launch u.g).trapPc)) ∧
  (∀ (f : MX) s u, s.issuer? = some u → let now := (s.die (u.g.core / 128)).clock.toNat
    (u.slot.wait = none → s.owns u.g u.g.core → (f.pair = true → s.ownsPair u.g) → ∃ t, exec (.mxtest f) s = .next t ∧
      Becomes s t u (parked s u (.mxtest f) [] (.clockTest (now + 128)))) ∧
    (∀ w ac, u.slot.wait = some w → w.cond = .clockTest ac → ac ≤ now → ∃ t h x, exec (.mxtest f) s = .next t ∧
      t.group? u.g.id = some h ∧ h.slot u.name = u.slot.advance ∧ x < 2 ^ 16 ∧ (f.pair = false → x < 2 ^ 8) ∧
      ∀ c : Cell, h.peek c = if c = .s (sName u.slot f.u.toNat) then BitVec.ofNat 64 x else u.g.peek c))

/-- MXRD, MXWR, MXZERO, MXST, MMA and MMAB as they issue (R174, R176 to R181): with no lane, only the next PC; else the operation is queued on the
array with what it captured; an illegal selector, operand word or format raises UNDEF, a B or an address off 128 bytes MISALIGN. -/
def Obligations.MatrixOperations : Prop :=
  (∀ (f : MX) s u, s.issuer? = some u → s.owns u.g u.g.core → let v := (u.g.rdS u.slot s.turn 2 f.u.toNat).toNat
    (¬ tileOk s u f → partOf s u f.toCommon ≠ 0 → mayTrap s u → raises (.mxrd f) s u 1 0 ∧ raises (.mxwr f) s u 1 0) ∧
    (tileOk s u f → mxForm (.mxrd f) f s u (fun part => ((List.range 32).filter (fun l => part.getLsbD l)).flatMap (fun l =>
          (List.range 32).map (fun j => Cell.v (f.a.toNat + j) l)))
        (fun part acc => .read acc f.acc.toNat f.a.toNat (v % 8) (v / 8) part) ∧
      mxForm (.mxwr f) f s u (fun _ => []) (fun part acc => .write acc f.acc.toNat f.a.toNat (v % 8) (v / 8) part
        (((List.range 32).filter (fun l => part.getLsbD l)).map (fun l => (List.range 32).map (fun j => u.g.rdV s.turn 1 (f.a.toNat + j) l)))))) ∧
  (∀ (f : MX) s u, s.issuer? = some u → s.owns u.g u.g.core → (f.pair = true → s.ownsPair u.g) → let w : DWord := u.g.rdS u.slot s.turn 2 f.u.toNat
    mxForm (.mxzero f) f s u (fun _ => []) (fun _ acc => .zero acc f.acc.toNat f.pair) ∧
    (w >>> 22 = 0 → w.toNat % 128 = 0 → mxForm (.mxst f) f s u (fun _ => []) (fun _ acc => .store acc f.acc.toNat f.t.toNat w.toNat f.pair)) ∧
    (partOf s u f.toCommon ≠ 0 → mayTrap s u → (w >>> 22 ≠ 0 → raises (.mxst f) s u 1 0) ∧
      (w >>> 22 = 0 → w.toNat % 128 ≠ 0 → raises (.mxst f) s u 8 0))) ∧
  (∀ (f : MX) (blocks : Bool) s u, s.issuer? = some u → s.owns u.g u.g.core → (f.pair = true → s.ownsPair u.g) →
    let i := (if blocks then Instr.mmab f else Instr.mma f); let part := partOf s u f.toCommon; let b := u.g.rdS u.slot s.turn 2 f.u.toNat
    let (fa, fb, facc) := mxFormats f u.slot.fmt; let m := s.matrix u.g.core
    let n := (if fa = 15 then 18 else 16) * f.ks.toNat
    (part = 0 → ∃ t, exec i s = .next t ∧ Becomes s t u (u.g.setSlot u.name u.slot.advance)) ∧
    (part ≠ 0 → b >>> 24 ≠ 0 ∨ ¬ formatsOk blocks fa fb facc → mayTrap s u → raises i s u 1 0) ∧
    (part ≠ 0 → b >>> 24 = 0 → formatsOk blocks fa fb facc → (b.setWidth 7) ≠ 0 → mayTrap s u → raises i s u 8 0) ∧
    (part ≠ 0 → b >>> 24 = 0 → formatsOk blocks fa fb facc → (b.setWidth 7) = 0 → m.latch = none →
      (∀ p, 0 < p → p < (if f.pair then 8 else 4) → ∀ x, s.presentAt u.g p = some x → ∃ a, s.pendingSlice x = some a ∧ a.fmt = fa ∧ a.ks = f.ks.toNat) →
      ∃ t a slices, exec i s = .next t ∧ Counted s u .mx false false part [] a ∧
        (∃ h, t.group? u.g.id = some h ∧ h.accs = ({ u.g with accs := u.g.accs ++ [a] }.fall).accs ∧ h.slot u.name = u.slot.advance ∧
          ∀ c : Cell, h.peek c = u.g.peek c) ∧
        (t.matrix u.g.core).ops = m.ops ++ [.product a.id f.acc.toNat fa fb facc f.ks.toNat (u.slot.fmt.getLsbD 18) f.za f.pair b.toNat slices []] ∧
        slices.head? = some (0, { gid := u.g.id, reg := f.a.toNat, fmt := fa, ks := f.ks.toNat, words := rowsOf u.g s.turn f.a.toNat n, turn := s.turn, op := a.id }) ∧
        (∀ p x, 0 < p → p < (if f.pair then 8 else 4) → s.presentAt u.g p = some x → x.wrote = [] →
          ∃ y, (p, y) ∈ slices ∧ y.words = rowsOf x s.turn y.reg n) ∧
        (t.matrix u.g.core).latch = (if f.ru then some (slices.map (latched a.id)) else none) ∧
        ∀ p x, 0 < p → p < (if f.pair then 8 else 4) → s.presentAt u.g p = some x → t.pendingSlice x = none) ∧
    (∀ l, part ≠ 0 → b >>> 24 = 0 → formatsOk blocks fa fb facc → (b.setWidth 7) = 0 → m.latch = some l →
      (∀ e ∈ l, e.1 = 0 ∧ e.2.fmt = fa ∧ e.2.ks = f.ks.toNat) →
      ∃ t a, exec i s = .next t ∧ Counted s u .mx false false part [] a ∧
        (t.matrix u.g.core).ops = m.ops ++ [.product a.id f.acc.toNat fa fb facc f.ks.toNat (u.slot.fmt.getLsbD 18) f.za f.pair b.toNat l []] ∧
        (t.matrix u.g.core).latch = if f.ru then some (l.map (latched a.id)) else none))

/-- MX_OP_RETIRE (R171 to R173, R176, R179 to R181): the oldest operation leaves the array and does its effect: MXRD's registers in the lanes that have
not retired (R88), MXWR's and MXZERO's bank words, MXST's words in the allotment where T is b32, the products of every position whose slice nobody wrote
and whose B nobody stored to since it issued. -/
def Obligations.MatrixRetirement : Prop :=
  ∀ s core g o rest, mayRetire s core g o rest → ∃ t, exec .mxOpRetire s = .next t ∧ (t.matrix core).ops.map MxOp.access = rest.map MxOp.access ∧
    ((∀ acc bank ty addr pair, o ≠ .store acc bank ty addr pair) → (t.matrix core).ops = rest) ∧
    (t.matrix core).count = (s.matrix core).count + 1 ∧
    (∀ acc bank reg rb cb lanes, o = .read acc bank reg rb cb lanes → ∃ h, t.group? g.id = some h ∧ ∀ c : Cell, c.valid → h.peek c =
      (match c with
        | .v r l => if lanes.getLsbD l ∧ g.lanes.getLsbD l ∧ reg ≤ r ∧ r < reg + 32 then (accWord s (rowsAt core rb) bank (32 * (rb % 4) + l) (32 * cb + (r - reg))).setWidth 64
            else g.peek c
        | _ => g.peek c)) ∧
    (∀ acc bank reg rb cb lanes words, o = .write acc bank reg rb cb lanes words → words.length = (lanesOf lanes).length → (∀ w ∈ words, w.length = 32) →
      ∀ (i l : Nat) (w : List Word), (lanesOf lanes)[i]? = some l → words[i]? = some w → ∀ (j : Nat) (x : Word), w[j]? = some x → accWord t (rowsAt core rb) bank (32 * (rb % 4) + l) (32 * cb + j) = x) ∧
    (∀ acc bank pair, o = .zero acc bank pair → ∀ row col, row < 128 → col < 128 → accWord t core bank row col = 0 ∧
      (pair = true → accWord t (rowsAt core 4) bank row col = 0)) ∧
    (∀ acc bank addr pair, o = .store acc bank 0 addr pair → addr + 65536 ≤ (s.allot core g.block).2 → ∀ row col, row < 128 → col < 128 →
      t.spRead core g.block (addr + 512 * row + 4 * col) 4 = leBytes 4 (accWord s core bank row col).toNat) ∧
    (∀ acc bank fa fb facc ks bsp za pair baddr slices, o = .product acc bank fa fb facc ks bsp za pair baddr slices [] →
      slices.Pairwise (fun x y => x.1 ≠ y.1) → (∀ e ∈ slices, e.1 < 8) →
      let steps := (List.range ks).map (fun st => s.spRead core g.block (baddr % 2 ^ 22 + st * stepBytes fb) (stepBytes fb))
      ∀ e ∈ slices, e.2.words.length = 32 → ∀ l col, l < 32 → col < 128 →
        accWord t (rowsAt core e.1) bank (32 * (e.1 % 4) + l) col = BitVec.ofNat 32 (mxElement facc fa fb ks (baddr / 2 ^ 22 % 4) bsp
          (e.2.words.getD l []) steps col (if za then 0 else (accWord s (rowsAt core e.1) bank (32 * (e.1 % 4) + l) col).toNat)))

/-- One element of a product (R78, R171, R172): for 8-bit integers the accumulator plus the exact sum of products modulo 2^32, the elements
of A and B at their places; for the floating formats each K-step adds its exact sum, rounded, by one rounded addition. -/
def Obligations.MatrixElement : Prop :=
  (∀ t tb ks swz bsp (row : List Word) (b : List (List Byte)) j x, t = 7 ∨ t = 8 → tb = 7 ∨ tb = 8 → ks ≤ 4 → j < 128 → swz < 4 →
    let a := fun st k => valueOf (t == 7) (((row.getD (16 * st + k / 4) 0).extractLsb' (8 * (k % 4)) 8))
    let at_ := fun o => o / 128 * 128 + ((o / 16 % 8) ^^^ (o / 128 % 2 ^ swz)) * 16 + o % 16
    let y := fun st k => valueOf (tb == 7) ((b.getD st []).getD (at_ (128 * k + j)) 0)
    BitVec.ofNat 32 (mxElement 1 t tb ks swz bsp row b j x) = BitVec.ofInt 32 ((x : Int) +
      ((List.range ks).map (fun st => ((List.range 64).map (fun k => a st k * y st k)).sum)).sum)) ∧
  (∀ t tb ks swz bsp (row : List Word) (b : List (List Byte)) j x, t ∈ [11, 12, 13, 14, 15] → mxElement 9 t tb (ks + 1) swz bsp row b j x =
    let sum := stepSum ((List.range (if t = 15 then 128 else if t = 11 ∨ t = 12 then 32 else 64)).map (fun k =>
      (mxVal t bsp (aCode t (ks + 1) row ks k), mxVal tb bsp (bCode tb swz (b.getD ks []) k j))))
    let before := (List.range ks).foldl (fun x st => addStep 9 t tb bsp ((List.range (kPerStep t)).map (fun k =>
      (aCode t (ks + 1) row st k, bCode tb swz (b.getD st []) k j))) x) x
    faddCode 9 before ((fmtOf 9).round 0 0 0 sum).1) ∧
  (∀ ps : List (Val × Val), ps ≠ [] → (∀ p ∈ ps, (ratOf p.1).isSome ∧ (ratOf p.2).isSome) →
    ratOf (stepSum ps) = some ((ps.map (fun p => (ratOf p.1).getD 0 * (ratOf p.2).getD 0)).sum))
namespace Sys2Proof.Claims

/-- One register of the issuing group takes a value that nothing is pending on, the slot goes on, and no other register changes. -/
def Answered (t : State) (u : Issuer) (c : Cell) (x : DWord) : Prop :=
  ∃ h, t.group? u.g.id = some h ∧ RegistersOnly u.g h u.name ∧ h.slot u.name = u.slot.advance ∧
    (∀ turn port, h.read turn port c = x) ∧ ∀ c' : Cell, h.peek c' = if c' = c then x else u.g.peek c'

/-- Nothing but the issuing slot's next PC changed in the issuing group. -/
def Moved (t : State) (u : Issuer) : Prop := t.group? u.g.id = some (u.g.setSlot u.name u.slot.advance)

/-- The S register of a nine-bit operand field, as the issuing slot names it. -/
def sCell (u : Issuer) (n : BitVec 9) : Cell := .s (sName u.slot n.toNat)

/-- An S register as an operand. -/
def sOf (s : State) (u : Issuer) (port : Nat) (n : BitVec 9) : DWord := u.g.rdS u.slot s.turn port n.toNat

/-- A request of the block that has not started lacks the slice of some other live group (R190). -/
def AwaitsSlices (s : State) (u : Issuer) : Prop :=
  ∀ r ∈ s.copyReqs, r.block = u.g.block → r.started = false → r.number ≠ u.g.copies →
    ∃ x ∈ s.blockGroups u.g.block, x.live = true ∧ x.id ≠ u.g.id ∧ x.copies ≤ r.number

end Sys2Proof.Claims

/-- CPY.ld and CPY.st (R189, R190): a descriptor without room in S raises UNDEF; with room at the engine the group's slice stands in the block's
request of that number, with the registers as they were; with none the slot parks. CPSEAL (R193) names the batch in S[d]; CPWAIT (R193, R194)
goes on, or takes COPYFAULT. -/
def Obligations.CopyRequests : Prop :=
  (∀ (f : EF) (st : Bool) s u, s.issuer? = some u → u.slot.wait = none → let i := (if st then Instr.cpySt f else Instr.cpyLd f)
    let room := (s.copyReq? u.g.block u.g.copies).isSome ∨ s.engineQueue (s.blockOctet u.g.block) < 256
    (191 ≤ f.a.toNat → mayTrap s u → raises i s u 1 0) ∧
    (f.a.toNat < 191 → room → AwaitsSlices s u → ∃ t h r x, exec i s = .next t ∧ t.group? u.g.id = some h ∧ h.copies = u.g.copies + 1 ∧
      h.openBatch = u.g.openBatch ++ [r.id] ∧ h.slot u.name = u.slot.advance ∧ (∀ c : Cell, h.peek c = u.g.peek c) ∧
      t.copyReq? u.g.block u.g.copies = some r ∧ x ∈ r.slices ∧ x.gid = u.g.id ∧ x.store = st ∧ x.k = u.g.rdK s.turn 3 (f.u.toNat - 192) ∧
      x.spad = u.g.rdS u.slot s.turn 2 f.b.toNat ∧ x.first = (f.imm.setWidth 16).toNat ∧
      x.rows = (if u.g.uniformGuard s.turn f.toCommon then (f.imm >>> 16).toNat else 0) ∧
      x.regs = (List.range (min 7 (192 - f.a.toNat))).map (fun j => u.g.rdS u.slot s.turn (10 + j) (f.a.toNat + j))) ∧
    (f.a.toNat < 191 → ¬ room → ∃ t h w, exec i s = .next t ∧ GroupOnly s t u.g.id ∧ t.group? u.g.id = some h ∧
      h = u.g.setSlot u.name { u.slot with wait := some w } ∧ w.instr = i ∧ w.cond = .engineRoom)) ∧
  (∀ (f : EF) s u, s.issuer? = some u → u.slot.wait = none → (s.unfinished u.g).length ≤ 15 → ∃ t h, exec (.cpseal f) s = .next t ∧
    GroupOnly s t u.g.id ∧ t.group? u.g.id = some h ∧ h.sealed = u.g.sealed ++ [{ number := u.g.nextBatch, scope := f.eb.toNat, requests := u.g.openBatch }] ∧
    h.openBatch = [] ∧ h.nextBatch = (u.g.nextBatch + 1) % 2 ^ 32 ∧ h.slot u.name = u.slot.advance ∧
    ∀ c : Cell, h.peek c = if c = sCell u f.d then BitVec.ofNat 64 u.g.nextBatch else u.g.peek c) ∧
  (∀ (f : EF) s u, s.issuer? = some u → u.slot.wait = none → let n := if f.ea = 1 then (sOf s u 1 f.a).toNat else f.imm.toNat
    (s.stoppedCopies u.g n = [] → (s.unfinished u.g).length ≤ n → ∃ t, exec (.cpwait f) s = .next t ∧ Moved t u) ∧
    (∀ r rest p e, s.stoppedCopies u.g n = r :: rest → r.stopped = some (p, e) → mayTrap s u → ∃ t h, exec (.cpwait f) s = .next t ∧
      t.group? u.g.id = some h ∧ h.peek (.s 193) = 15 ∧ (h.peek (.s 194)).setWidth 32 = BitVec.ofNat 32 p ∧
      ((h.peek (.s 194)).extractLsb' 32 4).toNat = e.reason % 16 ∧ (h.slot u.name).pc = (s.launch u.g).trapPc))

/-- MCJOIN, MCLEAVE and MCLD (R199 to R201): the checks of their operands, the answer, the member enrolled or gone, and one request a line of
128 bytes counted as one access on mc. -/
def Obligations.MulticastGroups : Prop :=
  (∀ (f : EF) s u, s.issuer? = some u → let a := sOf s u 1 f.a; let b := sOf s u 2 f.b; let die := u.g.core / 128
    let legal := a >>> 53 = 0 ∧ (a.extractLsb' 32 21).toNat ≤ 2 ^ 20 ∧ a.extractLsb' 13 19 = 0 ∧ a.extractLsb' 6 2 = 0 ∧ b >>> 46 = 0 ∧ b.extractLsb' 22 2 = 0
    let object := (b.extractLsb' 24 22).toNat; let dest := (b.setWidth 22).toNat; let room := s.allot u.g.core u.g.block
    let number := (a.setWidth 6).toNat; let index := (a.extractLsb' 8 5).toNat; let old := s.mgroup? die u.g.cid number
    let placed := object % 16 = 0 ∧ dest % 128 = 0 ∧ object + 16 ≤ room.2
    (¬ legal → mayTrap s u → raises (.mcjoin f) s u 1 0) ∧ (legal → ¬ placed → mayTrap s u → raises (.mcjoin f) s u 8 0) ∧
    (legal → placed → (∀ m, old = some m → ∀ x ∈ m.members, x.index ≠ index ∧ x.gid ≠ u.g.id) → ∃ t m, exec (.mcjoin f) s = .next t ∧
      Answered t u (sCell u f.d) 0 ∧ t.mgroup? die u.g.cid number = some m ∧
      m.members = ((old.map (·.members)).getD []) ++
        [{ index := index, gid := u.g.id, object := room.1 + object, dest := dest, suspended := false, leaving := false }] ∧
      m.timer = (old.map (·.timer)).getD (if a.extractLsb' 32 21 = 0 then 4096 else (a.extractLsb' 32 21).toNat)) ∧
    (∀ m, legal → placed → old = some m → (∃ x ∈ m.members, x.index = index ∧ x.gid ≠ u.g.id) → ∃ t, exec (.mcjoin f) s = .next t ∧
      Answered t u (sCell u f.d) 1 ∧ t.mgroups = s.mgroups) ∧
    (∀ m, legal → placed → old = some m → (∀ x ∈ m.members, x.index = index → x.gid = u.g.id) → (∃ x ∈ m.members, x.gid = u.g.id) →
      ∃ t, exec (.mcjoin f) s = .next t ∧ Answered t u (sCell u f.d) 2 ∧ t.mgroups = s.mgroups)) ∧
  (∀ (f : EF) s u, s.issuer? = some u → u.slot.wait = none → let n := (sOf s u 1 f.a).toNat; let old := s.mgroup? (u.g.core / 128) u.g.cid n
    (64 ≤ n → mayTrap s u → raises (.mcleave f) s u 1 0) ∧
    (n < 64 → (∀ m, old = some m → ∀ x ∈ m.members, x.gid ≠ u.g.id) → ∃ t, exec (.mcleave f) s = .next t ∧ Becomes s t u (u.g.setSlot u.name u.slot.advance)) ∧
    (∀ m, n < 64 → old = some m → (∃ x ∈ m.members, x.gid = u.g.id) → s.helds = [] → s.fills = [] → ∃ t, exec (.mcleave f) s = .next t ∧ Moved t u ∧
      ∀ m', t.mgroup? (u.g.core / 128) u.g.cid n = some m' → ∀ x ∈ m'.members, x.gid ≠ u.g.id)) ∧
  (∀ (f : EF) s u, s.issuer? = some u → let off := (sOf s u 1 f.a).setWidth 48; let b := sOf s u 2 f.b; let d := sOf s u 3 f.d; let len := f.imm.toNat
    let number := (b.setWidth 6).toNat; let legal := off.toNat % 128 = 0 ∧ len % 128 = 0 ∧ 128 ≤ len ∧ len ≤ 65536 ∧ b.extractLsb' 6 26 = 0 ∧ d >>> 22 = 0 ∧ d.toNat % 128 = 0
    let member := ∃ m, s.mgroup? (u.g.core / 128) u.g.cid number = some m ∧ ∃ x ∈ m.members, x.gid = u.g.id
    (¬ (legal ∧ member) → mayTrap s u → raises (.mcld f) s u 1 0) ∧
    (legal → member → ∃ t a new, exec (.mcld f) s = .next t ∧ Counted s u .mc false false 1 [] a ∧
      t.group? u.g.id = some (({ u.g with accs := u.g.accs ++ [a] }.fall).setSlot u.name u.slot.advance) ∧ t.reqs = s.reqs ++ new ∧ new.length = len / 128 ∧
      ∀ (j : Nat) (r : Req), new[j]? = some r → r.acc = a.id ∧ r.gid = u.g.id ∧ r.kind = .mcast number (b >>> 32).toNat ∧ r.need = rightR ∧
        r.k = u.g.rdK s.turn 4 (f.u.toNat - 192) ∧ r.off = (off + BitVec.ofNat 48 (128 * j)).toNat ∧ r.lanes.map (·.data) = [d.toNat + 128 * j]))
namespace Sys2Proof.Claims

/-- Every live group of the barrier's unit but this one has arrived in its phase, and so has this one's other slot if it runs (R195). -/
def lastToArrive (s : State) (u : Issuer) (b : Barrier) : Prop :=
  (∀ x ∈ s.unitGroups b.grid (s.launch u.g).top b.level b.path, x.id ≠ u.g.id → b.arrived.contains x.id ∨ x.arrivedAt b.level b.phase) ∧
    ((u.g.slot u.name.other).st = .run → u.g.arrivals.contains (b.level, b.phase, u.name.other == .b))

/-- The object that a word names for the group: its core and its place in the scratchpad (R187). -/
def objectAt (s : State) (u : Issuer) (w : DWord) : Nat × Nat :=
  let core := u.g.core / 4 * 4 + (u.g.core + (w.extractLsb' 22 2).toNat) % 4
  (core, (s.allot core u.g.block).1 + (w.setWidth 22).toNat)

/-- The word is legal for an object of `n` bytes (R187): reserved bits zero, the address a multiple of 16, all of it in the allotment. -/
def objectFits (s : State) (u : Issuer) (w : DWord) (n : Nat) : Prop :=
  w >>> 24 = 0 ∧ w.setWidth 4 = 0 ∧ (w.setWidth 22).toNat + n ≤ (s.allot (objectAt s u w).1 u.g.block).2

/-- The object is sound: no poisoned row, no store has left its behaviour undefined (R196, R254). -/
def objectSound (s : State) (u : Issuer) (w : DWord) (n : Nat) : Prop :=
  s.objectBad (objectAt s u w).1 (objectAt s u w).2 n = false ∧ (s.core (objectAt s u w).1).spoiled.contains (objectAt s u w).2 = false

/-- Of all scratchpads only `n` bytes at a place changed. -/
def PadOnly (s t : State) (core place n : Nat) : Prop :=
  ∀ c p, ¬ (c = core ∧ place ≤ p ∧ p < place + n) → Sparse.get (t.core c).spad p = Sparse.get (s.core c).spad p

/-- An instruction on an object raises MISALIGN where the word is not legal. -/
def refusesWord (i : Instr) (s : State) (u : Issuer) (w : DWord) (n : Nat) : Prop := ¬ objectFits s u w n → mayTrap s u → raises i s u 8 0

/-- The fences that an instruction with a release wait needs, all done. -/
def fenced (s : State) (u : Issuer) (scp : Nat) : Prop :=
  oldestFailed (u.g.fenced false true s.turn) = none ∧ s.fenceHolds u.g false true scp s.turn = true

end Sys2Proof.Claims

/-- BARA, BARW and BAR (R195, R242): UNDEF above the top level, BARSTALL where no gang spans the level; an arrival is recorded and the last one
completes the phase; BARW goes on once no arrival of its own is outstanding, and parks until then. -/
def Obligations.Barriers : Prop :=
  ∀ (f : EF) s u, s.issuer? = some u → u.slot.wait = none → u.g.life = .resident → (s.gridOf u.g).isSome →
    let n := f.eb.toNat; let l := s.launch u.g; let b := s.unitBarrier u.g n
    let spans := n ≤ l.top ∧ (n ≤ l.blockLevel ∨ ∃ m ∈ l.gangLevels, n ≤ m); let out := u.arrivalOut b
    (∀ i ∈ [Instr.bar f, Instr.bara f, Instr.barw f], mayTrap s u → (l.top < n → raises i s u 1 0) ∧
      (n ≤ l.top → ¬ spans → raises i s u 14 (BitVec.ofNat 64 n))) ∧
    (spans → out = false → ∃ t, exec (.barw f) s = .next t ∧ Moved t u) ∧
    (spans → out = true → (∃ t, exec (.barw f) s = .next t ∧ Becomes s t u (parked s u (.barw f) [1] (.barrier n b.phase))) ∧
      (∃ t, exec (.bara f) s = .next t ∧ Becomes s t u (parked s u (.bara f) [0] (.barrier n b.phase)))) ∧
    (spans → out = false → ∃ t h, exec (.bara f) s = .next t ∧ t.group? u.g.id = some h ∧ h.slot u.name = u.slot.advance ∧
      h.arrivals.contains (n, b.phase, u.name == .b) ∧ (∀ c : Cell, h.peek c = u.g.peek c) ∧ (∀ a, t.byte a = s.byte a) ∧
      (lastToArrive s u b → (t.unitBarrier h n).phase = b.phase + 1) ∧ (¬ lastToArrive s u b → (t.unitBarrier h n).phase = b.phase)) ∧
    (spans → out = false → lastToArrive s u b → ∃ t h, exec (.bar f) s = .next t ∧ t.group? u.g.id = some h ∧ h.slot u.name = u.slot.advance ∧
      (t.unitBarrier h n).phase = b.phase + 1 ∧ ∀ c : Cell, h.peek c = u.g.peek c) ∧
    (spans → out = false → ¬ lastToArrive s u b → ∃ t h w, exec (.bar f) s = .next t ∧ t.group? u.g.id = some h ∧
      h.slot u.name = { u.slot with wait := some w } ∧ w.cond = .barrier n b.phase ∧ w.ops = [1] ∧ ∀ c : Cell, h.peek c = u.g.peek c)

/-- BOINIT, BOARR and BOWAIT (R187, R196, R197): the object made; the count down, or the phase over with the count anew; the phase arrived at in
S[d]; a wait that a later phase ends. -/
def Obligations.BarrierObjects : Prop :=
  (∀ (f : EF) s u, s.issuer? = some u → let w := sOf s u 1 f.a; let count := ((sOf s u 2 f.b).setWidth 32).toNat; let (core, place) := objectAt s u w
    (count = 0 → mayTrap s u → raises (.boinit f) s u 1 0) ∧ (count ≠ 0 → refusesWord (.boinit f) s u w 16) ∧
    (count ≠ 0 → objectFits s u w 16 → s.objectBad core place 16 = false → ∃ t, exec (.boinit f) s = .next t ∧ Moved t u ∧ PadOnly s t core place 16 ∧
      t.bobj core place = { count := count, init := count, phase := 0, level := f.eb.toNat, frsn := 0, ftier := 0, ovr := false, flt := false })) ∧
  (∀ (f : EF) s u, s.issuer? = some u → let w := sOf s u 1 f.a; let (core, place) := objectAt s u w; let o := s.bobj core place; let n := f.imm.toNat
    refusesWord (.boarr f) s u w 16 ∧
    (objectFits s u w 16 → objectSound s u w 16 → ∃ t, exec (.boarr f) s = .next t ∧ Answered t u (sCell u f.d) (BitVec.ofNat 64 o.phase) ∧
      PadOnly s t core place 16 ∧ t.bobj core place = (if n < o.count then { o with count := o.count - n }
        else { o with count := o.init, phase := (o.phase + 1) % 2 ^ 32, ovr := o.ovr || decide (o.count < n) }))) ∧
  (∀ (f : EF) s u, s.issuer? = some u → u.slot.wait = none → let w := sOf s u 1 f.a; let (core, place) := objectAt s u w; let o := s.bobj core place
    let phase := (sOf s u 2 f.b).setWidth 32
    refusesWord (.bowait f) s u w 16 ∧
    (objectFits s u w 16 → objectSound s u w 16 → o.flt = false → o.phase ≠ phase.toNat → ∃ t, exec (.bowait f) s = .next t ∧ Moved t u) ∧
    (objectFits s u w 16 → objectSound s u w 16 → o.flt = false → o.phase = phase.toNat → s.objectStalled u.g core place phase = false →
      ∃ t, exec (.bowait f) s = .next t ∧ Becomes s t u (parked s u (.bowait f) [core, place, phase.toNat] (.object core place phase))))

/-- QINIT, QPUSH and QPOP (R203, R204): the header made; a handle in the next slot with one less allowance, after the release wait at clus; the oldest
handle in S[d] with one more; a push without room and a pop from an empty queue park. -/
def Obligations.Queues : Prop :=
  (∀ (f : EF) s u, s.issuer? = some u → let w := sOf s u 1 f.a; let (core, place) := objectAt s u w; let n := 16 + 4 * f.imm.toNat
    refusesWord (.qinit f) s u w n ∧
    (objectFits s u w n → f.imm.toNat < 2 ^ 13 → s.objectBad core place n = false → ∃ t, exec (.qinit f) s = .next t ∧ Moved t u ∧ PadOnly s t core place 16 ∧
      t.qobj core place = { head := 0, tail := 0, allow := f.imm.toNat, cap := f.imm.toNat })) ∧
  (∀ (f : EF) s u, s.issuer? = some u → u.slot.wait = none → let w := sOf s u 1 f.a; let (core, place) := objectAt s u w; let q := s.qobj core place
    let n := 16 + 4 * q.cap; let slot := place + 16 + 4 * (q.tail % q.cap)
    refusesWord (.qpush f) s u w 16 ∧
    (objectFits s u w n → objectSound s u w n → 0 < q.cap → fenced s u 2 → 0 < q.allow → s.queuedBefore core place s.turn true = false →
      ∃ t, exec (.qpush f) s = .next t ∧ Moved t u ∧
        t.qobj core place = { q with tail := (q.tail + 1) % 2 ^ 32, allow := q.allow - 1 } ∧
        Sparse.getMany (t.core core).spad slot 4 = leBytes 4 ((sOf s u 2 f.b).setWidth 32).toNat ∧
        ∀ c p, ¬ (c = core ∧ ((place ≤ p ∧ p < place + 16) ∨ (slot ≤ p ∧ p < slot + 4))) → Sparse.get (t.core c).spad p = Sparse.get (s.core c).spad p) ∧
    (objectFits s u w n → objectSound s u w n → fenced s u 2 → q.allow = 0 → ∃ t h x, exec (.qpush f) s = .next t ∧
      t.group? u.g.id = some h ∧ h = u.g.setSlot u.name { u.slot with wait := some x } ∧ x.cond = .queueRoom core place s.turn)) ∧
  (∀ (f : EF) s u, s.issuer? = some u → u.slot.wait = none → let w := sOf s u 1 f.a; let (core, place) := objectAt s u w; let q := s.qobj core place
    let n := 16 + 4 * q.cap; let slot := place + 16 + 4 * (q.head % q.cap)
    refusesWord (.qpop f) s u w 16 ∧
    (objectFits s u w n → objectSound s u w n → 0 < q.cap → q.head ≠ q.tail → s.queuedBefore core place s.turn false = false →
      ∃ t, exec (.qpop f) s = .next t ∧ Answered t u (sCell u f.d) (BitVec.ofNat 64 (leNat (Sparse.getMany (s.core core).spad slot 4))) ∧
        PadOnly s t core place 16 ∧ t.qobj core place = { q with head := (q.head + 1) % 2 ^ 32, allow := (q.allow + 1) % 2 ^ 32 }) ∧
    (objectFits s u w n → objectSound s u w n → q.head = q.tail → ∃ t h x, exec (.qpop f) s = .next t ∧
      t.group? u.g.id = some h ∧ h = u.g.setSlot u.name { u.slot with wait := some x } ∧ x.cond = .queueItem core place s.turn))

/-- WAITC (R205) goes on once its path's count is low enough, and parks until then; WAITW (R206) completes with the word that meets its condition, and
else parks with a watch on it; a word that is not aligned raises MISALIGN. -/
def Obligations.CounterAndWordWaits : Prop :=
  (∀ (f : EF) s u, s.issuer? = some u → u.slot.wait = none → let p := ([Path.ld, .st, .sp, .atom, .mx, .mc].getD f.eb.toNat .mc)
    let n := if f.ea = 1 then (sOf s u 1 f.a).toNat else f.imm.toNat
    oldestFailed (u.g.covered p n) = none →
      (u.g.counter p ≤ n → ∃ t, exec (.waitc f) s = .next t ∧ Becomes s t u (u.g.setSlot u.name u.slot.advance)) ∧
      (n < u.g.counter p → ∃ t, exec (.waitc f) s = .next t ∧ Becomes s t u (parked s u (.waitc f) [n] (.counter p n)))) ∧
  (∀ (f : EF) s u, s.issuer? = some u → u.slot.wait = none → let off := (sOf s u 1 f.a).setWidth 48; let cmp := sOf s u 2 f.b
    let wide := f.imm.getLsbD 0; let sg := f.imm.getLsbD 1; let size := if wide then 8 else 4; let k := u.g.rdK s.turn 3 (f.u.toNat - 192)
    let holds := fun (v : Nat) => if wide then compare sg f.eb.toNat (BitVec.ofNat 64 v) cmp else compare sg f.eb.toNat (BitVec.ofNat 32 v) (cmp.setWidth 32)
    (off.toNat % size ≠ 0 → mayTrap s u → raises (.waitw f) s u 8 0) ∧
    (∀ s' l, off.toNat % size = 0 → s.l1 = [] → s.opens = [] → s.staleCopies = [] → s.reqs = [] → s.remotes = [] →
      s.resolve u.g.cid u.g.core (u.g.core / 128) k off.toNat rightR = (s', .lands l) → l.device = false → s.servableAt l.addr = true →
      l.addr % size = 0 → let v := s'.loadN l.addr size
      (holds v → ∃ t, exec (.waitw f) s = .next t ∧ Answered t u (sCell u f.d)
        (if wide then BitVec.ofNat 64 v else if sg then (BitVec.ofNat 32 v).signExtend 64 else (BitVec.ofNat 32 v).setWidth 64)) ∧
      (¬ holds v → ∃ t h w, exec (.waitw f) s = .next t ∧ t.group? u.g.id = some h ∧ h = u.g.setSlot u.name { u.slot with wait := some w } ∧
        w.instr = .waitw f ∧ w.done = false ∧ w.ops = [k.toNat, off.toNat, cmp.toNat, s.fc] ∧
        (remoteOf l.addr = none → s.watches = [] → ∃ x, t.watches = [x] ∧ x.gid = u.g.id ∧ x.slot = u.name ∧ x.addr = l.addr ∧ x.size = size))))

/-- RGROW, RSHRINK and LAUNCH (R207, R208): granted slabs read zero and the rest keep their values; GROWSTALL of a parked slot; LAUNCH's checks, LAUNCHFAIL 1 and 2,
and the write index moved with the packets it publishes, how far in S[d]. -/
def Obligations.RegistersAndLaunches : Prop :=
  (∀ (f : EF) s u, s.issuer? = some u → u.slot.wait = none → let n := f.imm.toNat
    (n ≤ u.g.slabs → (∃ t, exec (.rgrow f) s = .next t ∧ Becomes s t u (u.g.setSlot u.name u.slot.advance))) ∧
    (u.g.slabs < n → s.growGranted u.g n s.turn = true → ∃ t h, exec (.rgrow f) s = .next t ∧ GroupOnly s t u.g.id ∧ t.group? u.g.id = some h ∧
      h.slabs = n ∧ h.slot u.name = u.slot.advance ∧ ∀ c : Cell, c.valid → h.peek c = (match c with
        | .v r l => if 32 * u.g.slabs ≤ r ∧ r < 32 * n then 0 else u.g.peek (.v r l)
        | c => u.g.peek c)) ∧
    (u.g.slabs < n → s.growGranted u.g n s.turn = false → s.growStalled u.g = false →
      ∃ t, exec (.rgrow f) s = .next t ∧ Becomes s t u (parked s u (.rgrow f) [] (.slabs n)))) ∧
  (∀ (f : EF) (w : Wait) s u, s.issuer? = some u → u.slot.wait = some w → let n := f.imm.toNat
    w.cond = .slabs n → u.g.slabs < n → s.growGranted u.g n w.turn = false → s.growStalled u.g = true → mayTrap s u →
      raises (.rgrow f) s u 13 (BitVec.ofNat 64 n)) ∧
  (∀ (f : EF) s u, s.issuer? = some u → u.slot.wait = none → let n := f.imm.toNat
    (u.g.slabs ≤ n → ∃ t, exec (.rshrink f) s = .next t ∧ Becomes s t u (u.g.setSlot u.name u.slot.advance)) ∧
    (n < u.g.slabs → s.shrinkSettled u.g n = true → ∃ t, exec (.rshrink f) s = .next t ∧ Becomes s t u ({ u.g with slabs := n }.setSlot u.name u.slot.advance)) ∧
    (n < u.g.slabs → s.shrinkSettled u.g n = false → ∃ t, exec (.rshrink f) s = .next t ∧ Becomes s t u (parked s u (.rshrink f) [] (.settled n)))) ∧
  (∀ (f : EF) s u, s.issuer? = some u → u.slot.wait = none → let v := sOf s u 1 f.a; let q := (v.setWidth 8).toNat; let w := (v >>> 32).toNat; let cid := u.g.cid
    let n := (BitVec.ofNat 32 w - BitVec.ofNat 32 (s.dsqW cid q)).toNat; let ahead := (BitVec.ofNat 32 w - BitVec.ofNat 32 (s.dsqRd cid q)).toNat
    let legal := q ≤ 63 ∧ v.extractLsb' 8 24 = 0
    (¬ legal → mayTrap s u → raises (.launch f) s u 1 0) ∧
    (legal → fenced s u 5 → s.dsqEnabled cid q = false → mayTrap s u → raises (.launch f) s u 16 1) ∧
    (legal → fenced s u 5 → s.dsqEnabled cid q = true → s.dsqCap cid q < n → mayTrap s u → raises (.launch f) s u 16 2) ∧
    (legal → fenced s u 5 → s.dsqEnabled cid q = true → n ≤ s.dsqCap cid q → ahead ≤ s.dsqCap cid q → ∃ t, exec (.launch f) s = .next t ∧
      Answered t u (sCell u f.d) (BitVec.ofNat 64 n) ∧ (0 < n → n < 2 ^ 31 → t.loadN (s.dsqAddr cid q + 16) 4 = w ∧
        t.published = s.published ++ (List.range n).map (fun i => (cid, q, (s.dsqW cid q + i) % 2 ^ 32, s.gridId u.g)) ∧
        ∀ a, a < s.dsqAddr cid q + 16 ∨ s.dsqAddr cid q + 20 ≤ a → t.byte a = s.byte a)) ∧
    (legal → fenced s u 5 → s.dsqEnabled cid q = true → n ≤ s.dsqCap cid q → s.dsqCap cid q < ahead →
      ∃ t, exec (.launch f) s = .next t ∧ Becomes s t u (parked s u (.launch f) [v.toNat, 1] (.launchRoom cid q (BitVec.ofNat 32 w)))))
namespace Sys2Proof.Claims

/-- The request that an event's first operand numbers. -/
def names (s : State) (r : Req) : Prop := s.req? (s.arg 0) = some r

/-- No cached line, no OPEN line and no copy on its way stands over memory. -/
def uncached (s : State) : Prop := s.l1 = [] ∧ s.opens = [] ∧ s.staleCopies = []

/-- The lanes that an event's second operand picks. -/
def eventLanes (s : State) : Mask := BitVec.ofNat 32 (s.arg 1)

/-- The requests under way, but for which groups' releases wait for them too (R266): an acquire may add its group there. -/
def underWay (rs : List Req) : List Req := rs.map (fun r => { r with carriers := [] })

/-- Of a request some lanes are performed: the others remain, or it is over. -/
def performed (s t : State) (r : Req) : Prop :=
  underWay t.reqs = underWay (if r.left &&& ~~~eventLanes s = 0 then s.reqs.filter (fun x => x.id != r.id)
    else s.reqs.map (fun x => if x.id = r.id then { r with left := r.left &&& ~~~eventLanes s } else x))

/-- Memory after some lanes wrote their bytes in ascending order. -/
def wroteBytes (s t : State) (size : Nat) (place : LaneOp → Nat) (os : List LaneOp) : Prop :=
  ∀ a, t.byte a = os.foldl (fun b o => if place o ≤ a ∧ a < place o + size then (leBytes size o.data).getD (a - place o) 0 else b) (s.byte a)

/-- The lanes of a request write distinct V registers: `n` from register `d` on. -/
def laneCells (os : List LaneOp) (d n : Nat) : Prop :=
  0 < n ∧ os.Pairwise (fun a b => a.lane ≠ b.lane) ∧ ∀ o ∈ os, o.lane < 32 ∧ o.cells = (List.range n).map (fun i => Cell.v (d + i) o.lane)

/-- A group's registers after some lanes took values, low register first. -/
def tookValues (g h : Group) (d n : Nat) (os : List LaneOp) (v : LaneOp → Nat) : Prop :=
  ∀ c : Cell, c.valid → h.peek c = (match c with
    | .v q l => if d ≤ q ∧ q < d + n then (match os.find? (fun o => o.lane == l) with
        | some o => BitVec.ofNat 64 (v o / 2 ^ (32 * (q - d)) % 2 ^ 32)
        | none => g.peek c) else g.peek c
    | c => g.peek c)

/-- A value of `size` bytes extended to `n` registers (R147). -/
def extendedTo (size n : Nat) (sx : Bool) (v : Nat) : Nat :=
  if sx then ((BitVec.ofNat (8 * size) v).signExtend (32 * n)).toNat else v

/-- A landed request's lanes may be performed by this event: some of those left, and with each every lane left that shares a byte with it. -/
def mayPerform (s : State) (r : Req) (size : Nat) : Prop :=
  s.atLanding r = true ∧ s.poisonedFor r = false ∧ laneChoice (overlap size) r.lanes r.left (eventLanes s) = true

/-- The lanes that an event picks and that have not retired: the others' registers are not written (R88). -/
def livePicks (s : State) (g : Group) (os : List LaneOp) : List LaneOp :=
  (pickedLanes os (eventLanes s)).filter (fun o => g.lanes.getLsbD o.lane)

/-- An integer addition, which leaves its core as one request for each address (R156). -/
def isAddition (r : Req) : Prop := ∃ n, r.kind = .atom .add n ∨ r.kind = .red .add n

/-- The record of a line opened for a request with these copies, no partial sent up yet. -/
def openedFor (r : Req) (tag : Nat) (parts fused : List (Nat × List Nat)) : OpenLine :=
  { line := r.line, tag := tag, cid := r.cid, parts := parts, fused := fused, evicted := [] }

/-- A landing in the memory of this module. -/
def inMemory (r : Req) : Prop := r.device = false ∧ r.remote = false

end Sys2Proof.Claims

/-- A request's way (R156, R245, R249): at a tier it goes on with the stack and the rights the entry gives, an integer addition as one request for each
address, waits at a held entry, or lands at its line's slice: ready where the slice holds its sectors, else on the list of the line's miss, or in the
ingress queue while 256 other lines miss there; the fill brings the sectors that the list wants and lets every request on it go on. -/
def Obligations.RequestsOnTheirWay : Prop :=
  (∀ s r t inst s1 w, names s r → r.phase = .at t inst → (t = .core → s.window? r.cid r.k = none) → s.poison = [] →
    s.lookAt t inst r.core r.k r.off r.need r.rights (coreDie r.core) = (s1, w) →
    (w = .waits → exec .tierLookup s = .next (s1.setReq { r with phase := .held t inst s.turn })) ∧
    (∀ k off rights i', w = .onward k off rights .remote i' →
      let on : Req := { r with k := k, off := off, rights := rights, passed := r.passed ++ [(t.num, inst, kLabel r.k)], phase := .at .remote i' }
      (¬ isAddition r → exec .tierLookup s = .next (s1.setReq on)) ∧
      (isAddition r → on.byAddress ≠ [] → ∃ t', exec .tierLookup s = .next t' ∧ (∀ m ∈ on.byAddress, ∃ x ∈ t'.reqs, x = { on with id := x.id, left := m }) ∧
        ∀ x ∈ t'.reqs, x ∈ s1.reqs ∨ ∃ m ∈ on.byAddress, x = { on with id := x.id, left := m })) ∧
    (∀ l, w = .lands l → (∀ d, s.dieHeld d = false) → ∃ t' r', exec .tierLookup s = .next t' ∧ r' ∈ t'.reqs ∧ r'.id = r.id ∧
      r'.line = l.addr / 128 ∧ r'.mode = l.mode ∧ r'.rights = l.rights ∧
      r'.phase = if homeOf r'.line = none ∨ l.device ∨ s.sliceHolds r'.sliceDie r'.line (laneSectors r.lanes) then .ready
        else if r'.line ∈ s.missing r'.sliceDie r'.line ∨ (s.missing r'.sliceDie r'.line).length < 256 then .missing else .ingress s.turn) ∧
    (∃ t', exec .tierLookup s = .next t')) ∧
  (∀ s r, names s r → r.phase = .missing → s.l1 = [] → ∃ t, exec .l2MissFill s = .next t ∧ (∀ a, t.byte a = s.byte a) ∧
    ((∀ x ∈ s.reqs, ∀ n, x.phase ≠ .ingress n) →
      t.reqs = s.reqs.map (fun (x : Req) => if x.phase = .missing ∧ x.line = r.line ∧ x.sliceDie = r.sliceDie then { x with phase := .ready } else x)) ∧
    (s.mayCache r.mode r.sliceDie r.line = true → ∃ x ∈ t.l2, x.die = r.sliceDie ∧ x.line = r.line ∧
      ∀ y ∈ s.reqs, y.phase = .missing → y.line = r.line → y.sliceDie = r.sliceDie → laneSectors y.lanes &&& ~~~x.sectors = 0))

/-- Loads and stores at their landing (R147, R265, R277), scratchpad accesses at their banks (R144, R251), prefetches (R151): each lane's bytes
or value, extended as the instruction says, every other byte and register as before, and the request over once every lane is performed. -/
def Obligations.RequestsPerformed : Prop :=
  (∀ s r g size sx d n, names s r → uncached s → r.kind = .load size sx → mayPerform s r size → inMemory r → s.group? r.gid = some g →
    g.live = true → g.late = [] → laneCells r.lanes d n → 0 < size → size ≤ 4 * n → (∀ o ∈ r.lanes, o.addr % 128 + size ≤ 128) →
    ∃ t h, exec .loadReply s = .next t ∧ performed s t r ∧ (∀ a, t.byte a = s.byte a) ∧ t.group? r.gid = some h ∧
      tookValues g h d n (livePicks s g r.lanes) (fun o => extendedTo size n sx (s.loadN (r.place o) size))) ∧
  (∀ s r size, names s r → uncached s → r.kind = .store size → mayPerform s r size → inMemory r →
    (if r.noL1 then r.mode ≠ .coh else 2 ≤ r.scp ∧ s.grantedAlone r.mode (coreDie r.core) r.line = true ∧ s.tokensFree (s.l1CoreOf r) r.line = true) →
    ∃ t, exec .storePerformed s = .next t ∧ performed s t r ∧ wroteBytes s t size r.place (pickedLanes r.lanes (eventLanes s))) ∧
  (∀ s r size, names s r → uncached s → r.kind = .store size → mayPerform s r size → inMemory r → r.noL1 = false → r.scp ≤ 1 →
    s.mayCache r.mode (coreDie r.core) r.line = true → (∀ o ∈ r.lanes, o.addr % 128 + size ≤ 128) →
    ∃ t l, exec .storePerformed s = .next t ∧ performed s t r ∧ (∀ a, t.byte a = s.byte a) ∧ l ∈ t.l1 ∧ l.core = s.l1CoreOf r ∧ l.line = r.line ∧
      ∀ i, i < 128 → (t.served l).getD i 0 = (pickedLanes r.lanes (eventLanes s)).foldl (fun b o =>
        if r.place o ≤ 128 * r.line + i ∧ 128 * r.line + i < r.place o + size then (leBytes size o.data).getD (128 * r.line + i - r.place o) 0 else b)
        (s.byte (128 * r.line + i))) ∧
  (∀ s r size sx g d n, s.spReqs.find? (fun x => x.id == s.arg 0) = some r → s.l1 = [] → r.kind = .load size sx → s.spInOrder r = true →
    laneChoice (shareWord size) r.lanes r.left (eventLanes s) = true → s.arg 2 % 2 ^ 32 = 0 → (s.core r.target).poisoned = [] → s.group? r.gid = some g → g.live = true → g.late = [] →
    laneCells r.lanes d n → 0 < size → size ≤ 4 * n →
    ∃ t h, exec .spAccessDone s = .next t ∧ (∀ a, t.byte a = s.byte a) ∧ (∀ c, (t.core c).spad = (s.core c).spad) ∧ t.group? r.gid = some h ∧
      tookValues g h d n (livePicks s g r.lanes) (fun o => extendedTo size n sx
        (if o.addr + size ≤ r.allot then leNat (Sparse.getMany (s.core r.target).spad (r.base + o.addr) size) else 0))) ∧
  (∀ s r size, s.spReqs.find? (fun x => x.id == s.arg 0) = some r → s.l1 = [] → r.kind = .store size → s.spInOrder r = true →
    laneChoice (shareWord size) r.lanes r.left (eventLanes s) = true →
    ∃ t, exec .spAccessDone s = .next t ∧ (∀ a, t.byte a = s.byte a) ∧ ∀ c p, Sparse.get (t.core c).spad p = if c ≠ r.target then Sparse.get (s.core c).spad p
      else (pickedLanes r.lanes (eventLanes s)).foldl (fun b o => if o.addr + size ≤ r.allot ∧ r.base + o.addr ≤ p ∧ p < r.base + o.addr + size then
        (leBytes size o.data).getD (p - (r.base + o.addr)) 0 else b) (Sparse.get (s.core r.target).spad p)) ∧
  (∀ s r, names s r → uncached s → r.kind = .prf → r.phase = .ready → s.servable r = true → ∃ t, exec .prfAccept s = .next t ∧
    t.reqs = s.reqs.filter (fun x => x.id != r.id) ∧ ∀ a, t.byte a = s.byte a)

/-- Atomics and update-only writes (R154, R155, R158, R159): at the home a lane leaves its operation's value and keeps the old one, which the
reply writes to the registers of a lane that has not retired (R88); an acknowledgement ends a reduction; a line is opened with a copy of identities, and
the copy takes the operand, which of an access that may hold no line (R143) goes to the pair's merge node instead, the model's choice (assumption 22). -/
def Obligations.AtomicsPerformed : Prop :=
  (∀ s r size op o, names s r → uncached s → r.kind.atomOp = some (op, size) → mayPerform s r size → inMemory r →
    (op = .cas → size ≠ 8) → s.grantedAlone r.mode ((homeOf r.line).getD (coreDie r.core)) r.line = true →
    pickedLanes r.lanes (eventLanes s) = [o] → 0 < size → let old := s.loadN (r.place o) size
    ∃ t r', exec .atomAtHome s = .next t ∧ t.req? r.id = some r' ∧ r'.left = r.left &&& ~~~(1#32 <<< o.lane) ∧
      (∀ x ∈ r'.lanes, x.lane = o.lane → x.result = some old) ∧ (r'.left = 0 → r'.phase = .replied) ∧
      wroteBytes s t size r.place [{ o with data := op.new (8 * size) old o.data o.extra }]) ∧
  (∀ s r size op g d n, names s r → s.l1 = [] → r.kind = .atom op size → r.phase = .replied → r.acc ≠ 0 → s.group? r.gid = some g →
    g.live = true → g.late = [] → laneCells r.lanes d n → (∀ o ∈ r.lanes, o.result.isSome) →
    ∃ t h, exec .atomReply s = .next t ∧ underWay t.reqs = underWay (s.reqs.filter (fun x => x.id != r.id)) ∧ (∀ a, t.byte a = s.byte a) ∧
      t.group? r.gid = some h ∧ tookValues g h d n (r.lanes.filter (fun o => g.lanes.getLsbD o.lane)) (fun o => o.result.getD 0)) ∧
  (∀ s r size op, names s r → r.kind = .red op size → r.phase = .replied → r.acc ≠ 0 →
    ∃ t, exec .redAck s = .next t ∧ t.reqs = s.reqs.filter (fun x => x.id != r.id) ∧ ∀ a, t.byte a = s.byte a) ∧
  (∀ s r tag, names s r → uncached s → r.kind = .upd tag → s.atLanding r = true → s.poisonedFor r = false → inMemory r →
    s.grantedAlone r.mode ((homeOf r.line).getD (coreDie r.core)) r.line = true → let ids := List.replicate (1024 / updWidth tag) (updIdentity tag)
    ∃ t, exec .updOpen s = .next t ∧ (∀ a, t.byte a = s.byte a) ∧ t.opens = [if r.noL1 then openedFor r tag [] []
      else if s.fusedAt r.core then openedFor r tag [] [(r.core / 4, ids)] else openedFor r tag [(r.core, ids)] []]) ∧
  (∀ s r tag x p, names s r → r.kind = .upd tag → s.atLanding r = true → s.poisonedFor r = false → s.fusedAt r.core = false → r.lanes = [x] →
    let e := x.addr % 128 / (updWidth tag / 8)
    (r.noL1 = false → (s.l1Of r).map (·.line) = some r.line → s.opens = [openedFor r tag [(r.core, p)] []] →
      ∃ t, exec .redAck s = .next t ∧ (∀ a, t.byte a = s.byte a) ∧ t.reqs = s.reqs.filter (fun y => y.id != r.id) ∧
        t.opens = [openedFor r tag [(r.core, p.set e (updOp tag (p.getD e (updIdentity tag)) x.data))] []]) ∧
    (r.noL1 = true → s.opens = [openedFor r tag [] []] → let ids := List.replicate (1024 / updWidth tag) (updIdentity tag)
      ∃ t, exec .redAck s = .next t ∧ (∀ a, t.byte a = s.byte a) ∧ t.reqs = s.reqs.filter (fun y => y.id != r.id) ∧
        t.opens = [{ openedFor r tag [] [] with
          evicted := [(pairNode (r.core / 4) (r.core % 4 / 2), ids.set e (updOp tag (ids.getD e (updIdentity tag)) x.data))] }]))
namespace Sys2Proof.Claims

/-- An L1 line of a core that no invalidation is on its way to. -/
def holdsLine (s : State) (core line : Nat) (l : L1Line) : Prop := s.l1OfLine core line = some l ∧ l.old = none

/-- No L1 of the module holds bytes of a line that are not written below. -/
def cleanLine (s : State) (line : Nat) : Prop := ∀ m ∈ s.l1, m.line = line → m.dirty = []

/-- The record after a reply's split: each contributor still merged under it has its own part (R156, R308): the old value, what stands before it
in serial order, and what stands before each of its lanes. -/
def splitUp (s t : State) (x : Record) (size old : Nat) : Prop :=
  (∀ y ∈ t.records, y.id ≠ x.id) ∧ ∀ c ∈ x.contribs, ∀ r, s.req? c.req = some r → r.phase = .merged x.id → c.req ≠ x.merged →
    ∃ r', t.req? c.req = some r' ∧ r'.phase = .replied ∧ r'.left = 0 ∧ r'.lanes.map (·.lane) = r.lanes.map (·.lane) ∧
      ∀ o ∈ r'.lanes, r.left.getLsbD o.lane →
        o.result = some ((old + c.offset + ((r.leftLanes.filter (fun p => p.lane < o.lane)).map (·.data)).sum) % 2 ^ (8 * size))

/-- A record whose merged request has been answered at its home. -/
def answeredRecord (s : State) (x : Record) (m : Req) (size old : Nat) : Prop :=
  s.records.find? (fun y => y.id == s.arg 0) = some x ∧ s.req? x.merged = some m ∧ replyOf m = some (size, old) ∧
    (x.contribs.map (·.req)).Pairwise (· ≠ ·)

end Sys2Proof.Claims

/-- Tokens, invalidations and dirty bytes of the L1s, the directory's grants and merges (R274, R277, R278, R280, R282, R283, R358): who holds what
afterwards; memory changes only where dirty bytes are written. -/
def Obligations.CacheEvents : Prop :=
  (∀ s l, holdsLine s (s.arg 0) (s.arg 1) l → cleanLine s (s.arg 1) → s.opens = [] → s.persistent = [] → s.arg 3 = 0 → let die := coreDie (s.arg 0)
    ∃ t l', exec .tokenRequest s = .next t ∧ (∀ a, t.byte a = s.byte a) ∧ l' ∈ t.l1 ∧ l'.core = s.arg 0 ∧ l'.line = s.arg 1 ∧
      (s.arg 2 = 0 → (l.tokens ≠ 0 ∨ s.tokensOut die (s.arg 1) < 256 ∨ ∃ m ∈ s.l1, coreDie m.core = die ∧ m.line = s.arg 1 ∧ 1 < m.tokens) →
        l'.tokens = max 1 l.tokens) ∧
      (s.arg 2 = 0 → s.tokensOut die (s.arg 1) ≤ 256 → t.tokensOut die (s.arg 1) ≤ 256) ∧
      (s.arg 2 ≠ 0 → l'.tokens = 256 ∧ ∀ m ∈ t.l1, coreDie m.core = die → m.line = s.arg 1 → m.core = s.arg 0)) ∧
  (∀ s l, s.l1OfLine (s.arg 0) (s.arg 1) = some l → s.arg 3 ≠ 0 → exec .tokenRequest s = .next { s with reqs := s.reqs.map (fun r =>
    if r.phase = .ready ∧ r.core = s.arg 0 ∧ r.line = s.arg 1 then { r with transients := r.transients + 1 } else r) }) ∧
  (∀ s r, r ∈ s.reqs → r.phase = .ready → r.core = s.arg 0 → r.line = s.arg 1 → 2 ≤ r.transients → s.persistent.contains (s.arg 0, s.arg 1) = false →
    ∃ t, exec .persistentRequest s = .next t ∧ t.persistent = s.persistent ++ [(s.arg 0, s.arg 1)] ∧
      ∀ l, holdsLine s (s.arg 0) (s.arg 1) l → cleanLine s (s.arg 1) → s.opens = [] → (∀ p ∈ s.persistent, p.2 ≠ s.arg 1) →
        (s.persistent.filter (fun p => sliceOf p.2 == sliceOf (s.arg 1))).length < 64 →
        (∀ a, t.byte a = s.byte a) ∧ ∃ l' ∈ t.l1, l'.core = s.arg 0 ∧ l'.line = s.arg 1 ∧ l'.tokens = 256) ∧
  (∀ s l rest, s.persistent = (s.arg 0, s.arg 1) :: rest → holdsLine s (s.arg 0) (s.arg 1) l → cleanLine s (s.arg 1) → s.opens = [] →
    ∃ t l', exec .persistentRequest s = .next t ∧ (∀ a, t.byte a = s.byte a) ∧ (∀ p ∈ t.persistent, p ≠ (s.arg 0, s.arg 1)) ∧
      l' ∈ t.l1 ∧ l'.core = s.arg 0 ∧ l'.line = s.arg 1 ∧ l'.tokens = 256) ∧
  (∀ s l, s.l1.find? (fun (l : L1Line) => l.core == s.arg 0 && l.line == s.arg 1 && l.old.isSome && !l.pending) = some l →
    (s.arg 2 = 0 → exec .invalidationArrive s = .next (s.putL1 { l with pending := true, fc := s.fc })) ∧
    (s.arg 2 ≠ 0 → l.dirty = [] → exec .invalidationArrive s =
      .next { s with l1 := s.l1.filter (fun m => !m.same l), opens := (s.evictU l.core l.line).opens })) ∧
  (∀ s l, s.l1.find? (fun (l : L1Line) => l.core == s.arg 0 && l.line == s.arg 1 && l.pending) = some l → l.dirty = [] →
    exec .invalidationApply s = .next { s with l1 := s.l1.filter (fun m => !m.same l), opens := (s.evictU l.core l.line).opens }) ∧
  (∀ s l, s.l1.find? (fun (l : L1Line) => l.core == s.arg 0 && l.line == s.arg 1 && !l.dirty.isEmpty) = some l → s.opens = [] →
    s.l1Find l.core l.cid l.k l.off = some l → s.grantedAlone l.mode (coreDie l.core) l.line = true → (l.dirty.map (·.1)).Pairwise (· ≠ ·) → (∀ e ∈ l.dirty, e.1 < 128) →
    ∃ t m, exec .l1DirtyWriteback s = .next t ∧ m ∈ t.l1 ∧ m.core = l.core ∧ m.line = l.line ∧ m.dirty = [] ∧ ∀ a, t.byte a =
      match l.dirty.find? (fun e => 128 * l.line + e.1 == a) with
      | some e => e.2
      | none => s.byte a) ∧
  (∀ s r, homeOf (s.arg 2) = some (s.arg 0) → r ∈ s.reqs → (r.phase = .ready ∨ r.phase = .missing) → r.line = s.arg 2 → r.mode = .coh →
    coreDie r.core = s.arg 1 → s.open? (s.arg 2) = none → s.poison.contains (s.arg 2) = false →
    ∃ t x, exec .directoryGrant s = .next t ∧ ((∀ m ∈ s.l1, m.dirty = []) → ∀ a, t.byte a = s.byte a) ∧ t.regionOf (s.arg 0) (s.arg 2) = some x ∧ x.alone = decide (s.arg 3 ≠ 0) ∧
      (s.arg 3 ≠ 0 → x.holders = if s.arg 1 = s.arg 0 then [] else [s.arg 1]) ∧ (s.arg 1 ≠ s.arg 0 → s.arg 1 ∈ x.holders)) ∧
  (∀ s c, c ∈ s.staleCopies → c.die = s.arg 0 → c.line = s.arg 1 → (∀ x ∈ s.staleCopies, x.line = s.arg 1 → x.die = s.arg 0) →
    ∃ t, exec .invalidationAck s = .next t ∧ (∀ a, t.byte a = s.byte a) ∧
      t.staleCopies = s.staleCopies.filter (fun x => !(x.die == s.arg 0 && x.line == s.arg 1)) ∧
      ∀ r ∈ t.reqs, ∀ size, ¬ (r.kind = .store size ∧ r.phase = .replied ∧ r.left = 0 ∧ r.line = s.arg 1)) ∧
  (∀ s a b, s.regions.find? (fun (r : Region) => r.die == s.arg 0 && r.base == s.arg 1) = some a →
    s.regions.find? (fun (r : Region) => r.die == s.arg 0 && r.log == a.log && r.base == a.base + 2 ^ a.log) = some b →
    a.base % 2 ^ (a.log + 1) = 0 → a.holders = b.holders → a.log < max 12 (s.dirLog (s.arg 0) 0 5) →
    a.fc + 2 ^ s.dirLog (s.arg 0) 16 5 ≤ s.fc → b.fc + 2 ^ s.dirLog (s.arg 0) 16 5 ≤ s.fc →
    ∃ t, exec .regionMerge s = .next t ∧ (∀ a, t.byte a = s.byte a) ∧
      t.regions = { a with log := a.log + 1, alone := a.alone && b.alone, fc := max a.fc b.fc } :: s.regions.filter (fun r => r != a && r != b))

/-- Combining (R156, R308, R368, R369) and OPEN lines (R160, R259): two additions merge with their sum and serial offsets; a reply is split; a lost
record is split from the home's journal, or ends in ATOMLOST; a closed line takes MergeTree's values; an evicted copy sends its partial up, and a
node its value. -/
def Obligations.CombiningAndClosing : Prop :=
  (∀ s w a b size ca cb n, switchOf (s.arg 0) = some w → s.req? (s.arg 1) = some a → s.req? (s.arg 2) = some b → a.id ≠ b.id →
    addSize a = some size → addSize b = some size → s.crossing w a = some ca → s.crossing w b = some cb → ca.output = cb.output → remainingAddress a = some n →
    remainingAddress b = some n → a.cid = b.cid → a.phase = b.phase → a.device = false → b.device = false → a.contribs ≤ 1 → b.contribs ≤ 1 →
    (∀ x ∈ s.records, x.merged ≠ a.id ∧ x.merged ≠ b.id ∧ x.id < s.nextId) → (∀ r ∈ s.reqs, r.id < s.nextId) →
    (s.records.filter (fun x => x.switch == s.arg 0 && x.output == ca.output)).length < 64 →
    ∃ t x m, exec .switchCombine s = .next t ∧ x ∈ t.records ∧ x.switch = s.arg 0 ∧ x.output = ca.output ∧ t.req? x.merged = some m ∧ m.gid = 0 ∧
      (∀ o ∈ m.lanes, o.data = (addendOf size a + addendOf size b) % 2 ^ (8 * size)) ∧ m.scp = max a.scp b.scp ∧
      x.contribs = (if cb.input < ca.input then [⟨b.id, cb.input, addendOf size b, 0⟩, ⟨a.id, ca.input, addendOf size a, addendOf size b⟩]
        else [⟨a.id, ca.input, addendOf size a, 0⟩, ⟨b.id, cb.input, addendOf size b, addendOf size a⟩]) ∧
      t.req? a.id = some { a with phase := .merged x.id } ∧ t.req? b.id = some { b with phase := .merged x.id }) ∧
  (∀ s x m size old, answeredRecord s x m size old → x.lost = false →
    (s.arg 1 = 0 → ∃ t, exec .decombine s = .next t ∧ splitUp s t x size old) ∧
    (s.arg 1 = 1 → exec .decombine s = .next { s with records := s.records.map (fun (y : Record) => if y.id = x.id then { y with lost := true } else y) })) ∧
  (∀ s x m size old, answeredRecord s x m size old → x.lost = true →
    (s.journaled x = true → ∃ t, exec .lostsplit s = .next t ∧ splitUp s t x size old) ∧
    (s.journaled x = false → ∃ t, exec .retired s = .next t ∧ (∀ y ∈ t.records, y.id ≠ x.id) ∧
      ∀ c ∈ x.contribs, ∀ r, s.req? c.req = some r → r.phase = .merged x.id → c.req ≠ x.merged → t.req? c.req = some { r with phase := .lost })) ∧
  (∀ (late : Bool) s r g a, names s r → r.gid ≠ 0 → s.group? r.gid = some g → g.live = true → g.access? r.acc = some a → a.fail = none →
    (∀ x ∈ s.reqs, x.id ≠ r.id → x.acc ≠ r.acc) → (∀ x ∈ s.spReqs, x.acc ≠ r.acc) →
    (if late then ∃ n, r.phase = .merged n ∧ r.fc + 2 ^ 24 ≤ s.fc ∧ ∀ y ∈ s.records, y.id ≠ n else r.phase = .lost) →
    ∃ t h e, exec (if late then .atomlostTimeout else .atomlost) s = .next t ∧ (∀ a, t.byte a = s.byte a) ∧
      t.reqs = s.reqs.filter (fun x => x.id != r.id) ∧ t.group? r.gid = some h ∧ h.access? r.acc = some { a with done := true, fail := some e } ∧
      e.lost = true ∧ e.lanes = r.left ∧ e.tag = s.tagOf r) ∧
  (∀ s o r, s.opens = [o] → o.line = s.arg 0 → r ∈ s.reqs → r.line = o.line → s.atLanding r = true → r.closes o.tag = true →
    1 ≤ o.tag → o.tag ≤ 13 → let w := updWidth o.tag / 8
    ∃ t, exec .lineClose s = .next t ∧ t.opens = [] ∧ (∀ a, a / 128 ≠ o.line → t.byte a = s.byte a) ∧
      ∀ e, e < 128 / w → t.loadN (128 * o.line + w * e) w = mergeTree o (s.loadN (128 * o.line + w * e) w) e % 2 ^ (8 * w)) ∧
  (∀ s o up, s.opens = [o] → o.line = s.arg 1 → nodeAbove (s.arg 2) = some up → let mine := (o.evicted.filter (fun p => p.1 == s.arg 2)).map (·.2)
    mine ≠ [] → exec .uCopyEvict s = .next { s with opens := [{ o with evicted := o.evicted.filter (fun p => p.1 != s.arg 2) ++
      [(up, (List.range (1024 / updWidth o.tag)).map (fun e => mine.foldl (fun x p => updOp o.tag x (p.getD e (updIdentity o.tag))) (updIdentity o.tag)))] }] }) ∧
  (∀ s o p, s.opens = [o] → o.line = s.arg 1 → s.arg 2 = 0 → o.parts = [(s.arg 0, p)] → o.fused = [] →
    ∃ t, exec .uCopyEvict s = .next t ∧ (∀ a, t.byte a = s.byte a) ∧
      t.opens = [{ o with parts := [], evicted := o.evicted ++ [(pairNode (s.arg 0 / 4) (s.arg 0 % 4 / 2), p)] }])
namespace Sys2Proof.Claims

/-- The slot parked in an instruction may issue again: its wait is done, and nothing else changes. -/
def Wakes (i : Instr) (s : State) (u : Issuer) (w : Wait) : Prop :=
  ∃ t, exec i s = .next t ∧ Becomes s t u (u.g.setSlot u.name { u.slot with wait := some { w with done := true } })

/-- The condition of a WAITW (R206). -/
def wordHolds (f : EF) (v : Nat) (cmp : DWord) : Bool :=
  if f.imm.getLsbD 0 then compare (f.imm.getLsbD 1) f.eb.toNat (BitVec.ofNat 64 v) cmp
  else compare (f.imm.getLsbD 1) f.eb.toNat (BitVec.ofNat 32 v) (cmp.setWidth 32)

/-- The fill of a line on its way to a member (R202). -/
def fillOf (s : State) (x : Member) (group core line dest tier : Nat) : Fill :=
  { id := s.nextId, gid := x.gid, group := group, core := core, object := x.object, dest := x.dest + dest,
    bytes := s.bytes (128 * line) 128, reason := 0, tier := tier }

/-- The extent that a line lies in has not been revoked under the label that landed it (R202, R388). -/
def standing (s : State) (line label : Nat) : Prop := ∀ m, remoteOf (128 * line) = some m → s.revokedAt .remote m label = false

/-- A copy request that the engine works on: started, its last element next, no engine waiting, no source raced. -/
def lastElement (s : State) (r : CopyReq) (x : Slice) (i : Nat) (g : Group) : Prop :=
  s.copyReqs.find? (fun r => r.id == s.arg 0) = some r ∧ r.started = true ∧ r.finished = false ∧ r.stopped = none ∧
    (∀ q ∈ s.copyReqs, q.suspended = none) ∧ 0 < r.progress ∧ r.total = r.progress + 1 ∧ locate r.slices r.progress = some (x, i) ∧
    r.raced = [] ∧ s.group? x.gid = some g ∧ x.inbox i = true

end Sys2Proof.Claims

/-- Parked slots (R43, R87, R93, R122, R206): an unmatched XCH, a sleep that is over and a WAITW without a watch go on; a spill entry comes back as
memory holds it; a refetched line has come, and its copy in the L1 is gone; a watch wakes its slot with the word that meets the condition; a block stalled for its threshold is
saved, or without room tried again after a further threshold. -/
def Obligations.ParkedSlotsWake : Prop :=
  (∀ s u w f, s.slotArg = some u → u.slot.wait = some w → w.instr = .xch f → w.done = false → w.fc + 65536 ≤ s.fc → Wakes .xchTimeout s u w) ∧
  (∀ s u w ac, s.slotArg = some u → u.slot.wait = some w → w.cond = .clock ac → w.done = false → ac ≤ (s.die (coreDie u.g.core)).clock.toNat →
    Wakes .sleepWake s u w) ∧
  (∀ s u w f, s.slotArg = some u → u.slot.wait = some w → w.instr = .waitw f → w.done = false → u.g.life = .resident →
    (∀ x ∈ s.watches, ¬ (x.gid = u.g.id ∧ x.slot = u.name)) → w.ops.getD 3 0 + 65536 ≤ s.fc → Wakes .waitwPoll s u w) ∧
  (∀ s u line, s.slotArg = some u → u.slot.refetching = some line →
    let h := u.g.setSlot u.name { u.slot with refetching := none, refetched := line :: u.slot.refetched }; let l := s.launch u.g
    ∃ t, exec .lineRefetch s = .next t ∧ t.group? u.g.id = some h ∧ (∀ i, i ≠ u.g.id → t.group? i = s.group? i) ∧
      ∀ s' a, (s.setGroup h).resolve u.g.cid u.g.core (u.g.core / 128) l.codeK (l.codeOff + 64 * line) rightX = (s', .lands a) →
        (s'.l1 = [] → t = s') ∧ ∀ m ∈ t.l1, ¬ (s'.sharesL1 u.g.core m.core ∧ m.line = a.addr / 128)) ∧
  (∀ s u e rest, s.slotArg = some u → u.slot.moving = true → u.slot.spill = e :: rest →
    (e.cached = true → ∃ t, exec .spillMoveDone s = .next t ∧ Becomes s t u (u.g.setSlot u.name { u.slot with moving := false })) ∧
    (e.cached = false →
      let a := bitsAt (s.ctxWord u.g.cid 3) 0 48 + 4096 * (96 * u.g.core + u.g.grp) + 32 * (if u.name = .a then rest.length else 127 - rest.length)
      let e' : Spill := ⟨BitVec.ofNat 40 (s.loadN a 4), BitVec.ofNat 40 (s.loadN (a + 4) 4), BitVec.ofNat 32 (s.loadN (a + 8) 4),
        BitVec.ofNat 32 (s.loadN (a + 12) 4), true, e.stamp⟩
      let g := u.g.setSlot u.name { u.slot with moving := false, spill := e' :: rest }
      g.a.arriving = false → g.b.arriving = false → (∀ y ∈ g.a.spill ++ g.b.spill, y.cached = true → ((g.a.spill ++ g.b.spill).filter (fun z => decide (y.stamp < z.stamp))).length ≤ 1) →
        ∃ t, exec .spillMoveDone s = .next t ∧ Becomes s t u g)) ∧
  (∀ s w g f x, s.watches.find? (fun w => w.id == s.arg 0) = some w → s.group? w.gid = some g → (g.slot w.slot).wait = some x → x.instr = .waitw f →
    w.written = true → s.opens = [] → w.size = (if f.imm.getLsbD 0 then 8 else 4) → x.ops.length = 4 →
    let v := s.loadN w.addr w.size; let cmp := BitVec.ofNat 64 (x.ops.getD 2 0)
    (wordHolds f v cmp = false → exec .watchWake s = .next { s with watches := s.watches.map (fun y => if y.id = w.id then { y with written := false } else y) }) ∧
    (wordHolds f v cmp = true → g.life = .resident → ∃ t, exec .watchWake s = .next t ∧ (∀ a, t.byte a = s.byte a) ∧
      (∀ y ∈ t.watches, ¬ (y.gid = g.id ∧ y.slot = w.slot)) ∧
      t.group? w.gid = some (g.setSlot w.slot { g.slot w.slot with wait := some { x with done := true, ops := x.ops ++ [1, v] } }))) ∧
  (∀ s b, s.block? (s.arg 0) = some b → b.state = .resident → let us := bitsAt (s.ctxWord b.cid 0) 32 32
    (∃ y ∈ s.mates b, y.state = .resident ∧ ∃ g ∈ s.blockGroups y.id, g.live = true ∧ ∃ w ∈ s.watches, w.gid = g.id) →
    (∀ y ∈ s.mates b, y.state = .resident → s.stoodStill y (1600 * (if us = 0 then 100 else us)) = true) →
    ∃ t, exec .waitwSaveThreshold s = .next t ∧
      (s.saveable b = true → ∀ y ∈ t.blocks, (∃ z ∈ s.mates b, z.state = .resident ∧ z.id = y.id) → y.waiting = true) ∧
      (s.saveable b = false → t = { s with blocks := s.blocks.map (fun y =>
        if (s.mates b).any (fun z => z.state == .resident && z.id == y.id) then { y with stalledFc := some s.fc } else y) }))

/-- Copies, multicast and the arrays' self-test (R191, R192, R201, R202, R303, R378): an element copied and the request finished; a line request held
or filled; an entry fired by its timer; a fill's bytes written and its object's count taken down by 128, or its object marked. -/
def Obligations.EnginesAndFills : Prop :=
  (∀ s r x i g s' l, lastElement s r x i g → 0 < x.size → (x.gaddr i) % 128 + x.size ≤ 128 →
    s.reach g.cid g.core x.k (if x.store then rightW else rightR) [(x.gaddr i, x.size)] = (s', .lands [(l, x.size)]) → l.device = false →
    s'.egressOn g.id l.addr = false → s'.opens = [] → s'.staleCopies = [] → s'.l1 = [] → let place := (s.allot g.core g.block).1 + x.saddr i
    (x.store = false → x.saddr i + x.size ≤ (s'.allot g.core g.block).2 → s'.allot g.core g.block = s.allot g.core g.block →
      (l.addr % 128 + x.size ≤ 128) → ∃ t, exec .copyRequestDone s = .next t ∧ (∀ q ∈ t.copyReqs, q.id = r.id → q.finished = true) ∧
        (∀ a, t.byte a = s'.byte a) ∧ ∀ c p, Sparse.get (t.core c).spad p =
          if c = g.core ∧ place ≤ p ∧ p < place + x.size then s'.byte (l.addr + (p - place)) else Sparse.get (s'.core c).spad p) ∧
    (x.store = true → s'.grantedAlone l.mode (coreDie g.core) (lineOf l.addr) = true → (s.core g.core).poisoned = [] → l.addr % 128 + x.size ≤ 128 →
      x.saddr i + x.size ≤ (s.allot g.core g.block).2 → ∃ t, exec .copyRequestDone s = .next t ∧
        (∀ q ∈ t.copyReqs, q.id = r.id → q.finished = true) ∧
        ∀ a, t.byte a = if l.addr ≤ a ∧ a < l.addr + x.size then Sparse.get (s.core g.core).spad (place + (a - l.addr)) else s'.byte a)) ∧
  (∀ s r n mask m x o g, names s r → r.kind = .mcast n mask → r.phase = .ready → s.servable r = true → s.opens = [] → s.poison = [] → s.helds = [] →
    s.mgroup? (coreDie r.core) r.cid n = some m → m.die = coreDie r.core → m.cid = r.cid → m.number = n →
    m.members.find? (fun x => x.gid == r.gid && !x.leaving) = some x → r.lanes = [o] → s.group? r.gid = some g → g.core = r.core →
    s.egressOn r.gid (128 * r.line) = false → standing s r.line (r.passed.getLastD (0, 0, 0)).2.2 →
    let others := m.members.filter (fun y => mask.testBit y.index && !y.suspended && !y.leaving && y.index != x.index)
    ∃ t, exec .heldEntryEnter s = .next t ∧ (∀ a, t.byte a = s.byte a) ∧ t.reqs = s.reqs.filter (fun y => y.id != r.id) ∧
      (mask.testBit x.index = false → t.helds = [] ∧ t.fills = s.fills ++ [fillOf s x n r.core r.line o.data r.landedAt]) ∧
      (mask.testBit x.index = true → others ≠ [] → t.fills = s.fills ∧ t.helds = [⟨s.nextId, coreDie r.core, r.landedAt, (r.passed.getLastD (0, 0, 0)).2.2, r.cid, n, mask,
        r.line, s.fc, [(x.index, r.gid, o.data)], false, []⟩]) ∧
      (mask.testBit x.index = true → others = [] → (m.members.find? (fun y => y.index == x.index && y.gid == r.gid)) = some x →
        t.helds = [] ∧ t.fills = s.fills ++ [{ fillOf s x n r.core r.line o.data r.landedAt with id := s.nextId + 1 }])) ∧
  (∀ s h m x g dest, s.helds = [h] → h.id = s.arg 0 → s.mgroup? h.die h.cid h.group = some m → h.spent = false → h.fc + m.timer ≤ s.fc → s.opens = [] →
    s.poison = [] → standing s h.line h.label → h.requests = [(x.index, x.gid, dest)] → h.waiting = [] → m.members.find? (fun y => y.index == x.index && y.gid == x.gid) = some x →
    s.group? x.gid = some g →
    let missing := (m.members.filter (fun y => h.mask.testBit y.index && !y.suspended && !y.leaving && y.index != x.index)).map (·.index)
    ∃ t, exec .heldEntryTimer s = .next t ∧ (∀ a, t.byte a = s.byte a) ∧ t.fills = s.fills ++ [fillOf s x h.group g.core h.line dest h.tier] ∧
      t.helds = if missing = [] then [] else [{ h with spent := true, requests := [], waiting := missing }]) ∧
  (∀ s f g, s.fills.find? (fun f => f.id == s.arg 0) = some f → s.group? f.gid = some g → s.helds = [] → (s.core f.core).spoiled = [] →
    f.bytes.length = 128 → f.dest + 128 ≤ (s.allot f.core g.block).2 → let place := (s.allot f.core g.block).1 + f.dest; let o := s.bobj f.core f.object
    (f.reason = 0 → place + 128 ≤ f.object ∨ f.object + 16 ≤ place → ∃ t, exec .fillDelivery s = .next t ∧ (∀ a, t.byte a = s.byte a) ∧
      t.bobj f.core f.object = (if 128 < o.count then { o with count := o.count - 128 }
        else { o with count := o.init, phase := (o.phase + 1) % 2 ^ 32, ovr := o.ovr || decide (o.count < 128) }) ∧
      ∀ c p, ¬ (c = f.core ∧ f.object ≤ p ∧ p < f.object + 16) → Sparse.get (t.core c).spad p =
        if c = f.core ∧ place ≤ p ∧ p < place + 128 then f.bytes.getD (p - place) 0 else Sparse.get (s.core c).spad p) ∧
    (0 < f.reason → f.reason < 16 → f.tier < 4 → ∃ t, exec .fillDelivery s = .next t ∧ (∀ a, t.byte a = s.byte a) ∧ PadOnly s t f.core f.object 16 ∧
      t.bobj f.core f.object = { o with flt := true, frsn := f.reason, ftier := f.tier })) ∧
  (∀ s, s.arg 0 < 512 → s.coreRuns (s.arg 0) = true → let m := s.matrix (s.arg 0); 4096 ≤ m.count ∨ m.lastTestFc + 1600000 ≤ s.fc →
    ∃ t, exec .maquetteTest s = .next t ∧ (t.matrix (s.arg 0)).count = 0 ∧ (t.matrix (s.arg 0)).lastTestFc = s.fc ∧
      (t.matrix (s.arg 0)).fenced = m.fenced ||| BitVec.ofNat 8 (s.arg 1) ∧ (m.fenced ||| BitVec.ofNat 8 (s.arg 1) = m.fenced → ∀ a, t.byte a = s.byte a))
namespace Sys2Proof.Claims

/-- Of the module's registers only those listed changed. -/
def RegsOnly (s t : State) (rs : List Nat) : Prop := ∀ a, a ∉ rs → t.reg a = s.reg a

/-- Word `i` of the packet that a hardware queue reads next (R330). -/
def packetWord (s : State) (q i : Nat) : Nat :=
  s.loadN (s.field (queueBlock q) 0 48 + 64 * (s.field (queueBlock q + 0x18) 0 32 % 2 ^ s.field (queueBlock q + 8) 0 5) + 8 * i) 8

/-- A hardware queue with a packet to read (R330): enabled, no error, not empty, not waiting at a packet; no other queue waits for the ready pool. -/
def hasPacket (s : State) (q : Nat) : Prop :=
  q < 16 ∧ s.field (queueBlock q + 0x20) 0 1 = 1 ∧ s.field (queueBlock q + 0x28) 1 1 = 0 ∧
    s.field (queueBlock q + 0x18) 0 32 ≠ s.field (queueBlock q + 0x10) 0 32 ∧ s.queueWait.contains q = false ∧ s.poolWait = []

/-- It reads that packet now (R330): the ready pool has room. -/
def readsPacket (s : State) (q : Nat) : Prop := hasPacket s q ∧ s.poolFull = false ∧ s.opens = []

/-- A queue stops with an error (R330): ERR, ECODE, the driver interrupted, nothing else. -/
def QueueStops (s t : State) (q code : Nat) : Prop :=
  t.field (queueBlock q + 0x28) 1 1 = 1 ∧ t.field (queueBlock q + 0x28) 8 8 = code ∧ RegsOnly s t [queueBlock q + 0x28] ∧
    t.boot.interrupts = s.boot.interrupts ++ [(1, q)] ∧ t.works = s.works ∧ ∀ a, t.byte a = s.byte a

/-- A work that no grid runs, still to complete, that may start. -/
def opened (s : State) (w : Work) : Prop := s.work? (s.arg 0) = some w ∧ s.mayStart w = true ∧ w.grid = none

end Sys2Proof.Claims

/-- Queues and works (R329 to R333, R342): the doorbell, ECODE 4; a packet with V = 0, a reserved TYPE, a barrier packet; the driver told of a HOST
packet and its HOSTDONE; the last byte of a COPY; a queue that finds the ready pool full waits; a device-side queue's wait; the completion value. -/
def Obligations.WorkSubmission : Prop :=
  (∀ s, s.arg 0 < 16 → let q := s.arg 0; let b := queueBlock q; let wr := s.arg 1 % 2 ^ 32; let rd := s.field (b + 0x18) 0 32
    ((wr + 2 ^ 32 - rd) % 2 ^ 32 ≤ 2 ^ s.field (b + 8) 0 5 → ∃ t, exec .queueDoorbell s = .next t ∧ t.field (b + 0x10) 0 32 = wr ∧
      t.field (b + 0x28) 0 1 = (if wr = rd then 1 else 0) ∧ RegsOnly s t [b + 0x10, b + 0x28] ∧ t.queueWait.contains q = false) ∧
    (2 ^ s.field (b + 8) 0 5 < (wr + 2 ^ 32 - rd) % 2 ^ 32 → ∃ t, exec .queueDoorbell s = .next t ∧ QueueStops s t q 4) ∧
    (s.field (b + 0x28) 1 1 = 1 → ∃ t, exec .queueErrClear s = .next t ∧ RegsOnly s t [b + 0x28] ∧ t.reg (b + 0x28) = s.reg (b + 0x28) &&& ~~~2#64)) ∧
  (∀ s, hasPacket s (s.arg 0) → s.poolFull = true → exec .queuePacketRead s = .next { s with poolWait := [s.arg 0] }) ∧
  (∀ s, readsPacket s (s.arg 0) → let q := s.arg 0; let w0 := packetWord s q 0; let rd := s.field (queueBlock q + 0x18) 0 32
    (w0 / 8 % 2 = 0 → exec .queuePacketRead s = .next { s with queueWait := q :: s.queueWait }) ∧
    (w0 / 8 % 2 = 1 → w0 % 8 = 0 ∨ 6 ≤ w0 % 8 → ∃ t, exec .queuePacketRead s = .next t ∧ QueueStops s t q 1) ∧
    (w0 / 8 % 2 = 1 → 1 ≤ w0 % 8 → w0 % 8 ≤ 5 → w0 / 128 % 2 ^ 25 ≠ 0 → ∃ t, exec .queuePacketRead s = .next t ∧ QueueStops s t q 2) ∧
    (w0 / 8 % 2 = 1 → w0 % 8 = 4 → w0 / 128 = 0 → (∀ i, 2 ≤ i → i < 7 → packetWord s q i = 0) → ∃ t w, exec .queuePacketRead s = .next t ∧
      t.works = s.works ++ [w] ∧ w.kind = .marker ∧ w.queue = q ∧ w.dsq = false ∧ w.index = rd ∧ w.cid = s.field (queueBlock q + 0x20) 4 16 ∧
      w.band = max (w0 / 16 % 4) (s.field (queueBlock q + 0x20) 1 2) ∧ w.done = packetWord s q 7 % 2 ^ 48 ∧ w.status = none ∧
      t.field (queueBlock q + 0x18) 0 32 = (rd + 1) % 2 ^ 32 ∧ (∀ a, t.byte a = s.byte a))) ∧
  (∀ s w, opened s w → w.kind = .host → w.started = false → s.dispatches = true → let a := fun i => (w.words.getD (3 + i) 0).toNat
    ∃ t, exec .hostPacket s = .next t ∧ t.work? w.id = some { w with started := true } ∧
      t.boot.interrupts = s.boot.interrupts ++ [(2, w.queue + 16 * (a 0 + 2 ^ 64 * a 1 + 2 ^ 128 * a 2 + 2 ^ 192 * a 3))]) ∧
  (∀ s w, s.works.find? (fun w => w.kind == .host && !w.dsq && w.queue == s.arg 0 && w.started && w.result.isNone) = some w →
    exec .hostdone s = .next (s.setWork { w with result := some (s.arg 1 % 256) })) ∧
  (∀ s w o s1 s2 l1 l2, opened s w → w.kind = .copy → w.started = true ∨ s.dispatches = true → w.octet = some o → s.engineHeld o = false → w.copied + 1 = (w.words.getD 4 0).toNat % 2 ^ 40 →
    let off := fun i => ((w.words.getD i 0).toNat % 2 ^ 48 + w.copied) % 2 ^ 48; let unit := fdieCore + 1 + o
    s.unitReach unit w.id w.cid (32 * o) w.k rightR [(off 2, 1)] = (s1, .lands [(l1, 1)]) →
    s1.unitReach unit w.id w.cid (32 * o) w.k rightW [(off 3, 1)] = (s2, .lands [(l2, 1)]) → l1.device = false → l2.device = false → uncached s2 →
    s2.grantedAlone l2.mode (o / 4) (l2.addr / 128) = true → s2.work? w.id = some w → s2.works = s.works →
    ∃ t, exec .copyPacket s = .next t ∧ t.work? w.id = some { w with started := true, copied := w.copied + 1, result := some 0 } ∧
      ∀ a, t.byte a = if a = l2.addr then s2.byte l1.addr else s2.byte a) ∧
  (∀ s s' ls p, let cid := s.arg 0; let q := s.arg 1
    q < 64 → s.ctxValid cid = true → s.dsqEnabled cid q = true → s.dsqRd cid q ≠ s.dsqW cid q → s.poolFull = false → s.poolWait = [] →
    (∀ e ∈ s.dsqWait, ¬ (e.1 = cid ∧ e.2.1 = q)) → s.dsqPacket cid q (s.dsqRd cid q) = (s', .lands ls, p) → p.getD 0 0 / 8 % 2 = 0 →
    exec .dsqRead s = .next { s' with dsqWait := (cid, q, s'.fc) :: s'.dsqWait }) ∧
  (∀ s e, s.dsqWait.find? (fun e => e.1 == s.arg 0 && e.2.1 == s.arg 1) = some e → e.2.2 + 65536 ≤ s.fc →
    exec .dsqValidTimeout s = .next { s with dsqWait := s.dsqWait.erase e }) ∧
  (∀ s w s2 l, s.work? (s.arg 0) = some w → w.grid = none → w.parent = none → s.finalStatus w = some 0 → w.done ≠ 0 →
    (s.countCompletion w).reach w.cid fdieCore w.k rightW [(w.done, 8)] = (s2, .lands [(l, 8)]) → l.device = false → uncached s2 → s2.l2 = [] →
    s2.grantedAlone l.mode ((homeOf (l.addr / 128)).getD 0) (l.addr / 128) = true →
    ∃ t, exec .workComplete s = .next t ∧ t.work? w.id = none ∧ t.loadN l.addr 8 = s2.flclk.toNat % 2 ^ 56 ∧
      ∀ a, a < l.addr ∨ l.addr + 8 ≤ a → t.byte a = s2.byte a)

/-- Blocks (R144, R230, R231, R233, R335 to R339): one placed with its groups as R15 and R86 start them, saved with its scratchpad in the image,
resumed on another cluster, released; the waits of gangs and of home dies. -/
def Obligations.WorkPlacement : Prop :=
  (∀ s x, s.grid? (s.arg 0) = some x → let core := s.arg 1; let path := s.args.drop 2; let l := x.launch
    s.gridPlaces x = true → core < 512 → x.legalPath path = true → x.placed.contains path = false → s.fitsAt [] x path core = true →
    s.othersFirst (x.band, 2, x.order) = false → l.wholeLevel = l.blockLevel →
    ∃ t b gs, exec .blockPlace s = .next t ∧ t.blocks = s.blocks ++ [b] ∧ b.grid = x.id ∧ b.path = path ∧ b.cores = l.coresAt core ∧ b.state = .resident ∧
      t.groups = s.groups ++ gs ∧ gs.length = l.groupCount ∧ gs.map (·.id) = b.groups ∧
      (∀ g ∈ gs, g.block = b.id ∧ g.cid = x.cid ∧ g.life = .resident ∧ g.slabs = l.slabs ∧ g.core ∈ b.cores ∧ g.accs = [] ∧
        g.a = { Slot.empty with st := .run, pc := l.entry, mask := 0xFFFFFFFF, check := true } ∧ g.b = .empty ∧
        (∀ i, g.peek (.s i) = if i < 4 then x.args.getD i 0 else 0) ∧ (∀ r i, g.peek (.v r i) = 0)) ∧
      (∀ c ∈ b.cores, ∃ e ∈ (t.core c).room, e.1 = b.id ∧ e.2.2 = l.spad ∧ ∀ p, p < l.spad → Sparse.get (t.core c).spad (e.2.1 + p) = 0)) ∧
  (∀ s x, s.grid? (s.arg 0) = some x → s.gridPlaces x = true → x.anyDie = false → x.homeDie.isSome = true →
    max x.affinityFc (x.readyFc.getD 0) + 32000 ≤ s.fc → (∀ path ∈ x.waiting, s.fitsSomewhere [] x path = false) →
    exec .affinityTimeout s = .next (s.setGrid { x with anyDie := true })) ∧
  (∀ s b x path, s.block? (s.arg 0) = some b → s.preemptible b = true → (∀ y ∈ s.blocks, s.preemptible y = true → y = b) → x ∈ s.grids →
    s.gridPlaces x = true → path ∈ x.waiting → x.band < s.bandOf b → s.fitsSomewhere s.saving x path = false →
    ∃ t y, exec .saveRequest s = .next t ∧ y ∈ t.blocks ∧ y.id = b.id ∧ y.state = .saving) ∧
  (∀ s b c, s.block? (s.arg 0) = some b → b.state = .saving → s.saveReady b = true → b.cores = [c] →
    (∀ g ∈ s.groups, g.block = b.id → g.live = true ∨ s.copies g = false) → ∃ t b' m, exec .blockSaved s = .next t ∧
    t.block? b.id = some b' ∧ (b'.state = .saved ∨ b'.state = .woken) ∧ (∀ g ∈ t.groups, g.block = b.id → g.life = .saved) ∧
    (∀ e ∈ (t.core c).room, e.1 ≠ b.id) ∧ b'.images = [m] ∧ m.core = c ∧
    ∀ p, p < (s.allot c b.id).2 → Sparse.get m.bytes p = Sparse.get (s.core c).spad ((s.allot c b.id).1 + p)) ∧
  (∀ s b, s.block? (s.arg 0) = some b → s.args = [b.id, s.arg 1] → s.arg 1 < 128 → s.wholeUnitOf b [b.id] = true →
    s.resumesAt b (s.arg 1) = true → s.othersFirst (s.blockRank b) = false → (∀ r ∈ s.reqs, r.kind.ofSlot = false) →
    (∀ g ∈ s.groups, g.block = b.id → g.a.resumed.arriving = false ∧ g.b.resumed.arriving = false) → (s.groups.map (·.id)).Pairwise (· ≠ ·) →
    ∃ t b', exec .blockResume s = .next t ∧ t.block? b.id = some b' ∧ b'.state = .resident ∧ b'.cluster = s.arg 1 ∧ b'.placedFc = s.fc ∧
      ∀ g ∈ s.groups, g.block = b.id → g.life = .saved → ∃ h ∈ t.groups, h.id = g.id ∧ h.life = .resident ∧ h.core = 4 * s.arg 1 + g.core % 4) ∧
  (∀ s x, s.grid? (s.arg 0) = some x → let i := s.arg 1; let unit := s.args.drop 2; let free := s.freeCores x.launch (x.launch.domainAt x.launch.wholeLevel)
    s.gangWaits x unit = true → 1600000 ≤ s.gangAge x unit → (∀ g, s.gang? x.id unit = some g → g.inst = none ∧ s.olderGang g = false) → i ∈ s.reservable x unit →
    (∀ j ∈ s.reservable x unit, free j < free i ∨ (free j = free i ∧ i ≤ j)) →
    exec .gangReserve s = .next { s with gangs := s.gangs.map (fun y => if y.grid = x.id ∧ y.path = unit then { y with inst := some i } else y) }) ∧
  (∀ s x g i b, s.grid? (s.arg 0) = some x → let unit := s.args.drop 1; let l := x.launch
    s.gang? x.id unit = some g → g.inst = some i → g.failed = false → s.gangWaits x unit = true → 16000000 ≤ s.gangAge x unit →
    l.holdsAt (s.placeRoom s.saving l) s.windowRoom (l.wholeLevel - l.blockLevel) i = 0 → s.block? b.id = some b →
    s.blocks.filter (fun b => s.preemptible b && instanceOf (l.domainAt l.wholeLevel) (b.cores.headD 0) == i) = [b] →
    ∃ t y, exec .gangEvict s = .next t ∧ y ∈ t.blocks ∧ y.id = b.id ∧ y.state = .saving) ∧
  (∀ s x, s.grid? (s.arg 0) = some x → s.gangWaits x (s.args.drop 1) = true → 160000000 ≤ s.gangAge x (s.args.drop 1) → ∃ t, exec .gangTimeout s = .next t ∧
    t.grid? x.id = some { x with failed := true } ∧ (∀ g ∈ t.gangs, g.grid ≠ x.id) ∧ ∀ a, t.byte a = s.byte a) ∧
  (∀ s b, s.block? (s.arg 0) = some b → b.state = .retired → (∀ g ∈ s.groups, g.block = b.id → g.accs = []) → s.blockQuiet b = true → s.l1 = [] →
    ∃ t b', exec .blockRelease s = .next t ∧ t.block? b.id = some b' ∧ b'.state = .released ∧ (∀ g ∈ t.groups, g.block ≠ b.id) ∧
      (∀ c ∈ b.cores, ∀ e ∈ (t.core c).room, e.1 ≠ b.id) ∧ ∀ a, t.byte a = s.byte a)

namespace Sys2Proof.Claims

/-- A message leaves by the Fuash port; nothing else changes. -/
def told (s : State) (bs : List Byte) : State := { s with fleet := { s.fleet with outbox := s.fleet.outbox ++ [bs] } }

/-- A response to a metering or service command (R403): TYPE, PEN, CMD, ITAG, CC, BODY. -/
def response (s : State) (cmd cc : Byte) (body : List Byte) : List Byte :=
  [0x7F, 0x00, 0x00, 0xD1, 0xC7, cmd, BitVec.ofNat 8 (s.arg 0), cc] ++ body

/-- A word of the module totals (R399). -/
def total (s : State) (i : Nat) : DWord := s.fleet.totals.getD i 0

/-- An SPDM 1.3 message of the responder, with its type byte (R402, R406). -/
def spdm (code p1 p2 : Byte) (rest : List Byte) : List Byte := [0x05, 0x13, code, p1, p2] ++ rest

end Sys2Proof.Claims

/-- Contexts and Scorepad (R328, R395, R397, R399 to R401): VALID set with a fresh record, or held; cleared; the interval, of which MEAS is CTX +
IDLE + RESID and no pJ is lost; the final record and its number. -/
def Obligations.ContextsAndMetering : Prop :=
  (∀ s, let cid := s.arg 0; let only := fun (t : State) => ∀ a, a < ctxBase cid ∨ ctxBase cid + 4 ≤ a → t.byte a = s.byte a
    cid < 65536 →
    (s.meter? cid = none → s.fleet.overflow.length < 256 → ∃ t m, exec .contextActivate s = .next t ∧ t.ctxValid cid = true ∧
      t.fleet.live = s.fleet.live ++ [m] ∧ m.cid = cid ∧ m.pj = 0 ∧ cid ∉ t.fleet.heldValid ∧ only t ∧
      m.words = [BitVec.ofNat 64 (s.loadN (ctxBase cid + 8) 8), BitVec.ofNat 64 cid, 0, 0, 0, 0, 0, 0, 0, 0, 0, 0, 0, 0, 0, 0]) ∧
    (s.meter? cid = none → 256 ≤ s.fleet.overflow.length → s.ctxValid cid = true ∨ cid ∉ s.fleet.heldValid → ∃ t, exec .contextActivate s = .next t ∧
      t.ctxValid cid = false ∧ t.fleet.live = s.fleet.live ∧ cid ∈ t.fleet.heldValid ∧ only t) ∧
    (s.ctxValid cid = true → ∃ t, exec .contextInvalidate s = .next t ∧ t.ctxValid cid = false ∧ cid ∉ t.fleet.heldValid ∧ t.fleet.live = s.fleet.live ∧ only t)) ∧
  (∀ s m, s.meter? (s.arg 0) = some m → s.ctxValid m.cid = false → (∀ w ∈ s.works, w.cid = m.cid → w.status ≠ none) → (∀ g ∈ s.groups, g.cid ≠ m.cid) →
    s.fleet.retired.length < 16384 → s.fleet.overflow = [] → m.words.length = 16 → ∃ t r, exec .contextRetire s = .next t ∧ t.meter? m.cid = none ∧
      t.fleet.retired = s.fleet.retired ++ [r] ∧ r.seq = s.fleet.nextSeq ∧ t.fleet.nextSeq = (s.fleet.nextSeq + 1) % 2 ^ 32 ∧
      r.words.getD 1 0 = BitVec.ofNat 64 (m.cid + 2 ^ 16 + s.fleet.nextSeq * 2 ^ 32) ∧ r.words.getD 2 0 = s.flclk ∧ r.words.length = 16 ∧
      (∀ i, (i = 0 ∨ 3 ≤ i) → (i < 8 ∨ 12 ≤ i) → r.words.getD i 0 = m.words.getD i 0) ∧ ∀ a, t.byte a = s.byte a) ∧
  (∀ s, let charges := s.args.drop 2
    s.boot.powered = true → s.fleet.closedFc + 1600000 ≤ s.fc → charges.length = s.fleet.live.length → ∃ t, exec .scorepadInterval s = .next t ∧
      total t 0 = s.flclk ∧ total t 1 = total s 1 + 1 ∧ total t 2 = total s 2 + BitVec.ofNat 64 (s.arg 0) ∧ total t 4 = total s 4 + BitVec.ofNat 64 (s.arg 1) ∧
      total t 2 - total s 2 = (total t 3 - total s 3) + (total t 4 - total s 4) + (total t 5 - total s 5) ∧
      (total t 6).toNat / 2 ^ 32 = s.fleet.calep % 2 ^ 32 ∧ (total s 6).toNat % 2 ^ 32 ≤ (total t 6).toNat % 2 ^ 32 ∧
      (∀ (i : Nat) (m : Meter) (c : Nat), s.fleet.live[i]? = some m → charges[i]? = some c → m.words.length = 16 → ∃ m' : Meter, t.fleet.live[i]? = some m' ∧ m'.cid = m.cid ∧
        m'.pj = (m.pj + c) % 1000000 ∧ m'.words.getD 11 0 = m.words.getD 11 0 + BitVec.ofNat 64 ((m.pj + c) / 1000000) ∧
        ∀ j, j < 8 → m'.words.getD j 0 = m.words.getD j 0) ∧ ∀ a, t.byte a = s.byte a)

/-- The Fuash port (R402 to R407): a request of a wrong length is answered with CC 1 and changes nothing; each command's response and effect; the
order of SPDM's requests. The codes of SPDM's own messages are the standard's (assumption 11). -/
def Obligations.FuashPort : Prop :=
  (∀ s, ∀ e ∈ [(Instr.info, (1 : Byte), 1), (.readlive, 2, 2), (.readret, 3, 3), (.ack, 4, 2), (.totals, 5, 1), (.health, 6, 1), (.ceiling, 7, 2),
    (.setmodid, 8, 2), (.start, 9, 1)], s.args.length ≠ e.2.2 → exec e.1 s = .next (told s (response s e.2.1 1 []))) ∧
  (∀ s, s.arg 0 < 256 → s.args.length = 1 → let f := s.fleet
    (∀ m rest, f.retired = m :: rest → exec .info s = .next (told s (response s 1 0 (leBytes 4 128 ++ leBytes 4 (rest.length + 1) ++ leBytes 4 m.seq ++
      leBytes 4 f.nextSeq ++ leBytes 4 f.overflow.length ++ leBytes 4 f.live.length)))) ∧
    exec .totals s = .next (told s (response s 5 0 (f.totals.flatMap (fun w => leBytes 8 w.toNat)))) ∧
    ((∀ i, s.boot.sensors.getD i 0 < 256) → ∃ b, exec .health s = .next (told s (response s 6 0 b)) ∧ b.length = 64 ∧ b.drop 48 = List.replicate 16 0 ∧
      b.take 8 = leBytes 4 (s.reg bootstat).toNat ++ leBytes 4 (s.reg pmstat).toNat ∧
      (∀ i, i < 10 → leNat ((b.drop 8).take 8) / 64 ^ i % 64 = f.mchk.getD i 0 % 64) ∧
      (∀ i, i < 24 → (leNat ((b.drop 16).take 8) / 2 ^ i % 2 = 1 ↔ s.linkUp (i / 6) (i % 6) = true)) ∧
      (∀ i, i < 36 → s.boot.sensors.getD i 0 ≤ (b.getD (24 + sensorDie i) 0).toNat) ∧ ((b.getD 44 0).toNat % 2 = 1 ↔ f.heldValid ≠ [])) ∧
    (let ok := s.field pmstat 12 2 = 3 ∧ ¬ (s.field pmstat 15 1 = 1 ∧ ∃ c ∈ s.boot.sensors, s.twarn ≤ c);
      (¬ ok → exec .start s = .next (told s (response s 9 2 []))) ∧
      (ok → ∃ t, exec .start s = .next t ∧ t.fleet = (told s (response s 9 0 [])).fleet ∧ t.boot = { s.boot with stage := 1 } ∧ ∀ a, a ≠ bootstat → t.reg a = s.reg a))) ∧
  (∀ s, s.arg 0 < 256 → s.args.length = 2 → let n := s.arg 1
    (n < 65536 → s.meter? n = none → exec .readlive s = .next (told s (response s 2 3 []))) ∧
    (∀ m, n < 65536 → s.meter? n = some m → m.words.length = 16 → ∃ (t : State) (ws : List DWord), exec .readlive s = .next t ∧
      t.fleet.outbox = s.fleet.outbox ++ [response s 2 0 (ws.flatMap (fun w => leBytes 8 w.toNat))] ∧ ws.length = 16 ∧ ws.getD 2 0 = s.flclk ∧
      (∀ i, i < 2 ∨ 3 ≤ i → i < 8 ∨ 11 ≤ i → ws.getD i 0 = m.words.getD i 0) ∧ t.fleet.retired = s.fleet.retired ∧ ∀ a, t.byte a = s.byte a) ∧
    (n < 2 ^ 32 → s.fleet.nextSeq ≤ n → exec .ack s = .next (told s (response s 4 1 []))) ∧
    (n < 2 ^ 32 → n < s.fleet.nextSeq → let out := s.fleet.retired.filter (fun m => decide (m.seq ≤ n) && m.read)
      let kept := s.fleet.retired.filter (fun m => !(decide (m.seq ≤ n) && m.read))
      let room := 16384 - kept.length
      ∃ t, exec .ack s = .next t ∧ t.fleet.outbox = s.fleet.outbox ++ [response s 4 0 (leBytes 4 out.length)] ∧
        t.fleet.retired = kept ++ s.fleet.overflow.take room ∧ t.fleet.overflow = s.fleet.overflow.drop room ∧ t.fleet.live = s.fleet.live ∧
        (s.fleet.overflow.length < 256 + room → ∀ cid ∈ s.fleet.heldValid, Move.event .contextActivate [cid] ∈ t.agenda) ∧ ∀ a, t.byte a = s.byte a) ∧
    (n < 600 ∨ 2000 < n → exec .ceiling s = .next (told s (response s 7 1 []))) ∧
    (600 ≤ n → n ≤ 2000 → exec .ceiling s = .next { told s (response s 7 0 []) with boot := { s.boot with ceiling := n } }) ∧
    (n < 1024 → 10 ≤ s.field bootstat 20 4 → exec .setmodid s = .next (told s (response s 8 2 []))) ∧
    (n < 1024 → s.field bootstat 20 4 < 10 → ∃ t, exec .setmodid s = .next t ∧ t.fleet = (told s (response s 8 0 [])).fleet ∧
      (t.reg modid).toNat = n ∧ ∀ a, a ≠ modid → t.reg a = s.reg a)) ∧
  (∀ s, s.arg 0 < 256 → s.args.length = 3 → s.arg 1 < 2 ^ 32 → 1 ≤ s.arg 2 → s.arg 2 ≤ 8 → let out := (s.fleet.retired.filter (fun m => decide (s.arg 1 ≤ m.seq))).take (s.arg 2)
    ∃ t, exec .readret s = .next t ∧
      t.fleet.outbox = s.fleet.outbox ++ [response s 3 0 (leBytes 4 out.length ++ [0, 0, 0, 0] ++ out.flatMap (fun m => m.words.flatMap (fun w => leBytes 8 w.toNat)))] ∧
      t.fleet.retired.map (·.seq) = s.fleet.retired.map (·.seq) ∧
      (∀ (i : Nat) (m m' : Meter), s.fleet.retired[i]? = some m → t.fleet.retired[i]? = some m' → ((∃ o ∈ out, o.seq = m.seq) → m'.read = true ∧ ∀ j, j ≠ 1 → m'.words.getD j 0 = m.words.getD j 0) ∧
        ((∀ o ∈ out, o.seq ≠ m.seq) → m' = m))) ∧
  (∀ s, (∃ bs, exec .mctpControl s = .next (told s (0 :: bs))) ∧
    (s.arg 0 = 5 → exec .unsupportedRequest s = .next (told s (spdm 0x7F 7 0 []))) ∧
    (s.arg 0 ≠ 0 → s.arg 0 ≠ 5 → s.arg 0 ≠ 0x7F → exec .unsupportedRequest s = .next s) ∧
    (s.arg 0 = 0x7F → s.arg 1 = 0 ∨ 9 < s.arg 1 → exec .unsupportedRequest s = .next
      (told s [0x7F, 0x00, 0x00, 0xD1, 0xC7, BitVec.ofNat 8 (s.arg 1), BitVec.ofNat 8 (s.arg 2), 4])) ∧
    (∀ e ∈ [(Instr.getCapabilities, 1), (.negotiateAlgorithms, 2), (.getDigests, 3), (.getCertificate, 3), (.challenge, 3), (.getMeasurements, 3)],
      s.fleet.spdm ≠ e.2 → exec e.1 s = .next (told s (spdm 0x7F 4 0 []))) ∧
    (let gives := fun (i : Instr) (stage : Nat) (m : List Byte) => ∃ t, exec i s = .next t ∧ t.fleet.outbox = s.fleet.outbox ++ [m] ∧ t.fleet.spdm = stage ∧
        t.boot = s.boot ∧ t.mem = s.mem ∧ t.mmio = s.mmio;
      gives .getVersion 1 (spdm 4 0 0 [0, 1, 0x00, 0x13]) ∧ (s.fleet.spdm = 1 → ∃ bs, gives .getCapabilities 2 (spdm 0x61 0 0 bs)) ∧
      (s.fleet.spdm = 2 → s.arg 0 ≠ 0 → s.arg 1 ≠ 0 → ∃ bs, gives .negotiateAlgorithms 3 (spdm 0x63 0 0 bs)) ∧
      (s.fleet.spdm = 3 → gives .getDigests 3 (spdm 1 1 1 (Config.sha3 Config.certChain)) ∧
        (s.arg 0 = 0 → if s.arg 1 < Config.certChain.length then ∃ n, n ≤ s.arg 2 ∧ gives .getCertificate 3
            (spdm 2 0 0 (leBytes 2 n ++ leBytes 2 (Config.certChain.length - s.arg 1 - n) ++ (Config.certChain.drop (s.arg 1)).take n))
          else exec .getCertificate s = .next (told s (spdm 0x7F 1 0 []))) ∧
        (s.boot.identity ≠ 2 → exec .challenge s = .next (told s (spdm 0x7F 4 0 []))) ∧
        (s.boot.identity = 2 → s.arg 0 = 0 → s.args.length = 33 → ∃ (nonce body : List Byte), nonce.length = 32 ∧ body = Config.sha3 Config.certChain ++ nonce ++ [0, 0] ∧
          gives .challenge 3 (spdm 3 0 1 (body ++ Config.sign (Config.sha3 (s.fleet.transcript ++ [0x13, 0x83, 0, 0] ++ (s.args.drop 1).map (BitVec.ofNat 8) ++
            [0x13, 3, 0, 1] ++ body))))) ∧
        (∀ (e : List Byte × Nat × Nat), 1 ≤ s.arg 0 → s.arg 0 < 0xFE → s.boot.log[s.arg 0 - 1]? = some e → gives .getMeasurements 3 (spdm 0x60 0 0 (e.1 ++ leBytes 4 e.2.1 ++ leBytes 4 e.2.2))) ∧
        (s.arg 0 = 0xFE → gives .getMeasurements 3 (spdm 0x60 0 0 (Config.sha3 (s.boot.log.flatMap (fun e => e.1 ++ leBytes 4 e.2.1 ++ leBytes 4 e.2.2))))) ∧
        (s.arg 0 ≠ 0 → s.arg 0 ≠ 0xFE → s.boot.log[s.arg 0 - 1]? = none → exec .getMeasurements s = .next (told s (spdm 0x7F 1 0 []))))))

namespace Sys2Proof.Claims

/-- A command of an idle tier instance names an entry of its table: the tier, the instance, the label (R347). -/
def commands (s : State) (t : Tier) (inst label : Nat) : Prop :=
  tierOf (s.arg 0) = some t ∧ s.arg 1 < tierCount t ∧ inst = commandInst t (s.arg 1) ∧ label = s.arg 2 % 2 ^ 15 ∧
    s.field (tierBlock t (s.arg 1) + 8) 0 1 = 0

/-- TCMD with a command in it (R347). -/
def commandWord (s : State) (t : Tier) (op : Nat) : DWord :=
  BitVec.ofNat 64 ((if t = .core then s.arg 1 * 2 ^ 32 else 0) + op * 2 ^ 28 + s.arg 2 % 2 ^ 15)

/-- After a command only TCMD and TSTAT of its block may differ among the registers. -/
def BlockOnly (s t : State) (tier : Tier) : Prop := RegsOnly s t [tierBlock tier (s.arg 1), tierBlock tier (s.arg 1) + 8]

/-- A request of a group whose access has no error yet. -/
def mayFail (s : State) (r : Req) : Prop :=
  r.gid ≠ 0 ∧ r.core < fdieCore ∧ r.kind.ofSlot = false ∧ r.kind ≠ .prf ∧
    ∃ g a, s.group? r.gid = some g ∧ g.live = true ∧ g.access? r.acc = some a ∧ a.fail = none

/-- The request is over, and its access holds an error for the covering wait (R98). -/
def FailedWith (t : State) (r : Req) (p : Failure → Prop) : Prop :=
  (∀ x ∈ t.reqs, x.id ≠ r.id) ∧ ∃ h a f, t.group? r.gid = some h ∧ a ∈ h.accs ∧ a.id = r.acc ∧ a.fail = some f ∧ p f

/-- A line lies in a physical range. -/
def inRange (a n line : Nat) : Prop := a ≤ 128 * line ∧ 128 * line < a + n

end Sys2Proof.Claims

/-- The commands of a tier's owner (R347 to R349, R366, R367) and of storage (R354, R355): HOLD and RELEASE in the entry and in every cached copy;
INVAL; WRITE with its errors, HOLD kept and GEN advanced; DRAIN, its end and its timeout; FORCE; SHOOT; verdicts and their timeout; the scanner;
the engine's answer. -/
def Obligations.OwnersCommands : Prop :=
  (∀ s t inst label, commands s t inst label → label < s.tableSize t inst → s.opens = [] → ∀ e ∈ [(Instr.hold, 1, true), (.release, 5, false)],
    let w := s.loadN (s.entryAddr t inst label) 8
    ∃ t', exec e.1 s = .next t' ∧ t'.loadN (s.entryAddr t inst label) 8 = (if w / 4 % 2 = 1 then (if e.2.2 then w else w - 4) else if e.2.2 then w + 4 else w) ∧
      (∀ a, a < s.entryAddr t inst label ∨ s.entryAddr t inst label + 8 ≤ a → t'.byte a = s.byte a) ∧
      (∀ c ∈ t'.cache, c.tier = t → c.inst = inst → c.label = label → c.entry.hold = e.2.2) ∧ t'.cache.length = s.cache.length ∧
      t'.reg (tierBlock t (s.arg 1)) = commandWord s t e.2.1 ∧ RegsOnly s t' [tierBlock t (s.arg 1)]) ∧
  (∀ s t inst label, commands s t inst label → ∃ t', exec .inval s = .next t' ∧ (∀ a, t'.byte a = s.byte a) ∧ RegsOnly s t' [tierBlock t (s.arg 1)] ∧
    t'.cache = s.cache.filter (fun c => !(c.tier == t && c.inst == inst && c.label == label))) ∧
  (∀ s t inst label, commands s t inst label → label < s.tableSize t inst → s.opens = [] → let b := tierBlock t (s.arg 1); let a := s.entryAddr t inst label
    let old := s.entryInMem t inst label
    let new : Entry := { w0 := (s.reg (b + 0x10)).toNat, w1 := (s.reg (b + 0x18)).toNat, w2 := (s.reg (b + 0x20)).toNat, w3 := (s.reg (b + 0x28)).toNat }
    let refuses := fun (err : Nat) => ∃ t', exec .write s = .next t' ∧ t'.field (b + 8) 8 8 = err ∧ (∀ a, t'.byte a = s.byte a) ∧ t'.cache = s.cache ∧ BlockOnly s t' t;
    (old.hold = false → old.act ≠ 0 → refuses 2) ∧ (old.hold = true ∨ old.act = 0 → new.malformed t = true → refuses 1) ∧
    (old.hold = true ∨ old.act = 0 → new.malformed t = false → ∃ t', exec .write s = .next t' ∧
      (t'.entryInMem t inst label).hold = old.hold ∧ (t'.entryInMem t inst label).gen = (old.gen + 1) % 2 ^ 27 ∧
      t'.loadN a 8 % 2 ^ 2 = new.w0 % 2 ^ 2 ∧ t'.loadN a 8 / 2 ^ 3 % 2 ^ 34 = new.w0 / 2 ^ 3 % 2 ^ 34 ∧
      t'.loadN (a + 8) 8 = new.w1 ∧ t'.loadN (a + 16) 8 = new.w2 ∧ t'.loadN (a + 24) 8 = new.w3 ∧
      (∀ x, x < a ∨ a + 32 ≤ x → t'.byte x = s.byte x) ∧ (∀ c ∈ t'.cache, ¬ (c.tier = t ∧ c.inst = inst ∧ c.label = label)) ∧ RegsOnly s t' [b])) ∧
  (∀ s t inst label, commands s t inst label → let b := tierBlock t (s.arg 1)
    (s.running 2 = none → ∃ t', exec .drain s = .next t' ∧ t'.field (b + 8) 0 1 = (if s.inFlight t inst label = [] then 0 else 1) ∧
      (∀ a, t'.byte a = s.byte a) ∧ t'.reqs = s.reqs ∧ BlockOnly s t' t) ∧
    (∃ t', exec .force s = .next t' ∧ t'.inFlight t inst label = [] ∧
      ((∀ r ∈ s.reqs, r.kind.ofSlot = false) → BlockOnly s t' t)) ∧
    (∀ r, s.reqs = [r] → mayFail s r → r.passed.contains (t.num, inst, label) = true → (t = .core → r.cid = inst) → r.phase = .ready →
      ∃ t', exec .force s = .next t' ∧ FailedWith t' r (fun f => f.reason = 8 ∧ f.tier = t.num ∧ f.label = label ∧ f.lanes = r.left ∧ f.tag = s.tagOf r) ∧
        ∀ a, t'.byte a = s.byte a)) ∧
  (∀ s c, s.running 2 = some c → let b := tierBlock c.tier c.inst
    (s.inFlight c.tier (commandInst c.tier c.inst) c.label = [] → ∃ t', exec .drain s = .next t' ∧ t'.field (b + 8) 0 1 = 0 ∧ c ∉ t'.cmds ∧ RegsOnly s t' [b + 8]) ∧
    (c.fc + 1600 * s.field (b + 0x40) 0 32 ≤ s.fc → ∃ t', exec .drainTimeout s = .next t' ∧ t'.field (b + 8) 0 1 = 0 ∧ t'.field (b + 8) 8 8 = 3 ∧ c ∉ t'.cmds ∧
      t'.reqs = s.reqs ∧ RegsOnly s t' [b + 8])) ∧
  (∀ s t, s.args.length = 2 → tierOf (s.arg 0) = some t → s.arg 1 < tierCount t → let b := tierBlock t (s.arg 1); let a := (s.shootArgs t (s.arg 1)).1; let n := (s.shootArgs t (s.arg 1)).2
    (s.running 3 = none → s.field (b + 8) 0 1 = 0 → s.storesDue a n = true → ∃ t', exec .shoot s = .next t' ∧ t'.field (b + 8) 0 1 = 1 ∧ (∀ x, t'.byte x = s.byte x) ∧ BlockOnly s t' t) ∧
    ((s.running 3 = none ∧ s.field (b + 8) 0 1 = 0) ∨ (∃ c, s.running 3 = some c ∧ c.tier = t ∧ c.inst = s.arg 1) → s.storesDue a n = false →
      (∀ l ∈ s.l1, inRange a n l.line → l.dirty = []) → (∀ o ∈ s.opens, ¬ inRange a n o.line) → ∃ t', exec .shoot s = .next t' ∧ t'.field (b + 8) 0 1 = 0 ∧
        (∀ l ∈ t'.l1, ¬ inRange a n l.line) ∧ (∀ l ∈ t'.l2, ¬ inRange a n l.line) ∧ (∀ l ∈ t'.staleCopies, ¬ inRange a n l.line) ∧
        (s.l1.Pairwise (fun l m => l.same m = false) → ∀ l ∈ s.l1, ¬ inRange a n l.line → l ∈ t'.l1) ∧ (∀ x, t'.byte x = s.byte x) ∧ BlockOnly s t' t)) ∧
  (∀ s, s.arg 0 < 3 → let q := s.arg 0; let tag := BitVec.ofNat 64 (s.arg 1); let s0 := s.setReg (faultBlock q + 0x28) tag
    (s.reqs.find? (s.awaitsVerdict q tag) = none → s.copyAwaiting q tag = none → exec .verdictRetry s = .next s0 ∧ exec .verdictFail s = .next s0) ∧
    (∀ r ∈ s.reqs, s.awaitsVerdict q tag r = true → s.reqs.Pairwise (fun x y => x.id ≠ y.id) →
      (∀ x ∈ s.reqs, s.awaitsVerdict q tag x = true → mayFail s x ∧ ∀ g, s.group? x.gid = some g → g.life = .resident) →
      exec .verdictRetry s = .next { s0 with reqs := s.reqs.map (fun x => if s.awaitsVerdict q tag x then
        { x with k := x.k0, off := x.off0, rights := 31, passed := [], list := 0, phase := .at .core x.cid } else x) } ∧
      ∀ f fq fc, r.phase = .suspended f fq fc → (∀ x ∈ s.reqs, s.awaitsVerdict q tag x = true → x = r) → ∃ t', exec .verdictFail s = .next t' ∧ FailedWith t' r (· = f) ∧ (∀ a, t'.byte a = s.byte a) ∧
        RegsOnly s t' [faultBlock q + 0x28]) ∧
    (∀ r f, s.reqs.find? (s.awaitsVerdict q tag) = none → s.copyAwaiting q tag = some (r, f) →
      exec .verdictRetry s = .next (s0.setCopyReq { r with suspended := none }) ∧
      ∃ t', exec .verdictFail s = .next t' ∧ (∀ x ∈ t'.copyReqs, x.id = r.id → x.suspended = none ∧ x.stopped = some (r.progress, f)) ∧ ∀ a, t'.byte a = s.byte a)) ∧
  (∀ s r f fq fc, names s r → r.phase = .suspended f (some fq) fc → mayFail s r → (∀ g, s.group? r.gid = some g → g.life = .resident) →
    fc + 1600 * s.field (faultBlock (min fq 2) + 0x38) 0 32 ≤ s.fc → ∃ t', exec .verdictTimeout s = .next t' ∧ FailedWith t' r (· = f) ∧
      (∀ a, t'.byte a = s.byte a) ∧ t'.mmio = s.mmio) ∧
  (∀ s, let d := s.arg 0; let b := dieBlock d + 0x40000
    d < 4 → s.field b 63 1 = 1 → (s.die d).scanFc = none → s.dies.length = 4 → s.field b 32 8 = 0 → ∃ t', exec .wbScan s = .next t' ∧ t'.field (b + 0x10) 0 32 = 0 ∧
      (t'.die d).scanFc = some s.fc ∧ RegsOnly s t' [b + 0x10] ∧ t'.storage = s.storage ∧ ∀ a, t'.byte a = s.byte a) ∧
  (∀ s root first ns lba log w, s.walk 0 root first 4 = (s, w) → w.found = true → w.addr % 8 = 0 → w.addr < 2 ^ 40 → w.value = s.loadN w.addr 8 →
    w.value / 2 ^ 4 % 2 = 1 → w.value / 2 ^ 10 % 2 = 1 → w.value / 2 ^ 11 % 2 = 1 → s.storage.length < 4096 → uncached s → s.l2 = [] → ∃ t', s.scanPage root first first ns lba log = (t', true) ∧ t'.loadN w.addr 8 = w.value - 16 ∧
      t'.storage = s.storage ++ [(w.addr, lba, ns)] ∧ ∀ a, a < w.addr ∨ w.addr + 8 ≤ a → t'.byte a = s.byte a) ∧
  (∀ s leaf lba ns rest, s.storage = (leaf, lba, ns) :: rest → let v := s.loadN leaf 8
    (s.arg 0 = 0 → exec .storageWriteDone s = .next ({ s with storage := rest }.interrupt 3 0)) ∧
    (s.arg 0 ≠ 0 → s.opens = [] → v / 2 ^ 4 % 2 = 1 → exec .storageWriteDone s = .next { s with storage := rest }) ∧
    (s.arg 0 ≠ 0 → uncached s → s.l2 = [] → leaf % 8 = 0 → leaf < 2 ^ 40 → v / 2 ^ 4 % 2 = 0 → v / 2 ^ 10 % 2 = 1 → ∃ t', exec .storageWriteDone s = .next t' ∧
      t'.storage = rest ∧ t'.loadN leaf 8 = v - 1024 ∧ ∀ a, a < leaf ∨ leaf + 8 ≤ a → t'.byte a = s.byte a))

namespace Sys2Proof.Claims

/-- A fault queue takes a record: enabled, not full (R361). -/
def takes (s : State) (q : Nat) : Prop :=
  s.field (faultBlock q + 8) 63 1 = 1 ∧
    (s.field (faultBlock q + 0x10) 0 32 + 2 ^ 32 - s.field (faultBlock q + 0x18) 0 32) % 2 ^ 32 ≠ 2 ^ s.field (faultBlock q + 8) 48 5

/-- Where a fault queue's next record goes. -/
def recordAt (s : State) (q : Nat) : Nat :=
  s.field (faultBlock q) 6 42 * 64 + 64 * (s.field (faultBlock q + 0x10) 0 32 % 2 ^ s.field (faultBlock q + 8) 48 5)

/-- A machine-check record with its class and details, or a drop counted where the queue takes none (R361, R362, R364); of memory only the
record changes, and the class is counted. -/
def Reports (s t : State) (q cls a b : Nat) : Prop :=
  (takes s q → t.field (faultBlock q + 0x10) 0 32 = (s.field (faultBlock q + 0x10) 0 32 + 1) % 2 ^ 32 ∧ t.loadN (recordAt s q + 16) 8 = 4 * 2 ^ 60 ∧
    t.loadN (recordAt s q + 24) 8 = cls ∧ t.loadN (recordAt s q + 32) 8 = a % 2 ^ 64 ∧ t.loadN (recordAt s q + 40) 8 = b % 2 ^ 64 ∧
    ∀ x, x < recordAt s q ∨ recordAt s q + 64 ≤ x → t.byte x = s.byte x) ∧
  (¬ takes s q → (∀ x, t.byte x = s.byte x) ∧
    t.field (faultBlock q + 0x20) 0 32 = min (2 ^ 32 - 1) (s.field (faultBlock q + 0x20) 0 32 + 1)) ∧
  (s.fleet.mchk.length = 10 → t.fleet.mchk.getD (cls - 1) 0 = min 63 (s.fleet.mchk.getD (cls - 1) 0 + 1))

/-- Nothing of a die's caches and directory is left. -/
def dieCleared (t : State) (d : Nat) : Prop :=
  (∀ l ∈ t.l1, coreDie l.core ≠ d) ∧ (∀ l ∈ t.l2, l.die ≠ d) ∧ (∀ r ∈ t.regions, r.die ≠ d ∧ d ∉ r.holders)

/-- A die is lost (R373): what its homes record of it is poisoned, as are the lines OPEN with a partial on it; requests to it are over; its groups
end and their grids are FAULTED; its bit in CDIS is set. -/
structure DieLost (s t : State) (d : Nat) : Prop where
  lost : (t.die d).lost = true ∧ t.field bootstat d 1 = 1 ∧ dieCleared t d
  poison : (∀ r ∈ s.regions, r.die ≠ d → d ∈ r.holders → ∀ line ∈ r.lines, line ∈ t.poison) ∧
    (∀ o ∈ s.opens, (∃ p ∈ o.parts, coreDie p.1 = d) → o.line ∈ t.poison ∧ ∀ o' ∈ t.opens, o'.line ≠ o.line) ∧ (∀ line ∈ s.poison, line ∈ t.poison)
  requests : (∀ r ∈ s.reqs, r.gid ≠ 0 ∨ fdieCore ≤ r.core) → ∀ r ∈ t.reqs, r.phase = .ready → homeOf r.line ≠ some d
  groups : ∀ g ∈ s.groups, coreDie g.core = d → g.life = .resident → ∃ h, t.group? g.id = some h ∧ h.life ≠ .resident ∧
    ∀ x, s.grid? (s.gridId g) = some x → ∃ y, t.grid? x.id = some y ∧ y.faulted = true

/-- The identity numbers that the machine gives out are distinct, and the lists that stand for its parts are whole. -/
structure numbered (s : State) : Prop where
  groups : s.groups.Pairwise (fun g h => g.id ≠ h.id)
  dies : s.dies.length = 4
  domains : s.incarnations.length = 5

/-- A control message of a pair waits for its acknowledgement (R371). -/
def unacknowledged (s : State) (c : Control) : Prop := ∃ x ∈ s.staleCopies, x.die = c.receiver ∧ homeOf x.line = some c.sender

end Sys2Proof.Claims

/-- Containment (R370 to R377, R319): resends; domains declared dead; late messages; a commanded die reset; links; poison and its clearing; marked
banks; units ended by an evacuation that takes too long. -/
def Obligations.Containment : Prop :=
  (∀ s c, s.controls.find? (fun c => c.sender == s.arg 0 && c.receiver == s.arg 1) = some c → unacknowledged s c → c.resends < 9 → c.fc + 65536 ≤ s.fc →
    exec .controlResend s = .next { s with controls := s.controls.map (fun x => if x = c then { c with fc := s.fc, resends := c.resends + 1 } else x) }) ∧
  (∀ s c, let d := s.arg 0
    numbered s → c ∈ s.controls → c.receiver = d → c.resends = 9 → unacknowledged s c → c.fc + 1600000 ≤ s.fc →
    (d < 4 → (s.die d).lost = false → ∃ t, exec .domdead s = .next t ∧ DieLost s t d ∧ t.incarnation d = (s.incarnation d + 1) % 65536) ∧
    (d = 4 → ∃ t, exec .domdead s = .next t ∧ t.incarnation 4 = (s.incarnation 4 + 1) % 65536 ∧ (∀ x ∈ t.staleCopies, x.die ≠ 4) ∧
      (∀ r ∈ s.regions, r.die ≠ 4 → 4 ∈ r.holders → ∀ line ∈ r.lines, line ∈ t.poison) ∧ Reports s t 0 8 4 (t.incarnation 4))) ∧
  (∀ s x, 256 ≤ s.arg 0 → s.remote? (s.arg 0 - 256) = some x → x.dead = false → (∀ r ∈ s.reqs, r.kind.ofSlot = false) → ∃ t, exec .domdead s = .next t ∧
    t.incarnation (s.arg 0) = (x.incarnation + 1) % 65536 ∧ (∃ y, t.remote? x.id = some y ∧ y.dead = true) ∧ Reports s t 1 8 (s.arg 0) (t.incarnation (s.arg 0))) ∧
  (∀ s, s.arg 1 < s.incarnation (s.arg 0) → let q := if s.arg 0 < 256 then 0 else 1
    ∃ t, exec .late s = .next t ∧ { t with mem := s.mem, mmio := s.mmio, flclk := s.flclk, boot := s.boot } = s ∧
      (takes s q → t.field (faultBlock q + 0x10) 0 32 = (s.field (faultBlock q + 0x10) 0 32 + 1) % 2 ^ 32 ∧ t.loadN (recordAt s q + 16) 8 = 5 * 2 ^ 60 ∧
        t.loadN (recordAt s q + 24) 8 % 65536 = s.arg 0 % 65536)) ∧
  (∀ s, let d := s.arg 0 % 4
    s.field dierst 3 1 = 0 → s.field pmstat 14 1 = 0 → ∃ t, exec .dieReset s = .next t ∧ t.reg dierst = BitVec.ofNat 64 (d + 8) ∧
      t.dieReset = some { die := d, fc := s.fc, evacuated := false } ∧
      (∀ b ∈ s.blocks, b.cluster / 32 = d → b.state = .resident → (∀ y ∈ s.blocks, y.cluster / 32 = d → y = b) → s.saveable b = true →
        s.blocks.Pairwise (fun x y => x.id ≠ y.id) → ∃ y ∈ t.blocks, y.id = b.id ∧ y.state = .saving)) ∧
  (∀ s x, s.dieReset = some x → numbered s → x.die < 4 →
    (x.evacuated = false → (∀ b ∈ s.blocks, b.cluster / 32 = x.die → b.state ≠ .resident ∧ b.state ≠ .saving ∧ b.state ≠ .retired) → ∃ t,
      exec .dieEvacuated s = .next t ∧ t.dieReset = some { x with evacuated := true } ∧ t.incarnation x.die = (s.incarnation x.die + 1) % 65536 ∧
      dieCleared t x.die ∧ (∀ c ∈ t.staleCopies, c.die ≠ x.die) ∧ (uncached s → ∀ a, t.byte a = s.byte a)) ∧
    (x.evacuated = true → ∃ t, exec .dieEvacuated s = .next t ∧ t.dieReset = none ∧ t.field dierst 3 1 = 0 ∧ (∀ a, t.byte a = s.byte a) ∧
      (s.arg 0 = 0 → t.field dierst 4 4 = 2 ∧ t.field bootstat x.die 1 = 1 ∧ (t.die x.die).disabled = true) ∧
      (s.arg 0 ≠ 0 → (t.die x.die).clock = 0 ∧ ∀ c, c / 128 = x.die → (t.core c).spad = [] ∧ (t.core c).matrix.owner = none ∧ (t.core c).lclk = (s.core c).lclk)) ∧
    (x.evacuated = false → x.fc + 160000000 ≤ s.fc → ∃ t, exec .dieResetTimeout s = .next t ∧ t.dieReset = none ∧ t.field dierst 3 1 = 0 ∧ t.field dierst 4 4 = 1 ∧
      (t.die x.die).lost = true ∧ t.field bootstat x.die 1 = 1 ∧ t.incarnation x.die = (s.incarnation x.die + 1) % 65536)) ∧
  (∀ s r fc, names s r → r.phase = .egress fc → mayFail s r → fc + 1600000000 ≤ s.fc → ∃ t, exec .egressWaitTimeout s = .next t ∧
    FailedWith t r (fun f => f.reason = 9 ∧ f.lanes = r.left) ∧ (∀ a, t.byte a = s.byte a) ∧ t.mmio = s.mmio) ∧
  (∀ s, let d := s.arg 0; let n := s.arg 1; let r := dieBlock d + 0x60000 + 8 * n
    d < 4 → n < 6 → s.dies.length = 4 →
    (s.field r 63 1 = 1 → (∃ t, exec .flitCrcError s = .next t ∧ t.reg r = (if s.field r 0 32 = 2 ^ 32 - 1 then s.reg r else s.reg r + 1) ∧ RegsOnly s t [r] ∧
        { t with mmio := s.mmio } = s) ∧
      ∃ t, exec .linkRetrain s = .next t ∧ t.field r 63 1 = 0 ∧ t.field r 32 16 = min 65535 (s.field r 32 16 + 1) ∧ t.field r 0 32 = s.field r 0 32 ∧
        RegsOnly s t [r] ∧ n ∈ (t.die d).retraining) ∧
    (n ∈ (s.die d).retraining → ∃ t, exec .linkdown s = .next t ∧ n ∉ (t.die d).retraining ∧ Reports s t 1 9 n (if n < 3 then d else 3 * d + (n - 3))) ∧
    (s.field r 63 1 = 0 → (s.die d).lost = false → (s.die d).disabled = false → s.field bootstat 20 4 ≠ 0 → let port := 3 * d + (n - 3); let peer := s.arg 2 % 1024
      (n < 3 → ∃ t, exec .linkTrained s = .next t ∧ t.field r 63 1 = 1 ∧ n ∉ (t.die d).retraining ∧ RegsOnly s t [r]) ∧
      (3 ≤ n → s.field (spctl port) 0 1 = 1 → peer ≠ s.field modid 0 10 → s.args.length = 4 → ∃ t, exec .linkTrained s = .next t ∧ t.field r 63 1 = 1 ∧
        t.field (spctl port) 16 10 = peer ∧ t.field (spctl port) 26 1 = (if s.arg 3 = 0 then 0 else 1) ∧ RegsOnly s t [r, spctl port] ∧
        (∃ x, t.remote? peer = some x ∧ x.dead = false ∧ x.pool = (s.arg 3 != 0)) ∧ ∀ a, t.byte a = s.byte a))) ∧
  (∀ s, let line := s.arg 0
    line < 2 ^ 41 → s.populated (128 * line) = true → paNode (128 * line) < 4 → (s.arg 1 ≠ 0 → ∃ x ∈ s.l2, x.line = line) → ∃ t, exec .linepoison s = .next t ∧
      (∀ n, n ∈ t.poison ↔ n = line ∨ n ∈ s.poison) ∧ Reports s t 0 7 (128 * line) (if s.arg 1 = 0 then 0 else 1)) ∧
  (∀ s, ∀ w ∈ s.windows, let line := s.arg 0
    s.arg 1 ≠ 0 → windowBase w.id ≤ 128 * line → 128 * line < windowBase w.id + w.bytes → ∃ t, exec .linepoison s = .next t ∧
      (∀ n, n ∈ t.poison ↔ n = line ∨ n ∈ s.poison) ∧ Reports s t 0 7 (128 * line % 2 ^ 48) 1) ∧
  (∀ s, let line := s.arg 1 % 2 ^ 41
    homeOf line = some (s.arg 0) → s.populated (128 * line) = true → ∃ t, exec .pclr s = .next t ∧
      (∀ a, t.byte a = if a / 128 = line then 0 else s.byte a) ∧ (∀ n, n ∈ t.poison ↔ n ≠ line ∧ n ∈ s.poison) ∧
      (∀ l ∈ t.l1, l.line ≠ line) ∧ (∀ l ∈ t.l2, l.line ≠ line) ∧ (∀ c ∈ t.staleCopies, c.line ≠ line) ∧ ∀ o ∈ t.opens, o.line ≠ line) ∧
  (∀ s, let core := s.arg 0; let bank := s.arg 1; let n := (s.core core).banks.getD bank 0
    core < 512 → bank < 36 → ∃ t, exec .spmark s = .next t ∧ (t.core core).corr = min (2 ^ 32 - 1) ((s.core core).corr + 1) ∧
      (t.core core).banks.getD bank 0 = n + 1 ∧ (∀ b, b < 36 → b ≠ bank → (t.core core).banks.getD b 0 = (s.core core).banks.getD b 0) ∧
      (t.core core).mark = (if n = 15 ∧ (s.core core).mark = none then some bank else (s.core core).mark) ∧ (∀ c, c ≠ core → t.core c = s.core c) ∧
      (n ≠ 15 → t.mem = s.mem ∧ t.mmio = s.mmio) ∧ (n = 15 → Reports s t 0 (if (s.core core).mark = none then 2 else 3) (coreDetail core) bank)) ∧
  (∀ s fc, s.boot.evacFc = some fc → fc + 16000000 ≤ s.fc → s.evacuees ≠ [] → s.groups.Pairwise (fun g h => g.id ≠ h.id) →
    ∃ t, exec .evacuationTimeout s = .next t ∧ ∀ b ∈ s.evacuees, ∀ g ∈ t.groups, g.block = b.id → g.live = false)

namespace Sys2Proof.Claims

/-- PMSTAT.BUSY and MCUR (R324). -/
def pmBusy (s : State) : Nat := s.field pmstat 14 1
/-- MCUR. -/
def mcur (s : State) : Nat := s.field pmstat 12 2

/-- Nothing of a context is in the module: no work, no group, no register but those of a reset. -/
structure Blank (t : State) : Prop where
  lists : t.groups = [] ∧ t.blocks = [] ∧ t.grids = [] ∧ t.works = [] ∧ t.reqs = [] ∧ t.l1 = [] ∧ t.l2 = [] ∧ t.windows = []
  memory : ∀ a, a < 2 ^ 48 → t.byte a = 0

/-- The steps of a start that can fail, each with its own number as its code (R313). -/
def failing : List Nat := [1, 2, 3, 4, 5, 6, 7, 8, 11]

/-- A cold start begins: at power-on, or once START has asked for it (R313, R320). -/
def starts (s : State) : Prop := s.boot.powered = false ∨ s.boot.stage = 1

/-- A warm start runs this step, and it can fail: 1, 5, 6, 8 and 11, and 7 where PMMODE.BIST is set (R319, R321). -/
def warmFails (s : State) (step : Nat) : Prop := step ∈ [1, 5, 6, 8, 11] ∨ (step = 7 ∧ s.field pmmode 3 1 = 1)

/-- No unit is to be seen away before a transition. -/
def vacant (s : State) : Prop := s.blocks = []

end Sys2Proof.Claims

/-- Starts and power states (R313, R315, R319 to R325, R398): a cold start to hand-off, a failing step, the recovery image; the loss of main power; a
warm start; module states; operating points within the ceiling, whose rated powers fall (R327); gated clusters; the end of a transition. -/
def Obligations.StartsAndPower : Prop :=
  (∀ s, starts s → s.args = [0] → s.boot.nfail ≠ 3 → ∃ t, exec .coldStart s = .next t ∧ Blank t ∧ t.boot.powered = true ∧ t.boot.handed = true ∧
    t.field bootstat 20 4 = 12 ∧ t.field bootstat 16 4 = 0 ∧ t.field bootstat 14 2 = 0 ∧ t.field bootstat 12 2 = 0 ∧ t.field bootstat 0 4 = 0 ∧ t.boot.nfail = 0 ∧
    mcur t = 0 ∧ pmBusy t = 0 ∧ t.boot.log.length = 4 ∧ t.boot.log.map (fun e => e.2.1) ∈ [[1, 2, 4, 5], [1, 2, 5, 4], [1, 4, 2, 5], [1, 4, 5, 2], [1, 5, 2, 4], [1, 5, 4, 2]] ∧
    600 ≤ t.envw ∧ t.envw ≤ 2000 ∧ 70 ≤ t.twarn ∧ t.twarn ≤ 100 ∧ t.boot.ceiling = t.envw ∧ t.reg modid = s.reg modid ∧
    t.fleet.calep = (if s.boot.powered then s.fleet.calep else 0) + 1 ∧ t.fleet.live = [] ∧
    (∀ d, d < 4 → t.pcmd d = t.pfall ∧ t.field pdieReg (8 * d + 3) 3 = t.pfall ∧ (t.die d).point = t.pfall ∧ (t.reg (clgateReg d)).toNat = t.cldis d ∧
      (t.die d).gated = false ∧ ∀ n, n < 3 → t.linkUp d n = true)) ∧
  (∀ s, starts s → ∀ step ∈ failing, s.arg 0 = step → s.boot.nfail ≤ 3 → (s.boot.nfail = 3 → step ∈ [1, 2, 3, 11]) → ∃ t, exec .coldStart s = .next t ∧ Blank t ∧
    t.boot.handed = false ∧ t.field bootstat 16 4 = step ∧ t.field bootstat 20 4 = (if s.boot.nfail = 3 ∧ step = 11 then 3 else step - 1) ∧
    t.boot.nfail = min 3 (s.boot.nfail + 1) ∧ t.field bootstat 14 2 = min 3 (s.boot.nfail + 1) ∧ (∀ c, c < 512 → t.coreRuns c = false) ∧
    t.boot.log.length = (if step ≤ 2 then 0 else if s.boot.nfail = 3 ∨ step ≤ 4 then 1 else 4) ∧ t.boot.identity ≠ 2) ∧
  (∀ s, starts s → ∀ step, s.arg 0 = step + 16 → 1 ≤ step → step ≤ 12 → s.boot.nfail ≠ 3 → ∃ t, exec .coldStart s = .next t ∧ Blank t ∧ mcur t = 3 ∧
    t.field pmstat 15 1 = 1 ∧ t.boot.nfail = s.boot.nfail ∧ t.field bootstat 16 4 = 0 ∧ t.field bootstat 20 4 = step - 1 ∧ t.boot.handed = false) ∧
  (∀ s, starts s → s.args = [0] → s.boot.nfail = 3 → ∃ t, exec .coldStart s = .next t ∧ Blank t ∧ t.boot.handed = false ∧ t.field bootstat 20 4 = 11 ∧
    t.field bootstat 13 1 = 1 ∧ t.boot.log.map (fun e => e.2.1) = [3] ∧ t.boot.identity = 2 ∧ ∀ c, c < 512 → t.coreRuns c = false) ∧
  (∀ s, s.boot.powered = true → ∃ t, exec .mainPowerLoss s = .next t ∧ Blank t ∧ t.mmio = State.reset.mmio ∧ t.fleet = State.reset.fleet ∧
    t.boot = { State.reset.boot with nfail := s.boot.nfail } ∧ ∀ a, 2 ^ 48 ≤ a → a < 2 ^ 59 → t.byte a = s.byte a) ∧
  (∀ s, s.boot.handed = true → pmBusy s = 0 → s.boot.busy = [] →
    (mcur s = 0 → vacant s → exec .warmStart s = .next { s with boot := { s.boot with handed := false, busy := 2 :: s.args, evacFc := some s.fc } }) ∧
    (let target := s.arg 0 % 4;
      (target = mcur s ∨ mcur s = 3 → ∃ t, exec .moduleState s = .next t ∧ t.field pmmode 0 2 = target ∧ pmBusy t = 0 ∧ t.boot = s.boot ∧ RegsOnly s t [pmmode]) ∧
      (target ≠ mcur s → mcur s ≠ 3 → vacant s → ∃ t, exec .moduleState s = .next t ∧ t.field pmmode 0 2 = target ∧ pmBusy t = 1 ∧
        t.boot = { s.boot with busy := [1, target], evacFc := if target = 0 then none else some s.fc } ∧ RegsOnly s t [pmmode, pmstat] ∧ mcur t = mcur s)) ∧
    (∀ p q, p ≤ q → ratedPower q ≤ ratedPower p) ∧ ratedPower 0 = 1600 ∧
    (s.dies.length = 4 → ∃ t, exec .pdie s = .next t ∧ pmBusy t = 1 ∧ RegsOnly s t [pdieReg, pmstat] ∧ ∀ d, d < 4 →
      (let asked := s.arg 0 / 2 ^ (8 * d) % 8; let fallback := s.arg 0 / 2 ^ (8 * d + 3) % 8;
        (ratedPower asked ≤ s.boot.ceiling → t.pcmd d = asked) ∧ (ratedPower fallback ≤ s.boot.ceiling → t.field pdieReg (8 * d + 3) 3 = fallback) ∧
        ((∃ p, p < 8 ∧ ratedPower p ≤ s.boot.ceiling) → ratedPower (t.pcmd d) ≤ s.boot.ceiling) ∧
        (∀ p, p < 8 → ratedPower p ≤ s.boot.ceiling → (t.pcmd d - asked) + (asked - t.pcmd d) ≤ (p - asked) + (asked - p)) ∧
        (s.field pmstat (16 + d) 1 = 1 → t.die d = s.die d) ∧
        (s.field pmstat (16 + d) 1 = 0 → (t.die d).point = t.pcmd d ∧ ((s.die d).point ≠ t.pcmd d → (t.die d).gated = true)))) ∧
    (∀ d, s.arg 0 = d → d < 4 → vacant s → s.cldis d < 2 ^ 32 → ∃ t, exec .clgate s = .next t ∧ pmBusy t = 1 ∧ (t.reg (clgateReg d)).toNat = (s.arg 1 % 2 ^ 32) ||| s.cldis d ∧
      RegsOnly s t [clgateReg d, pmstat, faultBlock 0 + 0x10, faultBlock 0 + 0x20] ∧
      ∀ c, c < 512 → c / 128 ≠ d ∨ (s.reg (clgateReg d)).toNat.testBit (c / 4 % 32) = false → (t.core c).spad = (s.core c).spad)) ∧
  (∀ s, s.boot.evacFc = none ∨ (s.evacuees = [] ∧ ∀ b ∈ s.blocks, b.state ≠ .retired) → s.dies.length = 4 →
    (∀ target, s.boot.busy = [1, target] → s.args = [] →
      (target = 1 → ∃ t, exec .powerTransitionDone s = .next t ∧ pmBusy t = 0 ∧ mcur t = 1 ∧ t.boot.busy = [] ∧ (∀ c, c < 512 → t.coreRuns c = false) ∧ (∀ a, t.byte a = s.byte a)) ∧
      (target = 2 → ∃ t, exec .powerTransitionDone s = .next t ∧ pmBusy t = 0 ∧ mcur t = 2 ∧ t.boot.busy = [] ∧ (∀ c, c < 512 → t.coreRuns c = false) ∧ (∀ d, d < 4 → dieCleared t d) ∧
        (uncached s → ∀ a, t.byte a = s.byte a)) ∧
      (target = 3 → ∃ t, exec .powerTransitionDone s = .next t ∧ pmBusy t = 0 ∧ mcur t = 3 ∧ Blank t ∧ t.fleet = s.fleet ∧ t.boot.handed = false ∧
        t.reg bootstat = s.reg bootstat ∧ t.reg modid = s.reg modid) ∧
      (target = 0 → mcur s ≠ 2 → ∃ t, exec .powerTransitionDone s = .next t ∧ pmBusy t = 0 ∧ mcur t = 0 ∧ (∀ d, d < 4 → (t.die d).gated = false) ∧ ∀ a, t.byte a = s.byte a) ∧
      (target < 2 → mcur s = 2 → ∃ t, exec .powerTransitionDone s = .next t ∧ pmBusy t = 0 ∧ mcur t = target ∧ (∀ a, t.byte a = s.byte a) ∧
        ∀ d, d < 4 → (t.die d).lost = false ∧ (t.die d).clock = 0 ∧ (t.die d).gated = (target == 1))) ∧
    (∀ target, s.boot.busy = [1, target] → target < 2 → mcur s = 2 → s.arg 0 ∈ [1, 5, 6, 8] → ∃ t, exec .powerTransitionDone s = .next t ∧ pmBusy t = 0 ∧
      mcur t = 2 ∧ t.field bootstat 16 4 = s.arg 0 ∧ RegsOnly s t [pmstat, bootstat] ∧ t.dies = s.dies) ∧
    (s.boot.busy = [3] → ∃ t, exec .powerTransitionDone s = .next t ∧ pmBusy t = 0 ∧ t.boot.busy = [] ∧ RegsOnly s t [pmstat] ∧
      ∀ d, d < 4 → (t.die d).gated = (mcur s != 0 && (s.die d).gated)) ∧
    (∀ step links, s.boot.busy = 2 :: step :: links → ¬ warmFails s step → uncached s → ∃ t, exec .powerTransitionDone s = .next t ∧ t.field bootstat 20 4 = 12 ∧ t.field bootstat 12 1 = 1 ∧
      t.field bootstat 16 4 = 0 ∧ t.boot.handed = true ∧ t.fleet.calep = s.fleet.calep + 1 ∧ t.fleet.live = s.fleet.live ∧ (∀ a, t.byte a = s.byte a) ∧
      (∀ d, d < 4 → (t.die d).gated = false ∧ (t.die d).lost = false ∧ (t.die d).clock = 0) ∧ ∀ c, c < 512 → (t.core c).spad = [] ∧ (t.core c).matrix.owner = none) ∧
    (∀ step links, s.boot.busy = 2 :: step :: links → warmFails s step → ∃ t, exec .powerTransitionDone s = .next t ∧ t.field bootstat 16 4 = step ∧
      t.field bootstat 20 4 = (match step with
        | 1 => 0
        | 5 => 1
        | 6 => 5
        | 7 => 6
        | 8 => if s.field pmmode 3 1 = 1 then 7 else 6
        | _ => 10) ∧
      t.field bootstat 12 1 = 1 ∧ t.boot.handed = s.boot.handed ∧ ∀ c, c < 512 → t.coreRuns c = false))

namespace Sys2Proof.Claims

/-- Of the module only the registers listed, the interrupts and the boot controller's own data changed. -/
def regsAndBoot (s t : State) (rs : List Nat) : Prop := RegsOnly s t rs ∧ { t with mmio := s.mmio, boot := s.boot } = s

/-- A number of an image's header: `n` bytes from byte `a` (R316). -/
def headerWord (image : List Byte) (a n : Nat) : Nat := leNat ((image.drop a).take n)

/-- The PORT entry that a revocation's operand names, by port and label in one number (assumption 6). -/
def portEntry (s : State) (e : Nat) : Entry := s.entryInMem .port (e / 32768) (e % 32768)

/-- Its place. -/
def portAt (s : State) (e : Nat) : Nat := s.entryAddr .port (e / 32768) (e % 32768)

/-- A write of a register that takes every bit leaves the bytes that the store does not carry (R312). -/
def carried (s : State) (off : Nat) (v m : DWord) : DWord := (s.reg off &&& ~~~m) ||| (v &&& m)

end Sys2Proof.Claims

/-- Heat and current (R325, R326): an ITRIP bit cleared, a current limit, readings below and at TWARN, the critical trip. The recovery image
(R315, R316): taken where the five checks hold. Registers as the A-die writes them (R312, R324, R329, R347, R359): no effect while its cores do
not run, or at an offset with no register; the bytes a store carries; entry words, TSTAT and PMSTAT, queue and directory registers. Its accesses
to memory (R282, R320, R328, R341): the bus error of M2, a store's bytes, those of TWR, TDROP and device-side queues, VALID, a queue enabled;
a load. Span ports on and off (R380). REVOKE at an appliance, its answer, its deadline (R388). The flash tier and old versions (R384, R387). -/
def Obligations.HeatRegistersAndPods : Prop :=
  (∀ s, let d := s.arg 0
    d < 4 → s.dies.length = 4 →
    (s.field pmstat (16 + d) 1 = 1 → ∃ t, exec .itripClear s = .next t ∧ t.field pmstat (16 + d) 1 = 0 ∧ (t.die d).point = s.pcmd d ∧ RegsOnly s t [pmstat]) ∧
    (s.boot.handed = true → mcur s = 0 → (s.die d).lost = false → (s.die d).disabled = false → ∃ t, exec .currentLimitTrip s = .next t ∧
      t.field pmstat (16 + d) 1 = 1 ∧ (t.die d).point = s.field pdieReg (8 * d + 3) 3 ∧ RegsOnly s t [pmstat])) ∧
  (∀ s, let i := s.arg 0; let c := s.arg 1
    i < 36 → s.boot.powered = true →
    (c < 110 → ∃ t, exec .thermalWarning s = .next t ∧ t.boot.sensors.getD i 0 = c ∧ (∀ j, j < 36 → j ≠ i → t.boot.sensors.getD j 0 = s.boot.sensors.getD j 0) ∧
      (c < s.twarn → regsAndBoot s t [] ∧ t.boot.interrupts = s.boot.interrupts) ∧
      (0 < s.twarn → s.twarn ≤ c → regsAndBoot s t [pmstat] ∧ t.boot.interrupts = s.boot.interrupts ++ [(5, sensorDie i)] ∧
        t.field pmstat (4 + sensorDie i) 1 = 1)) ∧
    (110 ≤ c → ∃ t, exec .criticalThermalTrip s = .next t ∧ mcur t = 3 ∧ t.field pmstat 15 1 = 1 ∧ pmBusy t = 0 ∧ t.boot.busy = [] ∧ t.boot.handed = false ∧
      Blank t ∧ t.fleet.retired = s.fleet.retired ∧ t.boot.sensors.getD i 0 = c ∧ ∀ k, k < 512 → t.coreRuns k = false)) ∧
  (∀ s, let image := s.args.map (BitVec.ofNat 8); let part := fun (a n : Nat) => (image.drop a).take n; let word := headerWord image
    let accepted := word 0 4 = 0x394C5957 ∧ (1 ≤ word 4 4 ∧ word 4 4 ≤ 5) ∧ part 3780 316 = List.replicate 316 0 ∧ word 12 4 = (image.drop 4096).length ∧
      (∃ i, i < 4 ∧ Config.fusedKey i = some (Config.sha3 (part 48 1312))) ∧ Config.verifies (part 48 1312) (part 1360 2420) (Config.sha3 (image.take 1360)) = true ∧
      Config.sha3 (image.drop 4096) = part 16 32 ∧ Config.minSvn (word 4 4) ≤ word 8 4
    s.field bootstat 13 1 = 1 →
    (accepted → exec .recoveryImageUpdate s = .next { s with boot := { s.boot with recovery := image, log := s.boot.log ++ [(part 16 32, word 4 4, word 8 4)] } }) ∧
    (¬ accepted → exec .recoveryImageUpdate s = .next s)) ∧
  (∀ s, let off := s.arg 0; let v := BitVec.ofNat 64 (s.arg 1); let m := byteMask (if s.arg 2 = 0 then 255 else s.arg 2 % 256)
    (s.aDieRuns = false → exec .registerWrite s = .fault .eventNotDue) ∧ (s.aDieRuns = true →
    (block6 off = .none → ∃ t, exec .registerWrite s = .next t ∧ RegsOnly s t [] ∧ { t with mmio := s.mmio } = s) ∧
    (∀ t n i, n < tierCount t → i < 4 → (t = .core → n = 0) → off = tierBlock t n + 0x10 + 8 * i → exec .registerWrite s = .next (s.setReg off (carried s off v m))) ∧
    (∀ t n, n < tierCount t → (t = .core → n = 0) → off = tierBlock t n + 8 → exec .registerWrite s = .next (s.setReg off (s.reg off &&& ~~~(v &&& m &&& 0xFF00)))) ∧
    (off = pmstat → exec .registerWrite s = .next (s.setReg off (s.reg off &&& ~~~(v &&& m &&& 0x8FF0)))) ∧
    (∀ q, q < 16 → off = queueBlock q ∨ off = queueBlock q + 8 → s.field (queueBlock q + 0x20) 0 1 = 1 → exec .registerWrite s = .next s) ∧
    (∀ q, q < 16 → s.arg 2 = 0 → off = queueBlock q + 8 → s.field (queueBlock q + 0x20) 0 1 = 0 → ∃ t, exec .registerWrite s = .next t ∧ RegsOnly s t [off] ∧
      t.field off 0 5 = if 4 ≤ s.arg 1 % 32 ∧ s.arg 1 % 32 ≤ 16 then s.arg 1 % 32 else s.field off 0 5) ∧
    (∀ d, d < 4 → s.arg 2 = 0 → off = dieBlock d + 0x30000 → let mlog := s.arg 1 / 2 ^ 16 % 32; let minlog := s.arg 1 / 2 ^ 8 % 16; let slog := s.arg 1 % 32
      ∃ t, exec .registerWrite s = .next t ∧ RegsOnly s t [off] ∧
        if 10 ≤ mlog ∧ mlog ≤ 24 ∧ 7 ≤ minlog ∧ minlog ≤ 15 ∧ 12 ≤ slog ∧ slog ≤ 20 ∧ minlog ≤ slog
        then t.field off 16 5 = mlog ∧ t.field off 8 4 = minlog ∧ t.field off 0 5 = slog else t.reg off = s.reg off))) ∧
  (∀ s, let pa := s.arg 1; let n := s.arg 2; let bs := (s.args.drop 3).map (BitVec.ofNat 8)
    let plain := mcur s ≠ 2 ∨ 4 ≤ paNode pa; let here := fun (a : Nat) => pa ≤ a ∧ a < pa + n
    pa < 2 ^ 48 → 1 ≤ n → pa % 128 + n ≤ 128 → (s.aDieRuns = false → exec .aDieAccess s = .fault .eventNotDue) ∧ (s.aDieRuns = true →
    (s.arg 0 ≤ 1 → (s.arg 0 = 1 → bs.length = n) → mcur s = 2 → paNode pa < 4 → exec .aDieAccess s = .next (s.interrupt 4 pa)) ∧
    (s.arg 0 = 1 → bs.length = n → plain → s.aDieReaches pa = true → uncached s →
      (s.dqTables = [] → (∀ a, here a → inCtxTable a = true → a % 128 < 64 ∨ 70 ≤ a % 128) → ∃ t, exec .aDieAccess s = .next t ∧
        (∀ a, t.byte a = if here a then (if inCtxTable a = true ∧ 60 ≤ a % 128 ∧ a % 128 < 64 then s.byte a
          else if inCtxTable a = true ∧ 56 ≤ a % 128 ∧ a % 128 < 60 then s.byte a &&& ~~~(bs.getD (a - pa) 0) else bs.getD (a - pa) 0) else s.byte a) ∧
        (∀ cid, cid < 65536 → here (ctxBase cid) → s.ctxValid cid = false → t.ctxValid cid = true → s.meter? cid = none →
          Move.event .contextActivate [cid] ∈ t.agenda)) ∧
      (∀ cid base, s.dqTables = [(cid, base)] → (∀ a, here a → base ≤ a ∧ a < base + 2048) → base + 2048 ≤ 0x800001000000 ∨ 0x800001800000 ≤ base →
        base % 8 = 0 → ∃ t, exec .aDieAccess s = .next t ∧ ∀ q, q < 64 → t.loadN (base + 32 * q + 16) 8 =
          if t.dsqEnabled cid q = true ∧ s.dsqEnabled cid q = false then 0 else s.loadN (base + 32 * q + 16) 8)) ∧
    (s.arg 0 = 0 → plain → s.aDieReaches pa = true → uncached s → ∃ t, exec .aDieAccess s = .next t ∧ ∀ a, t.byte a = s.byte a))) ∧
  (∀ s, let p := s.arg 0; let d := p / 3; let n := 3 + p % 3; let link := dieBlock d + 0x60000 + 8 * n
    p < 12 → s.dies.length = 4 →
    (s.arg 1 % 2 = 1 → ∃ t, exec .spanPortEnable s = .next t ∧ t.field (spctl p) 0 1 = 1 ∧ RegsOnly s t [spctl p] ∧ t.linkUp d n = s.linkUp d n) ∧
    (s.arg 1 % 2 = 0 → ∃ t, exec .spanPortEnable s = .next t ∧ t.field (spctl p) 0 1 = 0 ∧ t.linkUp d n = false ∧ RegsOnly s t [spctl p, link] ∧
      n ∉ (t.die d).retraining) ∧
    (∀ x e, s.applianceAt p = some x → s.args.length = 3 → s.arg 2 = e → e < 12 * 32768 → s.opens = [] → let label := s.arg 1 % 32768; let a := portAt s e
      ((∀ r ∈ x.revokes, r.1 ≠ label) → ∃ t y due, exec .revoke s = .next t ∧ (portEntry t e).hold = true ∧ (∀ b, b < a ∨ a + 8 ≤ b → t.byte b = s.byte b) ∧
        t.remote? x.id = some y ∧ y.revokes = x.revokes ++ [(label, due)] ∧ s.fc + 1600000 ≤ due ∧ due ≤ s.fc + 1600000000) ∧
      ((∃ r ∈ x.revokes, r.1 = label) → s.inFlight .port (e / 32768) (e % 32768) = [] → (portEntry s e).hold = true → ∃ t y, exec .revoke s = .next t ∧
        (portEntry t e).act = 0 ∧ (portEntry t e).hold = false ∧ (portEntry t e).gen = ((portEntry s e).gen + 1) % 2 ^ 27 ∧
        (∀ b, b < a ∨ a + 32 ≤ b → t.byte b = s.byte b) ∧ t.remote? x.id = some y ∧ ∀ r ∈ y.revokes, r.1 ≠ label))) ∧
  (∀ s x, s.remote? (s.arg 0) = some x →
    (∀ due, let label := s.arg 1 % 32768
      x.revokes.find? (fun r => r.1 == label) = some (label, due) → due ≤ s.fc → ∃ t y, exec .revokeDeadline s = .next t ∧ (t.entryInMem .remote x.id label).act = 0 ∧
        t.remote? x.id = some y ∧ label ∈ y.revoked ∧ (∀ r ∈ y.revokes, r.1 ≠ label) ∧ t.inFlight .remote x.id label = []) ∧
    (x.pool = true → let b := s.arg 1
      (b ∈ x.flash → exec .flashPromote s = .next (s.setRemote { x with flash := x.flash.filter (· != b) })) ∧
      (b < 2 ^ 32 → b ∉ x.flash → x.spares b = false → exec .flashDemotion s = .next (s.setRemote { x with flash := b :: x.flash })) ∧
      (∀ e, x.regions.find? (fun e => e.1 == b) = some e → let v := s.arg 2 % 2 ^ 32; let slot := s.loadN (remoteBase x.id + b + 8 * (1 + v % 16)) 8
        s.loadN (remoteBase x.id + b) 4 ≠ v → ¬ (slot / 2 ^ 32 = v ∧ slot % 2 ^ 32 ≠ 0) → ∃ t y, exec .versionReclaim s = .next t ∧ (∀ a, t.byte a = s.byte a) ∧
          t.remote? x.id = some y ∧ (b, v) ∈ y.regions)))

namespace Sys2Proof.Claims

/-- The guard fields of an instruction word: SW, PG, PN (R48). -/
def guardOf (sw : Bool) (pg : BitVec 3) : Common := { sw := sw, pg := pg, pn := false }

/-- A plain VR form: destination, two sources, a type, no predicate, no modifier. -/
def plainVR (g : Common) (d a b : BitVec 9) (u : BitVec 8) (t : BitVec 5) (rm : BitVec 3) : VR :=
  { toCommon := g, d := d, a := a, b := b, c := 0, u := u, t := t, rm := rm, sat := false, na := false, nb := false, nc := false, aa := false, ab := false,
    bu := false, cu := false, ru := false, pd := 7 }

/-- An M form with its stated fields. -/
def wordMF (g : Common) (d a c : BitVec 9) (u : BitVec 8) (sz ord scp : BitVec 3) (ow : Bool) (spc : BitVec 2) (disp : BitVec 18) : MF :=
  { toCommon := g, d := d, a := a, c := c, u := u, sz := sz, ord := ord, scp := scp, ch := 0, ow := ow, spc := spc, peer := 0, disp := disp }

/-- An E form with its stated fields. -/
def wordEF (g : Common) (d a b : BitVec 9) (u : BitVec 8) (eb : BitVec 3) (imm : BitVec 32) : EF :=
  { toCommon := g, d := d, a := a, b := b, ea := 0, u := u, eb := eb, imm := imm }

/-- The words that the manual writes out, each with the instruction that it names there. -/
def spelled : List (Code × Instr) :=
  [(0x0001C0002000000800040803#96, .iadd (plainVR (guardOf true 1) 2 0 1 0 1 0)),
   (0x00100100584000005008100F#96, .ld (wordMF (guardOf true 7) 4 20 0 194 2 0 0 true 0 0x40)),
   (0x000000008000006000002025#96, .brc { toCommon := guardOf true 2, uq := false, a := 0, off := 3, joff := 4 }),
   (0x000000110000000000006000#96, .trap (wordEF (guardOf false 0) 0 0 0 0 0 0x11)),
   (0x00000000000E00138588446E#96, .kpush { toCommon := guardOf false 7, sd := 196, sa := 194, sb := 9, sc := 0, qd := 7, t := 0, imm := 0 }),
   (0x0001C009A120000008080C6E#96, .cvt (plainVR (guardOf false 7) 4 2 0 9 13 2)),
   (0x008001215840500050081407#96, .atomAdd (wordMF (guardOf true 3) 4 20 5 194 2 1 4 true 0 0x200)),
   (0x00000024000000000000148E#96, .fence (wordMF (guardOf false 7) 0 0 0 0 0 4 4 false 0 0)),
   (0x000001898080000100027600#96, .mma { toCommon := guardOf false 0, acc := 1, a := 64, u := 4, t := 12, ks := 2, pair := false, ru := true, za := true }),
   (0x000000004000000000001A0E#96, .bar (wordEF (guardOf false 7) 0 0 0 0 2 0)),
   (0x000000004000000000001A6E#96, .waitc (wordEF (guardOf false 7) 0 0 0 0 2 0)),
   (0x000002008000000014381023#96, .lds (wordMF (guardOf true 1) 28 5 0 0 4 0 0 false 1 0)),
   (0x01000021584090005800346F#96, .updIadd32 (wordMF (guardOf true 7) 0 22 9 194 2 1 4 false 0 0x400)),
   (0x00002000184000682C18582E#96, .mcld (wordEF (guardOf false 7) 12 11 13 194 0 0x2000)),
   (0x000001C5E50000010000960E#96, .mmab { toCommon := guardOf false 7, acc := 0, a := 64, u := 40, t := 15, ks := 1, pair := true, ru := true, za := true }),
   (0x000000319840000050081003#96, .ld (wordMF (guardOf true 1) 4 20 0 194 4 1 6 false 0 0))]

/-- The slot that a quadrant lets issue, on a running core, as the next move (R235). -/
structure Turned (s : State) (core q : Nat) (rest : List Move) (s1 : State) (g : Group) (n : SlotName) : Prop where
  agenda : s.agenda = .quad core q :: rest
  running : State.coreRuns { s with agenda := rest } core = true
  ages : s1 = State.ageQuad { s with agenda := rest } core q
  leads : ∃ age more, s1.issueOrder core q = (g.id, n, age) :: more
  found : s1.group? g.id = some g

end Sys2Proof.Claims

/-- The words that the manual writes out decode to the instructions that it names (R41, R50 to R56, R60). -/
def Obligations.SpelledWords : Prop := ∀ e ∈ spelled, (decode e.1).toOption = some e.2

/-- Decoding and encoding agree (R48 to R60): a well-formed instruction's word decodes to it, a word that decodes is the word of a well-formed
instruction, and every Verric instruction has a word. -/
def Obligations.EncodingRoundTrips : Prop :=
  (∀ i c, i.wf = true → encode i = some c → decode c = .ok i) ∧
  (∀ i c, decode c = .ok i → encode i = some c ∧ i.wf = true) ∧
  (∀ i, i.isCode = true ↔ (encode i).isSome = true)

/-- A step runs the instruction that stands decoded at the issuing slot's PC, after the checks of R62, its marker (R59) and the results it needs (R98), and
then lets the group's slots meet their joins (R86); where the line's template names a partner that can issue, it issues in the same ac for the same slot
(R47); a parked instruction goes on once what it waits for has come (R232); an event of the agenda runs as exec gives it, or is passed over; with nothing
on the agenda the free schedule says what is next. -/
def Obligations.StepRunsTheDecodedInstruction : Prop :=
  (∀ s core q rest s1 g n s2 bs i, Turned s core q rest s1 g n → let x := g.slot n; let k := x.pc.toNat % 5; let w := lineWord bs
    let c : Code := BitVec.ofNat 96 (leNat ((bs.drop (12 * k)).take 12)); let p := partnerOf bs x.pc i c; let g' := if c.getLsbD 0 then g.mark x.mask else g
    (s1.launch g).inSegment x.pc.toNat = true → s1.fetchLine g x.pc.toNat = (s2, .line bs) →
    lwpOk w = true → lineKind w = 0 → w / 2 ^ 16 = 0 → (x.check = true → lineMarked w k = true) → slotOk bs k = true →
    decode c = .ok i → s2.lateChecks g x.fmt i c p = .run i c p → s2.pathHeld g c = false →
    (c.getLsbD 0 = true → s2.markerHeld g n = false ∧ g.neededFailure x i = none) →
    ∃ s3 t, s3.issuer? = some { g := g'.setSlot n { x with check := false, age := 0 }, name := n } ∧
      { s3 with groups := s2.groups, issuer := s2.issuer } = s2 ∧ (∀ j, j ≠ g.id → s3.group? j = s2.group? j) ∧ exec i s3 = .next t ∧
      match p.bind (s3.pairSecond t) with
      | none => step s = .next t.afterIssue.turnOver
      | some (j, t1) => (∀ p', p = some p' → j = p'.instr) ∧ ∃ t2, exec j t1 = .next t2 ∧ step s = .next (t2.endPair g.id).afterIssue.turnOver) ∧
  (∀ s rest gid n g i, s.agenda = .resume gid n :: rest → let s1 : State := { s with agenda := rest }
    s1.group? gid = some g → s1.lateVerdict g n = none → (g.slot n.other).trap = none → s1.slotResumes g n = some i →
    ∃ t, exec i { s1 with issuer := some (gid, n) } = .next t ∧ step s = .next t.afterIssue.turnOver) ∧
  (∀ s i args rest, s.agenda = .event i args :: rest → let s1 : State := { s with agenda := rest, args := args, issuer := none }
    (∀ t, exec i s1 = .next t → step s = .next t.turnOver) ∧
    (∀ f, exec i s1 = .fault f → step s = .next { s with agenda := rest, turn := s.turn + 1, args := [] })) ∧
  (∀ s, s.agenda = [] → step s =
    if Config.freeMove s.turn = [] then .next { s with turn := s.turn + 1, args := [] } else step { s with agenda := Config.freeMove s.turn })

/-- Every step keeps memory and the module's registers in their canonical form: numbers strictly rising, no entry that an unlisted one reads as. -/
def Obligations.StepKeepsCanonicalForm : Prop := ∀ s t, s.Canonical → step s = .next t → t.Canonical

/-- The machine never stops, in whatever state and whatever the schedule and the outside world do: every step answers a next state. -/
def Obligations.StepNeverStops : Prop := ∀ s : State, s.Safe

/-- Reset (R329, R347, R359, R360, R370, R399, R400): the registers whose reset value the manual gives other than zero, every other register zero; no
group, no request, no context; the next retirement number 1; memory and registers in canonical form. Memory reads zero (assumption 1). -/
def Obligations.ResetState : Prop :=
  let s := State.reset; let tdto := fun (t : Tier) (n : Nat) => tierBlock t n + 0x40
  (∀ q, q < 16 → s.reg (queueBlock q + 0x28) = 1) ∧ (∀ q, q < 3 → s.reg (faultBlock q + 0x38) = 10000) ∧
  s.reg (tdto .core 0) = 1000 ∧ (∀ d, d < 4 → s.reg (tdto .die d) = 1000 ∧ s.reg (dieBlock d + 0x30000) = 0x100710) ∧
  (∀ p, p < 12 → s.reg (tdto .port p) = 1000 ∧ s.reg (tdto .remote p) = 1000) ∧
  s.reg bootstat = 0 ∧ s.reg pmstat = 0 ∧ s.reg pmmode = 0 ∧ s.reg dierst = 0 ∧ s.reg modid = 0 ∧ (∀ p, p < 12 → s.reg (spctl p) = 0) ∧
  s.groups = [] ∧ s.reqs = [] ∧ s.works = [] ∧ s.grids = [] ∧ s.fleet.live = [] ∧ s.fleet.nextSeq = 1 ∧ (∀ t ∈ s.fleet.totals, t = 0) ∧
  (∀ a, s.byte a = 0) ∧ s.Canonical
end

