-- ==== Sys2Proof/Laws/Canonical.lean ====
section
/-! SUPPORT. What keeps memory and the register file in their canonical form: the updates of a sparse list, and how an option, a
pair, an outcome and a fold carry State.Canonical on. -/
namespace Sys2Proof.Machine
open Sys2Proof

theorem Sparse.wfFrom_mono {w : Nat} {m : Sparse w} : ∀ {lo lo' : Nat}, lo ≤ lo' → Sparse.wfFrom lo' m = true → Sparse.wfFrom lo m = true := by
  cases m with
  | nil => intros; rfl
  | cons e rest =>
    intro lo lo' h
    simp only [Sparse.wfFrom, Bool.and_eq_true, decide_eq_true_eq]
    rintro ⟨⟨h1, h2⟩, h3⟩
    exact ⟨⟨by omega, h2⟩, h3⟩

theorem Sparse.wfFrom_filter {w : Nat} (p : Nat × BitVec w → Bool) (m : Sparse w) : ∀ lo, Sparse.wfFrom lo m = true →
    Sparse.wfFrom lo (m.filter p) = true := by
  induction m with
  | nil => intros; rfl
  | cons e rest ih =>
    intro lo h
    simp only [Sparse.wfFrom, Bool.and_eq_true, decide_eq_true_eq] at h
    obtain ⟨⟨h1, h2⟩, h3⟩ := h
    rw [List.filter_cons]
    split
    · simp only [Sparse.wfFrom, Bool.and_eq_true, decide_eq_true_eq]
      exact ⟨⟨h1, h2⟩, ih _ h3⟩
    · exact Sparse.wfFrom_mono (by omega) (ih _ h3)

theorem Sparse.wfFrom_put {w : Nat} {x : BitVec w} (hx : x ≠ 0) (m : Sparse w) : ∀ lo n : Nat, lo ≤ n → Sparse.wfFrom lo m = true →
    Sparse.wfFrom lo (Sparse.put m n x) = true := by
  induction m with
  | nil => intro lo n hn _; simp_all [Sparse.put, Sparse.wfFrom]
  | cons e rest ih =>
    obtain ⟨k, v⟩ := e
    intro lo n hn h
    simp only [Sparse.wfFrom, Bool.and_eq_true, decide_eq_true_eq] at h
    obtain ⟨⟨h1, h2⟩, h3⟩ := h
    unfold Sparse.put
    split
    · subst k; simp_all [Sparse.wfFrom]
    · split
      · simp_all [Sparse.wfFrom] <;> omega
      · have := ih (k + 1) n (by omega) h3
        simp_all [Sparse.wfFrom]

theorem Sparse.wf_set {w : Nat} {m : Sparse w} (h : Sparse.wf m = true) (n : Nat) (x : BitVec w) : Sparse.wf (Sparse.set m n x) = true := by
  unfold Sparse.set
  split
  · exact Sparse.wfFrom_filter _ m 0 h
  · exact Sparse.wfFrom_put ‹_› m 0 n (Nat.zero_le n) h

theorem Sparse.wf_setMany {w : Nat} (xs : List (BitVec w)) : ∀ {m : Sparse w} (n : Nat), Sparse.wf m = true →
    Sparse.wf (Sparse.setMany m n xs) = true := by
  induction xs with
  | nil => intro m n h; exact h
  | cons x rest ih => intro m n h; exact ih (n + 1) (Sparse.wf_set h n x)

theorem State.storeBytes_canonical {s : State} (h : s.Canonical) (a : Nat) (bs : List Byte) : (s.storeBytes a bs).Canonical :=
  ⟨Sparse.wf_setMany bs a h.1, h.2⟩
theorem State.setReg_canonical {s : State} (h : s.Canonical) (a : Nat) (v : DWord) : (s.setReg a v).Canonical :=
  ⟨h.1, Sparse.wf_set h.2 a v⟩

theorem State.command_canonical {s : State} {n : Nat} {x : Tier × Nat × Nat × State} (e : s.command n = some x) (h : s.Canonical) :
    x.2.2.2.Canonical := by
  unfold State.command at e
  split at e
  · cases e
  · dsimp only at e
    split at e
    · cases e
    · cases e; exact State.setReg_canonical h _ _

theorem State.pairSecond_canonical {s t : State} {p : Partner} {x : Instr × State} (e : s.pairSecond t p = some x) (h : t.Canonical) :
    x.2.Canonical := by
  unfold State.pairSecond at e
  split at e
  · dsimp only at e
    split at e
    · split at e
      · split at e
        · cases e
        · cases e; exact h
      · cases e
    · cases e
  · cases e

/-- The register file after reset lists its entries in the canonical form. -/
theorem reset_mmio_wf : Sparse.wf State.reset.mmio = true := by decide

/-- Every state an option holds is canonical. -/
structure optCanonical (o : Option State) : Prop where
  keep : ∀ t, o = some t → t.Canonical
/-- The same of an option of a state with a value. -/
structure optPairCanonical {α : Type} (o : Option (State × α)) : Prop where
  keep : ∀ t x, o = some (t, x) → t.Canonical
/-- The same of an outcome. -/
structure outCanonical (o : Host.Outcome State Fault Refusal) : Prop where
  keep : ∀ t, o = .next t → t.Canonical
/-- The same of a turn. -/
def Turn.Canonical : Turn → Prop
  | .held s => s.Canonical
  | .ended s => s.Canonical
  | .run _ _ s => s.Canonical

theorem canonical_of_pair {α : Type} {p : State × α} {s : State} {x : α} (e : p = (s, x)) (h : p.1.Canonical) : s.Canonical := by
  subst e; exact h
theorem canonical_of_some {o : Option State} {s : State} (e : o = some s) (h : optCanonical o) : s.Canonical := h.keep s e
theorem canonical_of_somePair {α : Type} {o : Option (State × α)} {s : State} {x : α} (e : o = some (s, x)) (h : optPairCanonical o) :
    s.Canonical := h.keep s x e
theorem canonical_of_next {o : Host.Outcome State Fault Refusal} {s : State} (e : o = .next s) (h : outCanonical o) : s.Canonical := h.keep s e
theorem canonical_of_held {o : Turn} {s : State} (e : o = .held s) (h : o.Canonical) : s.Canonical := by subst e; exact h
theorem canonical_of_ended {o : Turn} {s : State} (e : o = .ended s) (h : o.Canonical) : s.Canonical := by subst e; exact h
theorem canonical_of_run {o : Turn} {i : Instr} {p : Option Partner} {s : State} (e : o = .run i p s) (h : o.Canonical) : s.Canonical := by subst e; exact h
theorem canonical_id {s : State} (h : s.Canonical) : (id s).Canonical := h
theorem canonical_fold {s : State} (h : s.Canonical) : Memory.wf s.mem = true ∧ Sparse.wf s.mmio = true := h
theorem canonical_foldl {α : Type} {l : List α} {f : State → α → State} {s : State} (hf : ∀ s x, s.Canonical → (f s x).Canonical)
    (h : s.Canonical) : (l.foldl f s).Canonical := by
  induction l generalizing s with
  | nil => exact h
  | cons x l ih => exact ih (hf s x h)
theorem canonical_foldr {α : Type} {l : List α} {f : α → State → State} {s : State} (hf : ∀ x s, s.Canonical → (f x s).Canonical)
    (h : s.Canonical) : (l.foldr f s).Canonical := by
  induction l with
  | nil => exact h
  | cons x l ih => exact hf x _ ih
theorem canonical_foldl_pair {α β : Type} {l : List α} {f : State × β → α → State × β} {p : State × β}
    (hf : ∀ p x, p.1.Canonical → (f p x).1.Canonical) (h : p.1.Canonical) : (l.foldl f p).1.Canonical := by
  induction l generalizing p with
  | nil => exact h
  | cons x l ih => exact ih (hf p x h)
theorem canonical_mk {y0 : Nat} {y1 : List Move} {y2 : List Nat} {y3 : Option (Nat × SlotName)} {y4 : Nat} {y5 : Nat} {y6 : List Die} {y7 : List Group} {y8 : List Block} {y9 : List Grid} {y10 : List Work} {y11 : List Gang} {y12 : List Window} {y13 : List (Nat × Core)} {m : List Host.Cell} {y15 : List Nat} {r : Sparse 64} {y17 : List Req} {y18 : List SpReq} {y19 : List Record} {y20 : List Journal} {y21 : List L1Line} {y22 : List L2Line} {y23 : List StaleCopy} {y24 : List Region} {y25 : List (Nat × Nat)} {y26 : List OpenLine} {y27 : List (Nat × Nat × Nat × Nat)} {y28 : List Nat} {y29 : List (Nat × Nat × Nat)} {y30 : List Nat} {y31 : List CopyReq} {y32 : Sparse 32} {y33 : List MGroup} {y34 : List Held} {y35 : List Fill} {y36 : List Watch} {y37 : List Barrier} {y38 : List CachedEntry} {y39 : List TierCmd} {y40 : List Control} {y41 : List Nat} {y42 : Option DieReset} {y43 : List (Nat × Nat × Nat)} {y44 : DWord} {y45 : Boot} {y46 : Fleet} {y47 : List Remote} :
    State.Canonical { turn := y0, agenda := y1, args := y2, issuer := y3, nextId := y4, fc := y5, dies := y6, groups := y7, blocks := y8, grids := y9, works := y10, gangs := y11, windows := y12, cores := y13, mem := m, poison := y15, mmio := r, reqs := y17, spReqs := y18, records := y19, journal := y20, l1 := y21, l2 := y22, staleCopies := y23, regions := y24, persistent := y25, opens := y26, published := y27, queueWait := y28, dsqWait := y29, poolWait := y30, copyReqs := y31, engineSeq := y32, mgroups := y33, helds := y34, fills := y35, watches := y36, barriers := y37, cache := y38, cmds := y39, controls := y40, incarnations := y41, dieReset := y42, storage := y43, flclk := y44, boot := y45, fleet := y46, remotes := y47 } ↔ (Memory.wf m = true ∧ Sparse.wf r = true) := Iff.rfl
theorem canonical_ite {c : Prop} [Decidable c] {x y : State} (hx : x.Canonical) (hy : y.Canonical) : (if c then x else y).Canonical := by
  split <;> assumption
theorem canonical_itePair {α : Type} {c : Prop} [Decidable c] {x y : State × α} (hx : x.1.Canonical) (hy : y.1.Canonical) :
    (if c then x else y).1.Canonical := by
  split <;> assumption
theorem optCanonical_ite {c : Prop} [Decidable c] {x y : Option State} (hx : optCanonical x) (hy : optCanonical y) :
    optCanonical (if c then x else y) := by
  split <;> assumption
theorem optPairCanonical_ite {α : Type} {c : Prop} [Decidable c] {x y : Option (State × α)} (hx : optPairCanonical x) (hy : optPairCanonical y) :
    optPairCanonical (if c then x else y) := by
  split <;> assumption
theorem outCanonical_ite {c : Prop} [Decidable c] {x y : Host.Outcome State Fault Refusal} (hx : outCanonical x) (hy : outCanonical y) :
    outCanonical (if c then x else y) := by
  split <;> assumption
theorem optCanonical_none : optCanonical none := ⟨by intro t h; cases h⟩
theorem optCanonical_some {s : State} (h : s.Canonical) : optCanonical (some s) := ⟨by intro t e; cases e; exact h⟩
theorem optCanonical_bind {α : Type} {o : Option α} {f : α → Option State} (h : ∀ x, o = some x → optCanonical (f x)) :
    optCanonical (o >>= f) := by
  cases o with
  | none => exact optCanonical_none
  | some x => exact h x rfl
theorem optCanonical_map {α : Type} {o : Option α} {f : α → State} (h : ∀ x, o = some x → (f x).Canonical) :
    optCanonical (o.map f) := by
  cases o with
  | none => exact optCanonical_none
  | some x => exact optCanonical_some (h x rfl)
theorem optPairCanonical_none {α : Type} : optPairCanonical (α := α) none := ⟨by intro t x h; cases h⟩
theorem optPairCanonical_some {α : Type} {p : State × α} (h : p.1.Canonical) : optPairCanonical (some p) := ⟨by intro t x e; cases e; exact h⟩
theorem optCanonical_bindOf {α : Type} {o : Option α} {f : α → Option State} (h : ∀ x, o = some x → optCanonical (f x)) :
    optCanonical (o.bind f) := optCanonical_bind h
theorem canonical_getD {o : Option State} {s : State} (ho : optCanonical o) (h : s.Canonical) : (o.getD s).Canonical := by
  cases o with
  | none => exact h
  | some x => exact ho.keep x rfl
theorem canonical_filter {s : State} {p : Host.Cell → Bool} (h : s.Canonical) :
    Memory.wf (s.mem.filter p) = true ∧ Sparse.wf s.mmio = true := ⟨Sparse.wfFrom_filter p s.mem 0 h.1, h.2⟩
theorem canonical_ofNext {s : State} (h : outCanonical (.next s)) : s.Canonical := h.keep s rfl
theorem optPairCanonical_bind {α β : Type} {o : Option α} {f : α → Option (State × β)} (h : ∀ x, o = some x → optPairCanonical (f x)) :
    optPairCanonical (o.bind f) := by
  cases o with
  | none => exact optPairCanonical_none
  | some x => exact h x rfl
theorem outCanonical_next {s : State} (h : s.Canonical) : outCanonical (.next s) := ⟨by intro t e; cases e; exact h⟩
theorem outCanonical_fault {f : Fault} : outCanonical (.fault f) := ⟨by intro t e; cases e⟩
theorem outCanonical_refused {f : Refusal} : outCanonical (.refused f) := ⟨by intro t e; cases e⟩
theorem State.issue_canonical {s : State} {k : Issuer → State} (h : ∀ u, (k u).Canonical) : outCanonical (s.issue k) := by
  unfold State.issue; split
  · exact outCanonical_next (h _)
  · exact outCanonical_fault
theorem whenDue_canonical {o : Option State} (h : optCanonical o) : outCanonical (whenDue o) := by
  unfold whenDue; split
  · exact outCanonical_next (h.keep _ rfl)
  · exact outCanonical_fault
end Sys2Proof.Machine
end

