-- ==== Sys2Proof/Laws/CanonicalShared.lean ====
section
/-! SUPPORT. State.Canonical is kept by the shared operations over registers, memory, tables, scratchpads and lines: one lemma per operation. -/
namespace Sys2Proof.Machine
open Sys2Proof
set_option linter.unusedSimpArgs false

theorem State.setGroup_canonical (s : State) (a1 : Group) (h0 : s.Canonical) :
    (State.setGroup s a1).Canonical := by
  unfold State.setGroup
  repeat' first
    | with_reducible assumption | (simp only [canonical_mk]; refine canonical_fold ?_)

theorem State.setCore_canonical (s : State) (a1 : Nat) (a2 : Core) (h0 : s.Canonical) :
    (State.setCore s a1 a2).Canonical := by
  unfold State.setCore
  repeat' first
    | with_reducible assumption | (simp only [canonical_mk]; refine canonical_fold ?_)

theorem State.setBlock_canonical (s : State) (a1 : Block) (h0 : s.Canonical) :
    (State.setBlock s a1).Canonical := by
  unfold State.setBlock
  repeat' first
    | with_reducible assumption | (simp only [canonical_mk]; refine canonical_fold ?_)

theorem State.setGrid_canonical (s : State) (a1 : Grid) (h0 : s.Canonical) :
    (State.setGrid s a1).Canonical := by
  unfold State.setGrid
  repeat' first
    | with_reducible assumption | (simp only [canonical_mk]; refine canonical_fold ?_)

theorem State.setDie_canonical (s : State) (a1 : Nat) (a2 : Die) (h0 : s.Canonical) :
    (State.setDie s a1 a2).Canonical := by
  unfold State.setDie
  repeat' first
    | with_reducible assumption | (simp only [canonical_mk]; refine canonical_fold ?_)

theorem State.fresh_canonical (s : State) (h0 : s.Canonical) :
    (State.fresh s).2.Canonical := by
  unfold State.fresh
  repeat' first
    | with_reducible assumption | (simp only [canonical_mk]; refine canonical_fold ?_)

theorem State.advance_canonical (s : State) (a1 : Group) (a2 : SlotName) (h0 : s.Canonical) :
    (State.advance s a1 a2).Canonical := by
  unfold State.advance
  repeat' first
    | with_reducible assumption | with_reducible apply State.setGroup_canonical

theorem State.park_canonical (s : State) (a1 : Group) (a2 : SlotName) (a3 : Instr) (a4 : List Nat) (a5 : Cond) (h0 : s.Canonical) :
    (State.park s a1 a2 a3 a4 a5).Canonical := by
  unfold State.park
  repeat' first
    | with_reducible assumption | (simp only [canonical_mk]; refine canonical_fold ?_) | with_reducible apply State.setGroup_canonical

theorem State.storeN_canonical (s : State) (a1 : Nat) (a2 : Nat) (a3 : Nat) (h0 : s.Canonical) :
    (State.storeN s a1 a2 a3).Canonical := by
  unfold State.storeN
  repeat' first
    | with_reducible assumption | with_reducible apply State.storeBytes_canonical

theorem State.poisonLine_canonical (s : State) (a1 : Nat) (h0 : s.Canonical) :
    (State.poisonLine s a1).Canonical := by
  unfold State.poisonLine
  repeat' first
    | with_reducible assumption | (simp only [canonical_mk]; refine canonical_fold ?_) | with_reducible apply canonical_ite

theorem State.setField_canonical (s : State) (a1 : Nat) (a2 : Nat) (a3 : Nat) (a4 : Nat) (h0 : s.Canonical) :
    (State.setField s a1 a2 a3 a4).Canonical := by
  unfold State.setField
  repeat' first
    | with_reducible assumption | with_reducible apply State.setReg_canonical

theorem State.closeLine_canonical (s : State) (a1 : Nat) (h0 : s.Canonical) :
    (State.closeLine s a1).Canonical := by
  unfold State.closeLine
  repeat' first
    | with_reducible assumption | (simp only [canonical_mk]; refine canonical_fold ?_) | with_reducible apply State.storeBytes_canonical
    | split

theorem State.readClosing_canonical (s : State) (a1 : Nat) (a2 : Nat) (h0 : s.Canonical) :
    (State.readClosing s a1 a2).1.Canonical := by
  unfold State.readClosing
  repeat' first
    | with_reducible assumption | (simp only [canonical_mk]; refine canonical_fold ?_) | with_reducible apply State.closeLine_canonical

theorem State.charge_canonical (s : State) (a1 : Nat) (a2 : Nat) (a3 : Nat) (h0 : s.Canonical) :
    (State.charge s a1 a2 a3).Canonical := by
  unfold State.charge
  repeat' first
    | with_reducible assumption | (simp only [canonical_mk]; refine canonical_fold ?_) | with_reducible apply canonical_ite

theorem State.mergeClock_canonical (s : State) (a1 : DWord) (h0 : s.Canonical) :
    (State.mergeClock s a1).Canonical := by
  unfold State.mergeClock
  repeat' first
    | with_reducible assumption | (simp only [canonical_mk]; refine canonical_fold ?_)

theorem State.interrupt_canonical (s : State) (a1 : Nat) (a2 : Nat) (h0 : s.Canonical) :
    (State.interrupt s a1 a2).Canonical := by
  unfold State.interrupt
  repeat' first
    | with_reducible assumption | (simp only [canonical_mk]; refine canonical_fold ?_)

theorem State.sendRecord_canonical (s : State) (a1 : Nat) (a2 : DWord) (a3 : List Nat) (h0 : s.Canonical) :
    (State.sendRecord s a1 a2 a3).1.Canonical := by
  unfold State.sendRecord
  repeat' first
    | with_reducible assumption | (simp only [canonical_mk]; refine canonical_fold ?_) | with_reducible apply State.mergeClock_canonical
    | with_reducible apply State.setField_canonical | with_reducible apply State.storeBytes_canonical
    | with_reducible apply State.interrupt_canonical | with_reducible apply canonical_ite | with_reducible apply canonical_itePair

theorem State.machineCheckTo_canonical (s : State) (a1 : Nat) (a2 : DWord) (a3 : Nat) (a4 : Nat) (a5 : Nat) (h0 : s.Canonical) :
    (State.machineCheckTo s a1 a2 a3 a4 a5).Canonical := by
  unfold State.machineCheckTo
  repeat' first
    | with_reducible assumption | (simp only [canonical_mk]; refine canonical_fold ?_) | with_reducible apply State.sendRecord_canonical

theorem State.machineCheck_canonical (s : State) (a1 : Nat) (a2 : Nat) (a3 : Nat) (h0 : s.Canonical) :
    (State.machineCheck s a1 a2 a3).Canonical := by
  unfold State.machineCheck
  repeat' first
    | with_reducible assumption | with_reducible apply State.machineCheckTo_canonical

theorem State.groupRecord_canonical (s : State) (a1 : Group) (a2 : Nat) (a3 : Nat) (a4 : Pc) (a5 : DWord) (h0 : s.Canonical) :
    (State.groupRecord s a1 a2 a3 a4 a5).Canonical := by
  unfold State.groupRecord
  repeat' first
    | with_reducible assumption | (simp only [canonical_mk]; refine canonical_fold ?_) | with_reducible apply State.sendRecord_canonical

theorem State.putEntry_canonical (s : State) (a1 : Tier) (a2 : Nat) (a3 : Nat) (a4 : Entry) (h0 : s.Canonical) :
    (State.putEntry s a1 a2 a3 a4).Canonical := by
  unfold State.putEntry
  repeat' first
    | with_reducible assumption | (simp only [canonical_mk]; refine canonical_fold ?_) | with_reducible apply State.storeN_canonical

theorem State.dropCached_canonical (s : State) (a1 : Tier) (a2 : Nat) (a3 : Nat) (h0 : s.Canonical) :
    (State.dropCached s a1 a2 a3).Canonical := by
  unfold State.dropCached
  repeat' first
    | with_reducible assumption | (simp only [canonical_mk]; refine canonical_fold ?_)

theorem State.keepCached_canonical (s : State) (a1 : Tier) (a2 : Nat) (a3 : Nat) (a4 : Nat) (a5 : Entry) (h0 : s.Canonical) :
    (State.keepCached s a1 a2 a3 a4 a5).Canonical := by
  unfold State.keepCached
  repeat' first
    | with_reducible assumption | (simp only [canonical_mk]; refine canonical_fold ?_)

theorem State.findEntry_canonical (s : State) (a1 : Tier) (a2 : Nat) (a3 : Nat) (a4 : Nat) (h0 : s.Canonical) :
    (State.findEntry s a1 a2 a3 a4).1.Canonical := by
  unfold State.findEntry
  repeat' first
    | with_reducible assumption | (simp only [canonical_mk]; refine canonical_fold ?_) | with_reducible apply State.closeLine_canonical
    | with_reducible apply State.dropCached_canonical | with_reducible apply State.keepCached_canonical
    | with_reducible apply canonical_itePair | split

theorem State.readEntry_canonical (s : State) (a1 : Nat) (h0 : s.Canonical) :
    (State.readEntry s a1).1.Canonical := by
  unfold State.readEntry
  repeat' first
    | with_reducible assumption | (simp only [canonical_mk]; refine canonical_fold ?_) | with_reducible apply State.closeLine_canonical

theorem State.walk_canonical (s : State) (a1 : Nat) (a2 : Nat) (a3 : Nat) (a4 : Nat) (h0 : s.Canonical) :
    (State.walk s a1 a2 a3 a4).1.Canonical := by
  fun_induction State.walk s a1 a2 a3 a4 <;>
  repeat' first
    | with_reducible assumption | (simp only [canonical_mk]; refine canonical_fold ?_) | with_reducible apply State.readEntry_canonical
    | with_reducible refine canonical_of_pair (by assumption) ?_ | with_reducible apply_assumption -exfalso -symm

theorem State.pageWalk_canonical (s : State) (a1 : Tier) (a2 : Nat) (a3 : Nat) (a4 : Entry) (a5 : DWord) (a6 : Nat) (a7 : Nat) (a8 : BitVec 5) (a9 : BitVec 5) (a10 : Nat) (h0 : s.Canonical) :
    (State.pageWalk s a1 a2 a3 a4 a5 a6 a7 a8 a9 a10).1.Canonical := by
  unfold State.pageWalk
  repeat' first
    | with_reducible assumption | (simp only [canonical_mk]; refine canonical_fold ?_) | with_reducible apply State.walk_canonical
    | with_reducible apply State.storeN_canonical | with_reducible apply canonical_ite | with_reducible apply canonical_itePair

theorem State.lookAt_canonical (s : State) (a1 : Tier) (a2 : Nat) (a3 : Nat) (a4 : DWord) (a5 : Nat) (a6 : BitVec 5) (a7 : BitVec 5) (a8 : Nat) (h0 : s.Canonical) :
    (State.lookAt s a1 a2 a3 a4 a5 a6 a7 a8).1.Canonical := by
  unfold State.lookAt
  repeat' first
    | with_reducible assumption | (simp only [canonical_mk]; refine canonical_fold ?_) | with_reducible apply State.findEntry_canonical
    | with_reducible apply State.pageWalk_canonical | with_reducible apply canonical_itePair

theorem State.lookFrom_canonical (s : State) (a1 : Nat) (a2 : BitVec 5) (a3 : Nat) (a4 : Nat) (a5 : Tier) (a6 : Nat) (a7 : DWord) (a8 : Nat) (a9 : BitVec 5) (h0 : s.Canonical) :
    (State.lookFrom s a1 a2 a3 a4 a5 a6 a7 a8 a9).1.Canonical := by
  fun_induction State.lookFrom s a1 a2 a3 a4 a5 a6 a7 a8 a9 <;>
  repeat' first
    | with_reducible assumption | with_reducible apply State.lookAt_canonical | with_reducible refine canonical_of_pair (by assumption) ?_
    | with_reducible apply_assumption -exfalso -symm

theorem State.resolve_canonical (s : State) (a1 : Nat) (a2 : Nat) (a3 : Nat) (a4 : DWord) (a5 : Nat) (a6 : BitVec 5) (h0 : s.Canonical) :
    (State.resolve s a1 a2 a3 a4 a5 a6).1.Canonical := by
  unfold State.resolve
  repeat' first
    | with_reducible assumption | with_reducible apply State.lookFrom_canonical | split

theorem State.reportFailure_canonical (s : State) (a1 : LookFail) (a2 : DWord) (a3 : BitVec 5) (a4 : Nat) (a5 : Nat) (h0 : s.Canonical) :
    (State.reportFailure s a1 a2 a3 a4 a5).1.Canonical := by
  unfold State.reportFailure
  repeat' first
    | with_reducible assumption | (simp only [canonical_mk]; refine canonical_fold ?_) | with_reducible apply State.sendRecord_canonical
    | with_reducible apply canonical_itePair

theorem State.spWrite_canonical (s : State) (a1 : Nat) (a2 : Nat) (a3 : Nat) (a4 : List Byte) (h0 : s.Canonical) :
    (State.spWrite s a1 a2 a3 a4).Canonical := by
  unfold State.spWrite
  repeat' first
    | with_reducible assumption | (simp only [canonical_mk]; refine canonical_fold ?_) | with_reducible apply State.setCore_canonical

theorem State.setHeader_canonical (s : State) (a1 : Nat) (a2 : Nat) (a3 : Nat) (h0 : s.Canonical) :
    (State.setHeader s a1 a2 a3).Canonical := by
  unfold State.setHeader
  repeat' first
    | with_reducible assumption | with_reducible apply State.setCore_canonical

theorem State.freeHeader_canonical (s : State) (a1 : Nat) (a2 : Nat) (h0 : s.Canonical) :
    (State.freeHeader s a1 a2).Canonical := by
  unfold State.freeHeader
  repeat' first
    | with_reducible assumption | with_reducible apply State.setHeader_canonical | with_reducible apply canonical_ite

theorem State.initHeader_canonical (s : State) (a1 : Nat) (a2 : Nat) (a3 : Nat) (a4 : Bool) (h0 : s.Canonical) :
    (State.initHeader s a1 a2 a3 a4).Canonical := by
  unfold State.initHeader
  repeat' first
    | with_reducible assumption | (simp only [canonical_mk]; refine canonical_fold ?_) | with_reducible apply State.setHeader_canonical
    | with_reducible apply State.setCore_canonical

theorem State.boArrive_canonical (s : State) (a1 : Nat) (a2 : Nat) (a3 : Nat) (h0 : s.Canonical) :
    (State.boArrive s a1 a2 a3).1.Canonical := by
  unfold State.boArrive
  repeat' first
    | with_reducible assumption | (simp only [canonical_mk]; refine canonical_fold ?_) | with_reducible apply State.freeHeader_canonical
    | with_reducible apply State.setHeader_canonical

theorem State.boFail_canonical (s : State) (a1 : Nat) (a2 : Nat) (a3 : Nat) (a4 : Nat) (h0 : s.Canonical) :
    (State.boFail s a1 a2 a3 a4).Canonical := by
  unfold State.boFail
  repeat' first
    | with_reducible assumption | (simp only [canonical_mk]; refine canonical_fold ?_) | with_reducible apply State.setHeader_canonical

theorem State.qPush_canonical (s : State) (a1 : Nat) (a2 : Nat) (a3 : Nat) (h0 : s.Canonical) :
    (State.qPush s a1 a2 a3).Canonical := by
  unfold State.qPush
  repeat' first
    | with_reducible assumption | (simp only [canonical_mk]; refine canonical_fold ?_) | with_reducible apply State.setCore_canonical
    | with_reducible apply State.setHeader_canonical

theorem State.qPop_canonical (s : State) (a1 : Nat) (a2 : Nat) (h0 : s.Canonical) :
    (State.qPop s a1 a2).1.Canonical := by
  unfold State.qPop
  repeat' first
    | with_reducible assumption | (simp only [canonical_mk]; refine canonical_fold ?_) | with_reducible apply State.setHeader_canonical

theorem State.setBarrier_canonical (s : State) (a1 : Barrier) (h0 : s.Canonical) :
    (State.setBarrier s a1).Canonical := by
  unfold State.setBarrier
  repeat' first
    | with_reducible assumption | (simp only [canonical_mk]; refine canonical_fold ?_)

theorem State.settleBarrier_canonical (s : State) (a1 : Barrier) (h0 : s.Canonical) :
    (State.settleBarrier s a1).Canonical := by
  unfold State.settleBarrier
  repeat' first
    | with_reducible assumption | (simp only [canonical_mk]; refine canonical_fold ?_) | with_reducible apply State.setBarrier_canonical
    | with_reducible apply canonical_ite

theorem State.settleBarriers_canonical (s : State) (h0 : s.Canonical) :
    (State.settleBarriers s).Canonical := by
  unfold State.settleBarriers
  repeat' first
    | with_reducible assumption | intro _ | with_reducible apply State.settleBarrier_canonical | with_reducible apply canonical_foldl

theorem State.setMatrix_canonical (s : State) (a1 : Nat) (a2 : Matrix) (h0 : s.Canonical) :
    (State.setMatrix s a1 a2).Canonical := by
  unfold State.setMatrix
  repeat' first
    | with_reducible assumption | (simp only [canonical_mk]; refine canonical_fold ?_) | with_reducible apply State.setCore_canonical

theorem State.grantEven_canonical (s : State) (a1 : Nat) (h0 : s.Canonical) :
    (State.grantEven s a1).Canonical := by
  unfold State.grantEven
  repeat' first
    | with_reducible assumption | (simp only [canonical_mk]; refine canonical_fold ?_) | with_reducible apply State.setMatrix_canonical
    | split

theorem State.grantOdd_canonical (s : State) (a1 : Nat) (h0 : s.Canonical) :
    (State.grantOdd s a1).Canonical := by
  unfold State.grantOdd
  repeat' first
    | with_reducible assumption | (simp only [canonical_mk]; refine canonical_fold ?_) | with_reducible apply State.setMatrix_canonical
    | split

theorem State.loadArray_canonical (s : State) (a1 : Nat) (a2 : Matrix) (h0 : s.Canonical) :
    (State.loadArray s a1 a2).Canonical := by
  unfold State.loadArray
  repeat' first
    | with_reducible assumption | (simp only [canonical_mk]; refine canonical_fold ?_) | with_reducible apply State.setMatrix_canonical

theorem State.grantOwed_canonical (s : State) (a1 : Nat) (h0 : s.Canonical) :
    (State.grantOwed s a1).Canonical := by
  unfold State.grantOwed
  repeat' first
    | with_reducible assumption | with_reducible apply State.setBlock_canonical | with_reducible apply State.loadArray_canonical
    | with_reducible apply canonical_ite | split

theorem State.grantArrays_canonical (s : State) (a1 : Nat) (h0 : s.Canonical) :
    (State.grantArrays s a1).Canonical := by
  unfold State.grantArrays
  repeat' first
    | with_reducible assumption | (simp only [canonical_mk]; refine canonical_fold ?_) | with_reducible apply State.grantOdd_canonical
    | with_reducible apply State.grantEven_canonical | with_reducible apply State.grantOwed_canonical

theorem State.releaseArrays_canonical (s : State) (a1 : Group) (h0 : s.Canonical) :
    (State.releaseArrays s a1).Canonical := by
  unfold State.releaseArrays
  repeat' first
    | with_reducible assumption | (simp only [canonical_mk]; refine canonical_fold ?_) | with_reducible apply State.setMatrix_canonical
    | with_reducible apply State.grantArrays_canonical | with_reducible apply canonical_ite

theorem State.leaveFifo_canonical (s : State) (a1 : Group) (h0 : s.Canonical) :
    (State.leaveFifo s a1).Canonical := by
  unfold State.leaveFifo
  repeat' first
    | with_reducible assumption | (simp only [canonical_mk]; refine canonical_fold ?_) | with_reducible apply State.setMatrix_canonical
    | with_reducible apply State.grantArrays_canonical

theorem State.releaseRetired_canonical (s : State) (a1 : Group) (h0 : s.Canonical) :
    (State.releaseRetired s a1).Canonical := by
  unfold State.releaseRetired
  repeat' first
    | with_reducible assumption | with_reducible apply State.releaseArrays_canonical | with_reducible apply canonical_ite

theorem State.setMGroup_canonical (s : State) (a1 : MGroup) (h0 : s.Canonical) :
    (State.setMGroup s a1).Canonical := by
  unfold State.setMGroup
  repeat' first
    | with_reducible assumption | (simp only [canonical_mk]; refine canonical_fold ?_)

theorem State.sendFill_canonical (s : State) (a1 : Nat) (a2 : Nat) (a3 : Nat) (a4 : Nat) (a5 : Nat) (a6 : List Byte) (a7 : Nat) (a8 : Nat) (h0 : s.Canonical) :
    (State.sendFill s a1 a2 a3 a4 a5 a6 a7 a8).Canonical := by
  unfold State.sendFill
  repeat' first
    | with_reducible assumption | (simp only [canonical_mk]; refine canonical_fold ?_) | with_reducible apply State.fresh_canonical

theorem State.readFill_canonical (s : State) (a1 : Nat) (a2 : Nat) (h0 : s.Canonical) :
    (State.readFill s a1 a2).1.Canonical := by
  unfold State.readFill
  repeat' first
    | with_reducible assumption | (simp only [canonical_mk]; refine canonical_fold ?_) | with_reducible apply State.readClosing_canonical
    | with_reducible apply canonical_itePair

theorem State.castTo_canonical (s : State) (a1 : Held) (a2 : List Byte) (a3 : Nat) (a4 : List (Nat × Nat × Nat)) (h0 : s.Canonical) :
    (State.castTo s a1 a2 a3 a4).Canonical := by
  fun_induction State.castTo s a1 a2 a3 a4 <;>
  repeat' first
    | with_reducible assumption | with_reducible apply State.sendFill_canonical | with_reducible apply_assumption -exfalso -symm | split
    | dsimp +zetaDelta only

theorem State.fire_canonical (s : State) (a1 : Held) (h0 : s.Canonical) :
    (State.fire s a1).Canonical := by
  unfold State.fire
  repeat' first
    | with_reducible assumption | (simp only [canonical_mk]; refine canonical_fold ?_) | with_reducible apply State.readFill_canonical
    | with_reducible apply State.castTo_canonical

theorem State.settleHelds_canonical (s : State) (h0 : s.Canonical) :
    (State.settleHelds s).Canonical := by
  unfold State.settleHelds
  repeat' first
    | with_reducible assumption | intro _ | (simp only [canonical_mk]; refine canonical_fold ?_)
    | with_reducible apply State.fire_canonical | with_reducible apply canonical_foldl

theorem State.withdraw_canonical (s : State) (a1 : Nat) (a2 : Nat) (a3 : Nat) (a4 : Nat) (a5 : Nat) (a6 : Bool) (h0 : s.Canonical) :
    (State.withdraw s a1 a2 a3 a4 a5 a6).Canonical := by
  unfold State.withdraw
  repeat' first
    | with_reducible assumption | (simp only [canonical_mk]; refine canonical_fold ?_)

theorem State.finishLeave_canonical (s : State) (a1 : MGroup) (h0 : s.Canonical) :
    (State.finishLeave s a1).Canonical := by
  unfold State.finishLeave
  repeat' first
    | with_reducible assumption | (simp only [canonical_mk]; refine canonical_fold ?_) | with_reducible apply State.setMGroup_canonical

theorem State.mcLeave_canonical (s : State) (a1 : Group) (a2 : Nat) (h0 : s.Canonical) :
    (State.mcLeave s a1 a2).Canonical := by
  unfold State.mcLeave
  repeat' first
    | with_reducible assumption | (simp only [canonical_mk]; refine canonical_fold ?_) | with_reducible apply State.settleHelds_canonical
    | with_reducible apply State.withdraw_canonical | with_reducible apply State.setMGroup_canonical
    | with_reducible apply State.finishLeave_canonical | split

theorem State.mcLeaveAll_canonical (s : State) (a1 : Group) (h0 : s.Canonical) :
    (State.mcLeaveAll s a1).Canonical := by
  unfold State.mcLeaveAll
  repeat' first
    | with_reducible assumption | intro _ | with_reducible apply State.mcLeave_canonical | with_reducible apply canonical_foldl

theorem State.setCopyReq_canonical (s : State) (a1 : CopyReq) (h0 : s.Canonical) :
    (State.setCopyReq s a1).Canonical := by
  unfold State.setCopyReq
  repeat' first
    | with_reducible assumption | (simp only [canonical_mk]; refine canonical_fold ?_)

theorem State.engineRead_canonical (s : State) (a1 : Nat) (a2 : Nat) (a3 : Nat) (a4 : DWord) (a5 : Nat) (a6 : Nat) (h0 : s.Canonical) :
    (State.engineRead s a1 a2 a3 a4 a5 a6).1.Canonical := by
  unfold State.engineRead
  repeat' first
    | with_reducible assumption | (simp only [canonical_mk]; refine canonical_fold ?_) | with_reducible apply State.resolve_canonical
    | with_reducible apply State.readClosing_canonical | with_reducible refine canonical_of_pair (by assumption) ?_ | split

theorem State.readRecords_canonical (s : State) (a1 : Nat) (a2 : Nat) (a3 : Nat) (a4 : List Slice) (h0 : s.Canonical) :
    (State.readRecords s a1 a2 a3 a4).1.Canonical := by
  fun_induction State.readRecords s a1 a2 a3 a4 <;>
  repeat' first
    | with_reducible assumption | (simp only [canonical_mk]; refine canonical_fold ?_) | with_reducible apply State.engineRead_canonical
    | with_reducible refine canonical_of_pair (by assumption) ?_ | with_reducible apply canonical_itePair
    | with_reducible apply_assumption -exfalso -symm | split

theorem State.startCopies_canonical (s : State) (a1 : Nat) (h0 : s.Canonical) :
    (State.startCopies s a1).Canonical := by
  unfold State.startCopies
  repeat' first
    | with_reducible assumption | intro _ | (simp only [canonical_mk]; refine canonical_fold ?_)
    | with_reducible apply State.readRecords_canonical | with_reducible apply State.setCopyReq_canonical
    | with_reducible apply canonical_foldl

theorem State.fetchLine_canonical (s : State) (a1 : Group) (a2 : Nat) (h0 : s.Canonical) :
    (State.fetchLine s a1 a2).1.Canonical := by
  unfold State.fetchLine
  repeat' first
    | with_reducible assumption | (simp only [canonical_mk]; refine canonical_fold ?_) | with_reducible apply State.resolve_canonical
    | with_reducible apply State.readClosing_canonical | with_reducible refine canonical_of_pair (by assumption) ?_ | split

theorem State.checkTarget_canonical (s : State) (a1 : Group) (a2 : Int) (h0 : s.Canonical) :
    (State.checkTarget s a1 a2).1.Canonical := by
  unfold State.checkTarget
  repeat' first
    | with_reducible assumption | (simp only [canonical_mk]; refine canonical_fold ?_) | with_reducible apply State.fetchLine_canonical
    | with_reducible refine canonical_of_pair (by assumption) ?_ | with_reducible apply canonical_itePair | split

theorem State.evictSpill_canonical (s : State) (a1 : Group) (a2 : SlotName) (a3 : Nat) (h0 : s.Canonical) :
    (State.evictSpill s a1 a2 a3).1.Canonical := by
  unfold State.evictSpill
  repeat' first
    | with_reducible assumption | intro _ | (simp only [canonical_mk]; refine canonical_fold ?_)
    | with_reducible apply State.storeBytes_canonical | with_reducible apply canonical_ite | with_reducible apply canonical_foldl | split

theorem State.trimCache_canonical (s : State) (a1 : Group) (h0 : s.Canonical) :
    (State.trimCache s a1).1.Canonical := by
  unfold State.trimCache
  repeat' first
    | with_reducible assumption | intro _ | (simp only [canonical_mk]; refine canonical_fold ?_)
    | with_reducible apply State.evictSpill_canonical | with_reducible apply canonical_foldl_pair

theorem State.pushSpill_canonical (s : State) (a1 : Group) (a2 : SlotName) (a3 : Spill) (h0 : s.Canonical) :
    (State.pushSpill s a1 a2 a3).1.Canonical := by
  unfold State.pushSpill
  repeat' first
    | with_reducible assumption | (simp only [canonical_mk]; refine canonical_fold ?_) | with_reducible apply State.trimCache_canonical
    | with_reducible apply canonical_itePair

theorem State.trimSpill_canonical (s : State) (a1 : Nat) (h0 : s.Canonical) :
    (State.trimSpill s a1).Canonical := by
  unfold State.trimSpill
  repeat' first
    | with_reducible assumption | (simp only [canonical_mk]; refine canonical_fold ?_) | with_reducible apply State.trimCache_canonical
    | with_reducible apply State.setGroup_canonical | split

theorem State.split_canonical (s : State) (a1 : Group) (a2 : SlotName) (a3 : Mask) (a4 : Mask) (a5 : Pc) (a6 : Pc) (a7 : Pc) (h0 : s.Canonical) :
    optPairCanonical (State.split s a1 a2 a3 a4 a5 a6 a7) := by
  unfold State.split
  repeat' first
    | with_reducible assumption | (simp only [canonical_mk]; refine canonical_fold ?_) | with_reducible apply State.pushSpill_canonical
    | with_reducible apply optPairCanonical_none | with_reducible apply optPairCanonical_some | with_reducible apply optPairCanonical_ite

theorem State.dropWindows_canonical (s : State) (h0 : s.Canonical) :
    (State.dropWindows s).Canonical := by
  unfold State.dropWindows
  repeat' first
    | with_reducible assumption | (simp only [canonical_mk]; refine canonical_fold ?_)

theorem State.retire_canonical (s : State) (a1 : Group) (h0 : s.Canonical) :
    (State.retire s a1).Canonical := by
  unfold State.retire
  repeat' first
    | with_reducible assumption | (simp only [canonical_mk]; refine canonical_fold ?_) | with_reducible apply State.setGroup_canonical
    | with_reducible apply State.releaseRetired_canonical | with_reducible apply State.leaveFifo_canonical
    | with_reducible apply State.mcLeaveAll_canonical | with_reducible apply State.settleBarriers_canonical
    | with_reducible apply State.startCopies_canonical | with_reducible apply State.dropWindows_canonical
    | with_reducible apply State.setBlock_canonical | with_reducible apply canonical_ite | split

theorem State.arrive_canonical (s : State) (a1 : Group) (a2 : SlotName) (h0 : s.Canonical) :
    (State.arrive s a1 a2).Canonical := by
  unfold State.arrive
  repeat' first
    | with_reducible assumption | (simp only [canonical_mk]; refine canonical_fold ?_) | with_reducible apply State.setGroup_canonical
    | with_reducible apply State.settleBarriers_canonical | with_reducible apply State.retire_canonical
    | with_reducible apply canonical_ite | split

theorem State.settleSlot_canonical (s : State) (a1 : Nat) (a2 : SlotName) (a3 : Nat) (h0 : s.Canonical) :
    (State.settleSlot s a1 a2 a3).Canonical := by
  fun_induction State.settleSlot s a1 a2 a3 <;>
  repeat' first
    | with_reducible assumption | with_reducible apply State.arrive_canonical | with_reducible apply_assumption -exfalso -symm

theorem State.settleSlots_canonical (s : State) (a1 : Nat) (h0 : s.Canonical) :
    (State.settleSlots s a1).Canonical := by
  unfold State.settleSlots
  repeat' first
    | with_reducible assumption | with_reducible apply State.settleSlot_canonical

theorem State.endGroup_canonical (s : State) (a1 : Group) (a2 : Nat) (a3 : Nat) (a4 : Pc) (a5 : DWord) (h0 : s.Canonical) :
    (State.endGroup s a1 a2 a3 a4 a5).Canonical := by
  unfold State.endGroup
  repeat' first
    | with_reducible assumption | (simp only [canonical_mk]; refine canonical_fold ?_) | with_reducible apply State.retire_canonical
    | with_reducible apply State.groupRecord_canonical | with_reducible apply State.setGrid_canonical | split

theorem State.trap_canonical (s : State) (a1 : Group) (a2 : SlotName) (a3 : Nat) (a4 : DWord) (a5 : Mask) (a6 : DWord) (h0 : s.Canonical) :
    (State.trap s a1 a2 a3 a4 a5 a6).Canonical := by
  unfold State.trap
  repeat' first
    | with_reducible assumption | (simp only [canonical_mk]; refine canonical_fold ?_) | with_reducible apply State.endGroup_canonical
    | with_reducible apply State.setGroup_canonical | with_reducible apply canonical_ite | split

theorem State.raise_canonical (s : State) (a1 : Issuer) (a2 : Nat) (a3 : DWord) (h0 : s.Canonical) :
    (State.raise s a1 a2 a3).Canonical := by
  unfold State.raise
  repeat' first
    | with_reducible assumption | with_reducible apply State.trap_canonical

theorem State.nextSeq_canonical (s : State) (a1 : Nat) (h0 : s.Canonical) :
    (State.nextSeq s a1).1.Canonical := by
  unfold State.nextSeq
  repeat' first
    | with_reducible assumption | (simp only [canonical_mk]; refine canonical_fold ?_) | with_reducible apply State.setCore_canonical

theorem State.slotFault_canonical (s : State) (a1 : Group) (a2 : SlotName) (a3 : ReqKind) (a4 : BitVec 5) (a5 : LookFail) (h0 : s.Canonical) :
    (State.slotFault s a1 a2 a3 a4 a5).Canonical := by
  unfold State.slotFault
  repeat' first
    | with_reducible assumption | (simp only [canonical_mk]; refine canonical_fold ?_) | with_reducible apply State.nextSeq_canonical
    | with_reducible apply State.reportFailure_canonical | with_reducible apply State.trap_canonical
    | with_reducible apply State.fresh_canonical | split

theorem State.await_canonical (s : State) (a1 : Issuer) (a2 : Instr) (a3 : List Nat) (a4 : Cond) (a5 : List Nat → State) (h0 : s.Canonical) (h5 : ∀ x0, (a5 x0).Canonical) :
    (State.await s a1 a2 a3 a4 a5).Canonical := by
  unfold State.await
  repeat' first
    | with_reducible assumption | with_reducible apply State.park_canonical | with_reducible apply h5 | with_reducible apply canonical_ite
    | split

theorem State.nextInstr_canonical (s : State) (a1 : Group) (a2 : Slot) (h0 : s.Canonical) :
    (State.nextInstr s a1 a2).1.Canonical := by
  unfold State.nextInstr
  repeat' first
    | with_reducible assumption | (simp only [canonical_mk]; refine canonical_fold ?_) | with_reducible apply State.fetchLine_canonical
    | with_reducible refine canonical_of_pair (by assumption) ?_ | with_reducible apply canonical_itePair | split

theorem State.deliverFailure_canonical (s : State) (a1 : Group) (a2 : SlotName) (a3 : Access) (h0 : s.Canonical) :
    (State.deliverFailure s a1 a2 a3).Canonical := by
  unfold State.deliverFailure
  repeat' first
    | with_reducible assumption | (simp only [canonical_mk]; refine canonical_fold ?_) | with_reducible apply State.trap_canonical | split

theorem State.ageQuad_canonical (s : State) (a1 : Nat) (a2 : Nat) (h0 : s.Canonical) :
    (State.ageQuad s a1 a2).Canonical := by
  unfold State.ageQuad
  repeat' first
    | with_reducible assumption | (simp only [canonical_mk]; refine canonical_fold ?_)

theorem State.ageIssued_canonical (s : State) (a1 : Nat) (a2 : SlotName) (h0 : s.Canonical) :
    (State.ageIssued s a1 a2).Canonical := by
  unfold State.ageIssued
  repeat' first
    | with_reducible assumption | (simp only [canonical_mk]; refine canonical_fold ?_) | with_reducible apply State.setGroup_canonical
    | split

theorem State.slotTurn_canonical (s : State) (a1 : Group) (a2 : SlotName) (h0 : s.Canonical) :
    (State.slotTurn s a1 a2).Canonical := by
  unfold State.slotTurn
  repeat' first
    | with_reducible assumption | (simp only [canonical_mk]; refine canonical_fold ?_) | with_reducible apply State.nextInstr_canonical
    | with_reducible apply State.setGroup_canonical | with_reducible apply State.slotFault_canonical
    | with_reducible apply State.ageIssued_canonical | with_reducible apply State.trap_canonical
    | with_reducible apply State.deliverFailure_canonical | with_reducible refine canonical_of_pair (by assumption) ?_ | split
    | dsimp +zetaDelta only | dsimp only [Turn.Canonical]

theorem State.quadTurn_canonical (s : State) (a1 : List (Nat × SlotName × Nat)) (h0 : s.Canonical) :
    (State.quadTurn s a1).Canonical := by
  fun_induction State.quadTurn s a1 <;>
  repeat' first
    | with_reducible assumption | with_reducible apply State.slotTurn_canonical
    | with_reducible refine canonical_of_held (by assumption) ?_ | with_reducible apply_assumption -exfalso -symm

theorem State.stampBlock_canonical (s : State) (a1 : Nat) (a2 : SlotName) (h0 : s.Canonical) :
    (State.stampBlock s a1 a2).Canonical := by
  unfold State.stampBlock
  repeat' first
    | with_reducible assumption | (simp only [canonical_mk]; refine canonical_fold ?_) | with_reducible apply State.setBlock_canonical
    | with_reducible apply canonical_ite | split

theorem State.forgetLines_canonical (s : State) (a1 : Nat) (a2 : SlotName) (h0 : s.Canonical) :
    (State.forgetLines s a1 a2).Canonical := by
  unfold State.forgetLines
  repeat' first
    | with_reducible assumption | (simp only [canonical_mk]; refine canonical_fold ?_) | with_reducible apply State.setGroup_canonical
    | with_reducible apply canonical_ite | split

theorem State.afterIssue_canonical (s : State) (h0 : s.Canonical) :
    (State.afterIssue s).Canonical := by
  unfold State.afterIssue
  repeat' first
    | with_reducible assumption | (simp only [canonical_mk]; refine canonical_fold ?_) | with_reducible apply State.stampBlock_canonical
    | with_reducible apply State.settleSlots_canonical | with_reducible apply State.forgetLines_canonical | split

theorem State.endPair_canonical (s : State) (a1 : Nat) (h0 : s.Canonical) :
    (State.endPair s a1).Canonical := by
  unfold State.endPair
  repeat' first
    | with_reducible assumption | with_reducible apply State.setGroup_canonical | split

theorem State.chargeTime_canonical (s : State) (a1 : List Nat) (a2 : Nat) (h0 : s.Canonical) :
    (State.chargeTime s a1 a2).Canonical := by
  unfold State.chargeTime
  repeat' first
    | with_reducible assumption | intro _ | (simp only [canonical_mk]; refine canonical_fold ?_)
    | with_reducible apply State.charge_canonical | with_reducible apply canonical_ite | with_reducible apply canonical_foldl

theorem State.pass_canonical (s : State) (a1 : List Nat) (a2 : Nat) (h0 : s.Canonical) :
    (State.pass s a1 a2).Canonical := by
  unfold State.pass
  repeat' first
    | with_reducible assumption | (simp only [canonical_mk]; refine canonical_fold ?_) | with_reducible apply State.chargeTime_canonical

theorem State.layProgram_canonical (s : State) (a1 : Nat) (h0 : s.Canonical) :
    (State.layProgram s a1).Canonical := by
  unfold State.layProgram
  repeat' first
    | with_reducible assumption | (simp only [canonical_mk]; refine canonical_fold ?_) | with_reducible apply State.storeBytes_canonical

theorem State.putL1_canonical (s : State) (a1 : L1Line) (h0 : s.Canonical) :
    (State.putL1 s a1).Canonical := by
  unfold State.putL1
  repeat' first
    | with_reducible assumption | (simp only [canonical_mk]; refine canonical_fold ?_)

theorem State.dropL1_canonical (s : State) (a1 : L1Line) (h0 : s.Canonical) :
    (State.dropL1 s a1).Canonical := by
  unfold State.dropL1
  repeat' first
    | with_reducible assumption | (simp only [canonical_mk]; refine canonical_fold ?_)

theorem State.countDir_canonical (s : State) (a1 : Nat) (a2 : Nat) (h0 : s.Canonical) :
    (State.countDir s a1 a2).Canonical := by
  unfold State.countDir
  repeat' first
    | with_reducible assumption | with_reducible apply State.setField_canonical

theorem State.syncUsed_canonical (s : State) (a1 : Nat) (h0 : s.Canonical) :
    (State.syncUsed s a1).Canonical := by
  unfold State.syncUsed
  repeat' first
    | with_reducible assumption | with_reducible apply State.setField_canonical

theorem State.invalidateOn_canonical (s : State) (a1 : Nat) (a2 : Nat) (a3 : Option Nat) (h0 : s.Canonical) :
    (State.invalidateOn s a1 a2 a3).Canonical := by
  unfold State.invalidateOn
  repeat' first
    | with_reducible assumption | (simp only [canonical_mk]; refine canonical_fold ?_)

theorem State.sendControl_canonical (s : State) (a1 : Nat) (a2 : Nat) (a3 : Bool) (h0 : s.Canonical) :
    (State.sendControl s a1 a2 a3).Canonical := by
  unfold State.sendControl
  repeat' first
    | with_reducible assumption | (simp only [canonical_mk]; refine canonical_fold ?_) | split

theorem State.dieMessage_canonical (s : State) (a1 : Nat) (a2 : Nat) (h0 : s.Canonical) :
    (State.dieMessage s a1 a2).Canonical := by
  unfold State.dieMessage
  repeat' first
    | with_reducible assumption | (simp only [canonical_mk]; refine canonical_fold ?_) | with_reducible apply State.setDie_canonical
    | with_reducible apply canonical_ite

theorem State.invalidateHolder_canonical (s : State) (a1 : Nat) (a2 : Nat) (h0 : s.Canonical) :
    (State.invalidateHolder s a1 a2).Canonical := by
  unfold State.invalidateHolder
  repeat' first
    | with_reducible assumption | (simp only [canonical_mk]; refine canonical_fold ?_) | with_reducible apply State.dieMessage_canonical
    | with_reducible apply State.sendControl_canonical | with_reducible apply canonical_ite

theorem State.publish_canonical (s : State) (a1 : Nat) (a2 : Option Nat) (a3 : Nat) (a4 : Nat) (a5 : List Byte) (a6 : List Nat) (h0 : s.Canonical) :
    (State.publish s a1 a2 a3 a4 a5 a6).Canonical := by
  unfold State.publish
  repeat' first
    | with_reducible assumption | (simp only [canonical_mk]; refine canonical_fold ?_) | with_reducible apply State.closeLine_canonical
    | with_reducible apply State.invalidateOn_canonical | with_reducible apply State.storeBytes_canonical

theorem State.cleanL1_canonical (s : State) (a1 : L1Line) (h0 : s.Canonical) :
    (State.cleanL1 s a1).Canonical := by
  unfold State.cleanL1
  repeat' first
    | with_reducible assumption | intro _ | (simp only [canonical_mk]; refine canonical_fold ?_)
    | with_reducible apply State.publish_canonical | with_reducible apply State.putL1_canonical | with_reducible apply canonical_foldl
    | split

theorem State.evictU_canonical (s : State) (a1 : Nat) (a2 : Nat) (h0 : s.Canonical) :
    (State.evictU s a1 a2).Canonical := by
  unfold State.evictU
  repeat' first
    | with_reducible assumption | (simp only [canonical_mk]; refine canonical_fold ?_)

theorem State.recallL1_canonical (s : State) (a1 : L1Line) (h0 : s.Canonical) :
    (State.recallL1 s a1).Canonical := by
  unfold State.recallL1
  repeat' first
    | with_reducible assumption | with_reducible apply State.dropL1_canonical | with_reducible apply State.cleanL1_canonical
    | with_reducible apply State.evictU_canonical

theorem State.roomInDir_canonical (s : State) (a1 : Nat) (h0 : s.Canonical) :
    (State.roomInDir s a1).Canonical := by
  unfold State.roomInDir
  repeat' first
    | with_reducible assumption | intro _ | (simp only [canonical_mk]; refine canonical_fold ?_)
    | with_reducible apply State.recallL1_canonical | with_reducible apply State.countDir_canonical | with_reducible apply canonical_ite
    | with_reducible apply canonical_foldl | split

theorem State.splitRegion_canonical (s : State) (a1 : Nat) (a2 : Nat) (a3 : List Nat) (a4 : Nat) (h0 : s.Canonical) :
    (State.splitRegion s a1 a2 a3 a4).Canonical := by
  fun_induction State.splitRegion s a1 a2 a3 a4 <;>
  repeat' first
    | with_reducible assumption | (simp only [canonical_mk]; refine canonical_fold ?_) | with_reducible apply State.countDir_canonical
    | with_reducible apply_assumption -exfalso -symm | dsimp +zetaDelta only

theorem State.recallRegion_canonical (s : State) (a1 : Region) (a2 : Nat) (a3 : Nat) (a4 : Nat) (h0 : s.Canonical) :
    (State.recallRegion s a1 a2 a3 a4).Canonical := by
  unfold State.recallRegion
  repeat' first
    | with_reducible assumption | intro _ | (simp only [canonical_mk]; refine canonical_fold ?_)
    | with_reducible apply State.recallL1_canonical | with_reducible apply canonical_foldl

theorem State.grantLine_canonical (s : State) (a1 : Nat) (a2 : Nat) (a3 : Nat) (a4 : Bool) (h0 : s.Canonical) :
    (State.grantLine s a1 a2 a3 a4).Canonical := by
  unfold State.grantLine
  repeat' first
    | with_reducible assumption | intro _ | (simp only [canonical_mk]; refine canonical_fold ?_)
    | with_reducible apply State.roomInDir_canonical | with_reducible apply State.splitRegion_canonical
    | with_reducible apply State.recallRegion_canonical | with_reducible apply State.invalidateHolder_canonical
    | with_reducible apply State.invalidateOn_canonical | with_reducible apply State.syncUsed_canonical
    | with_reducible apply State.dieMessage_canonical | with_reducible apply canonical_ite | with_reducible apply canonical_foldl | split

theorem State.ensureAlone_canonical (s : State) (a1 : Mode) (a2 : Nat) (a3 : Nat) (h0 : s.Canonical) :
    (State.ensureAlone s a1 a2 a3).Canonical := by
  unfold State.ensureAlone
  repeat' first
    | with_reducible assumption | with_reducible apply State.grantLine_canonical | with_reducible apply canonical_ite | split

theorem State.flushL1_canonical (s : State) (a1 : L1Line) (h0 : s.Canonical) :
    (State.flushL1 s a1).Canonical := by
  unfold State.flushL1
  repeat' first
    | with_reducible assumption | with_reducible apply State.cleanL1_canonical | with_reducible apply State.ensureAlone_canonical
    | with_reducible apply canonical_ite

theorem State.evictL1_canonical (s : State) (a1 : L1Line) (h0 : s.Canonical) :
    (State.evictL1 s a1).Canonical := by
  unfold State.evictL1
  repeat' first
    | with_reducible assumption | with_reducible apply State.dropL1_canonical | with_reducible apply State.flushL1_canonical
    | with_reducible apply State.evictU_canonical

theorem State.emptyL1s_canonical (s : State) (a1 : Nat) (h0 : s.Canonical) :
    (State.emptyL1s s a1).Canonical := by
  unfold State.emptyL1s
  repeat' first
    | with_reducible assumption | intro _ | with_reducible apply State.evictL1_canonical | with_reducible apply canonical_foldl

theorem State.reFuse_canonical (s : State) (a1 : Nat) (a2 : Bool) (h0 : s.Canonical) :
    (State.reFuse s a1 a2).Canonical := by
  unfold State.reFuse
  repeat' first
    | with_reducible assumption | with_reducible apply State.emptyL1s_canonical | with_reducible apply canonical_ite

theorem State.applyPending_canonical (s : State) (a1 : Nat) (h0 : s.Canonical) :
    (State.applyPending s a1).Canonical := by
  unfold State.applyPending
  repeat' first
    | with_reducible assumption | intro _ | with_reducible apply State.evictL1_canonical | with_reducible apply canonical_foldl

theorem State.noteAcquire_canonical (s : State) (a1 : Group) (h0 : s.Canonical) :
    (State.noteAcquire s a1).Canonical := by
  unfold State.noteAcquire
  repeat' first
    | with_reducible assumption | (simp only [canonical_mk]; refine canonical_fold ?_)

theorem State.foldCount_canonical (s : State) (a1 : Nat) (h0 : s.Canonical) :
    (State.foldCount s a1).Canonical := by
  unfold State.foldCount
  repeat' first
    | with_reducible assumption | (simp only [canonical_mk]; refine canonical_fold ?_) | with_reducible apply State.setDie_canonical
    | with_reducible apply canonical_ite

theorem State.raiseCount_canonical (s : State) (a1 : Nat) (h0 : s.Canonical) :
    (State.raiseCount s a1).Canonical := by
  unfold State.raiseCount
  repeat' first
    | with_reducible assumption | (simp only [canonical_mk]; refine canonical_fold ?_) | with_reducible apply State.setCore_canonical
    | with_reducible apply canonical_ite

theorem State.acquireAt_canonical (s : State) (a1 : Group) (h0 : s.Canonical) :
    (State.acquireAt s a1).Canonical := by
  unfold State.acquireAt
  repeat' first
    | with_reducible assumption | intro _ | (simp only [canonical_mk]; refine canonical_fold ?_)
    | with_reducible apply State.applyPending_canonical | with_reducible apply State.raiseCount_canonical
    | with_reducible apply State.noteAcquire_canonical | with_reducible apply canonical_ite | with_reducible apply canonical_foldl

theorem State.dropSynonyms_canonical (s : State) (a1 : Nat) (a2 : Nat) (a3 : Nat) (a4 : DWord) (a5 : Nat) (h0 : s.Canonical) :
    (State.dropSynonyms s a1 a2 a3 a4 a5).Canonical := by
  unfold State.dropSynonyms
  repeat' first
    | with_reducible assumption | intro _ | with_reducible apply State.evictL1_canonical | with_reducible apply canonical_foldl

theorem State.replaceOne_canonical (s : State) (a1 : Nat) (a2 : Nat) (h0 : s.Canonical) :
    (State.replaceOne s a1 a2).Canonical := by
  unfold State.replaceOne
  repeat' first
    | with_reducible assumption | (simp only [canonical_mk]; refine canonical_fold ?_) | with_reducible apply State.evictL1_canonical
    | split

theorem State.replaceL2_canonical (s : State) (a1 : Nat) (a2 : Nat) (h0 : s.Canonical) :
    (State.replaceL2 s a1 a2).Canonical := by
  unfold State.replaceL2
  repeat' first
    | with_reducible assumption | intro _ | (simp only [canonical_mk]; refine canonical_fold ?_)
    | with_reducible apply State.evictL1_canonical | with_reducible apply canonical_foldl | split

end Sys2Proof.Machine
end

