-- ==== Sys2Proof/Laws/CanonicalCompute.lean ====
section
/-! SUPPORT. State.Canonical is kept by control flow and the arithmetic families: one lemma per operation. -/
namespace Sys2Proof.Machine
open Sys2Proof
set_option linter.unusedSimpArgs false

theorem State.checked_canonical (s : State) (a1 : Issuer) (a2 : Checked) (a3 : State → State) (h0 : s.Canonical) (h3 : ∀ x0, x0.Canonical → (a3 x0).Canonical) :
    (State.checked s a1 a2 a3).Canonical := by
  unfold State.checked
  repeat' first
    | with_reducible assumption | with_reducible apply State.raise_canonical | with_reducible apply State.slotFault_canonical
    | with_reducible apply h3 | split

theorem State.jumpTo_canonical (s : State) (a1 : Issuer) (a2 : Group) (a3 : Pc) (h0 : s.Canonical) :
    (State.jumpTo s a1 a2 a3).Canonical := by
  unfold State.jumpTo
  repeat' first
    | with_reducible assumption | with_reducible apply State.setGroup_canonical

theorem State.setFmt_canonical (s : State) (a1 : Issuer) (a2 : Nat) (h0 : s.Canonical) :
    (State.setFmt s a1 a2).Canonical := by
  unfold State.setFmt
  repeat' first
    | with_reducible assumption | (simp only [canonical_mk]; refine canonical_fold ?_) | with_reducible apply State.setGroup_canonical
    | with_reducible apply State.raise_canonical | with_reducible apply canonical_ite

theorem State.result_canonical (s : State) (a1 : Issuer) (a2 : List (Cell × DWord)) (h0 : s.Canonical) :
    (State.result s a1 a2).Canonical := by
  unfold State.result
  repeat' first
    | with_reducible assumption | with_reducible apply State.advance_canonical

theorem execNop_canonical (a0 : EF) (s : State) (h1 : s.Canonical) :
    outCanonical (execNop a0 s) := by
  unfold execNop
  repeat' first
    | with_reducible assumption | intro _ | with_reducible apply State.issue_canonical | with_reducible apply State.advance_canonical

theorem execExit_canonical (a0 : EF) (s : State) (h1 : s.Canonical) :
    outCanonical (execExit a0 s) := by
  unfold execExit
  repeat' first
    | with_reducible assumption | intro _ | (simp only [canonical_mk]; refine canonical_fold ?_)
    | with_reducible apply State.issue_canonical | with_reducible apply State.settleSlots_canonical
    | with_reducible apply State.setGroup_canonical

theorem execKill_canonical (a0 : EF) (s : State) (h1 : s.Canonical) :
    outCanonical (execKill a0 s) := by
  unfold execKill
  repeat' first
    | with_reducible assumption | intro _ | with_reducible apply State.issue_canonical | with_reducible apply State.retire_canonical

theorem State.softTrap_canonical (s : State) (a1 : Issuer) (a2 : EF) (a3 : Nat) (h0 : s.Canonical) :
    (State.softTrap s a1 a2 a3).Canonical := by
  unfold State.softTrap
  repeat' first
    | with_reducible assumption | (simp only [canonical_mk]; refine canonical_fold ?_) | with_reducible apply State.advance_canonical
    | with_reducible apply State.trap_canonical | with_reducible apply canonical_ite

theorem execTrap_canonical (a0 : EF) (s : State) (h1 : s.Canonical) :
    outCanonical (execTrap a0 s) := by
  unfold execTrap
  repeat' first
    | with_reducible assumption | intro _ | with_reducible apply State.issue_canonical | with_reducible apply State.softTrap_canonical

theorem execBrk_canonical (a0 : EF) (s : State) (h1 : s.Canonical) :
    outCanonical (execBrk a0 s) := by
  unfold execBrk
  repeat' first
    | with_reducible assumption | intro _ | with_reducible apply State.issue_canonical | with_reducible apply State.softTrap_canonical

theorem execEret_canonical (a0 : EF) (s : State) (h1 : s.Canonical) :
    outCanonical (execEret a0 s) := by
  unfold execEret
  repeat' first
    | with_reducible assumption | intro _ | (simp only [canonical_mk]; refine canonical_fold ?_)
    | with_reducible apply State.issue_canonical | with_reducible apply State.raise_canonical
    | with_reducible apply State.setGroup_canonical | with_reducible apply State.checkTarget_canonical
    | with_reducible apply State.checked_canonical | with_reducible apply canonical_ite | split

theorem execSleep_canonical (a0 : EF) (s : State) (h1 : s.Canonical) :
    outCanonical (execSleep a0 s) := by
  unfold execSleep
  repeat' first
    | with_reducible assumption | intro _ | with_reducible apply State.issue_canonical | with_reducible apply State.advance_canonical
    | with_reducible apply State.park_canonical | with_reducible apply canonical_ite | split

theorem execPmark_canonical (a0 : EF) (s : State) (h1 : s.Canonical) :
    outCanonical (execPmark a0 s) := by
  unfold execPmark
  repeat' first
    | with_reducible assumption | intro _ | (simp only [canonical_mk]; refine canonical_fold ?_)
    | with_reducible apply State.issue_canonical | with_reducible apply State.advance_canonical
    | with_reducible apply State.setCore_canonical | with_reducible apply State.storeN_canonical
    | with_reducible apply State.storeBytes_canonical | with_reducible apply canonical_ite

theorem execBra_canonical (a0 : BF) (s : State) (h1 : s.Canonical) :
    outCanonical (execBra a0 s) := by
  unfold execBra
  repeat' first
    | with_reducible assumption | intro _ | (simp only [canonical_mk]; refine canonical_fold ?_)
    | with_reducible apply State.issue_canonical | with_reducible apply State.advance_canonical
    | with_reducible apply State.checkTarget_canonical | with_reducible apply State.checked_canonical
    | with_reducible apply State.jumpTo_canonical | with_reducible apply canonical_ite

theorem State.branchSplit_canonical (s : State) (a1 : Issuer) (a2 : Mask) (a3 : Mask) (a4 : Pc) (a5 : Pc) (a6 : Pc) (a7 : Bool) (h0 : s.Canonical) :
    (State.branchSplit s a1 a2 a3 a4 a5 a6 a7).Canonical := by
  unfold State.branchSplit
  repeat' first
    | with_reducible assumption | (simp only [canonical_mk]; refine canonical_fold ?_) | with_reducible apply State.split_canonical
    | with_reducible apply State.raise_canonical | with_reducible apply State.settleSlots_canonical
    | with_reducible apply State.setGroup_canonical | with_reducible refine canonical_of_somePair (by assumption) ?_ | split

theorem execBrc_canonical (a0 : BF) (s : State) (h1 : s.Canonical) :
    outCanonical (execBrc a0 s) := by
  unfold execBrc
  repeat' first
    | with_reducible assumption | intro _ | (simp only [canonical_mk]; refine canonical_fold ?_)
    | with_reducible apply State.issue_canonical | with_reducible apply State.checkTarget_canonical
    | with_reducible apply State.checked_canonical | with_reducible apply State.branchSplit_canonical
    | with_reducible apply canonical_itePair

theorem State.tableEntry_canonical (s : State) (a1 : Issuer) (a2 : Nat) (a3 : Nat) (h0 : s.Canonical) :
    (State.tableEntry s a1 a2 a3).1.Canonical := by
  unfold State.tableEntry
  repeat' first
    | with_reducible assumption | (simp only [canonical_mk]; refine canonical_fold ?_) | with_reducible apply State.fetchLine_canonical
    | with_reducible refine canonical_of_pair (by assumption) ?_ | with_reducible apply canonical_itePair | split

theorem State.tableTargets_canonical (s : State) (a1 : Issuer) (a2 : Nat) (a3 : Nat) (a4 : List Nat) (h0 : s.Canonical) :
    (State.tableTargets s a1 a2 a3 a4).1.Canonical := by
  fun_induction State.tableTargets s a1 a2 a3 a4 <;>
  repeat' first
    | with_reducible assumption | (simp only [canonical_mk]; refine canonical_fold ?_) | with_reducible apply State.tableEntry_canonical
    | with_reducible apply State.checkTarget_canonical | with_reducible refine canonical_of_pair (by assumption) ?_
    | with_reducible apply_assumption -exfalso -symm

theorem State.tableBranch_canonical (s : State) (a1 : Issuer) (a2 : BF) (a3 : Bool) (h0 : s.Canonical) :
    (State.tableBranch s a1 a2 a3).Canonical := by
  unfold State.tableBranch
  repeat' first
    | with_reducible assumption | intro _ | (simp only [canonical_mk]; refine canonical_fold ?_)
    | with_reducible apply State.raise_canonical | with_reducible apply State.tableTargets_canonical
    | with_reducible apply State.checked_canonical | with_reducible apply State.setGroup_canonical
    | with_reducible apply State.advance_canonical | with_reducible apply State.branchSplit_canonical
    | with_reducible refine canonical_of_pair (by assumption) ?_ | with_reducible apply canonical_id | with_reducible apply canonical_ite
    | split

theorem execBrx_canonical (a0 : BF) (s : State) (h1 : s.Canonical) :
    outCanonical (execBrx a0 s) := by
  unfold execBrx
  repeat' first
    | with_reducible assumption | intro _ | with_reducible apply State.issue_canonical | with_reducible apply State.tableBranch_canonical

theorem execCallx_canonical (a0 : BF) (s : State) (h1 : s.Canonical) :
    outCanonical (execCallx a0 s) := by
  unfold execCallx
  repeat' first
    | with_reducible assumption | intro _ | with_reducible apply State.issue_canonical | with_reducible apply State.tableBranch_canonical

theorem execCall_canonical (a0 : BF) (s : State) (h1 : s.Canonical) :
    outCanonical (execCall a0 s) := by
  unfold execCall
  repeat' first
    | with_reducible assumption | intro _ | (simp only [canonical_mk]; refine canonical_fold ?_)
    | with_reducible apply State.issue_canonical | with_reducible apply State.checkTarget_canonical
    | with_reducible apply State.checked_canonical | with_reducible apply State.raise_canonical
    | with_reducible apply State.setGroup_canonical | with_reducible apply canonical_ite

theorem execRet_canonical (a0 : BF) (s : State) (h1 : s.Canonical) :
    outCanonical (execRet a0 s) := by
  unfold execRet
  repeat' first
    | with_reducible assumption | intro _ | (simp only [canonical_mk]; refine canonical_fold ?_)
    | with_reducible apply State.issue_canonical | with_reducible apply State.raise_canonical
    | with_reducible apply State.checkTarget_canonical | with_reducible apply State.checked_canonical
    | with_reducible apply State.setGroup_canonical | split

theorem execLoops_canonical (a0 : BF) (s : State) (h1 : s.Canonical) :
    outCanonical (execLoops a0 s) := by
  unfold execLoops
  repeat' first
    | with_reducible assumption | intro _ | (simp only [canonical_mk]; refine canonical_fold ?_)
    | with_reducible apply State.issue_canonical | with_reducible apply State.advance_canonical
    | with_reducible apply State.checkTarget_canonical | with_reducible apply State.checked_canonical
    | with_reducible apply State.jumpTo_canonical | with_reducible apply canonical_ite

theorem execElect_canonical (a0 : VR) (s : State) (h1 : s.Canonical) :
    outCanonical (execElect a0 s) := by
  unfold execElect
  repeat' first
    | with_reducible assumption | intro _ | (simp only [canonical_mk]; refine canonical_fold ?_)
    | with_reducible apply State.issue_canonical | with_reducible apply State.result_canonical

theorem execVoteOr_canonical (a0 : VR) (s : State) (h1 : s.Canonical) :
    outCanonical (execVoteOr a0 s) := by
  unfold execVoteOr
  repeat' first
    | with_reducible assumption | intro _ | (simp only [canonical_mk]; refine canonical_fold ?_)
    | with_reducible apply State.issue_canonical | with_reducible apply State.result_canonical

theorem execVoteAnd_canonical (a0 : VR) (s : State) (h1 : s.Canonical) :
    outCanonical (execVoteAnd a0 s) := by
  unfold execVoteAnd
  repeat' first
    | with_reducible assumption | intro _ | (simp only [canonical_mk]; refine canonical_fold ?_)
    | with_reducible apply State.issue_canonical | with_reducible apply State.result_canonical

theorem execVoteMask_canonical (a0 : VR) (s : State) (h1 : s.Canonical) :
    outCanonical (execVoteMask a0 s) := by
  unfold execVoteMask
  repeat' first
    | with_reducible assumption | intro _ | (simp only [canonical_mk]; refine canonical_fold ?_)
    | with_reducible apply State.issue_canonical | with_reducible apply State.result_canonical

theorem execVoteSame_canonical (a0 : VR) (s : State) (h1 : s.Canonical) :
    outCanonical (execVoteSame a0 s) := by
  unfold execVoteSame
  repeat' first
    | with_reducible assumption | intro _ | (simp only [canonical_mk]; refine canonical_fold ?_)
    | with_reducible apply State.issue_canonical | with_reducible apply State.result_canonical

theorem execVoteRank_canonical (a0 : VR) (s : State) (h1 : s.Canonical) :
    outCanonical (execVoteRank a0 s) := by
  unfold execVoteRank
  repeat' first
    | with_reducible assumption | intro _ | (simp only [canonical_mk]; refine canonical_fold ?_)
    | with_reducible apply State.issue_canonical | with_reducible apply State.result_canonical

theorem execRdsrV_canonical (a0 : EF) (s : State) (h1 : s.Canonical) :
    outCanonical (execRdsrV a0 s) := by
  unfold execRdsrV
  repeat' first
    | with_reducible assumption | intro _ | (simp only [canonical_mk]; refine canonical_fold ?_)
    | with_reducible apply State.issue_canonical | with_reducible apply State.result_canonical

theorem execRdsrS_canonical (a0 : EF) (s : State) (h1 : s.Canonical) :
    outCanonical (execRdsrS a0 s) := by
  unfold execRdsrS
  repeat' first
    | with_reducible assumption | intro _ | with_reducible apply State.issue_canonical | with_reducible apply State.result_canonical

theorem execWrsr_canonical (a0 : EF) (s : State) (h1 : s.Canonical) :
    outCanonical (execWrsr a0 s) := by
  unfold execWrsr
  repeat' first
    | with_reducible assumption | intro _ | (simp only [canonical_mk]; refine canonical_fold ?_)
    | with_reducible apply State.issue_canonical | with_reducible apply State.setFmt_canonical
    | with_reducible apply State.raise_canonical | with_reducible apply State.advance_canonical | with_reducible apply canonical_ite

theorem execFmtset_canonical (a0 : EF) (s : State) (h1 : s.Canonical) :
    outCanonical (execFmtset a0 s) := by
  unfold execFmtset
  repeat' first
    | with_reducible assumption | intro _ | with_reducible apply State.issue_canonical | with_reducible apply State.setFmt_canonical

theorem execFmtget_canonical (a0 : EF) (s : State) (h1 : s.Canonical) :
    outCanonical (execFmtget a0 s) := by
  unfold execFmtget
  repeat' first
    | with_reducible assumption | intro _ | with_reducible apply State.issue_canonical | with_reducible apply State.result_canonical

theorem execYield_canonical (a0 : EF) (s : State) (h1 : s.Canonical) :
    outCanonical (execYield a0 s) := by
  unfold execYield
  repeat' first
    | with_reducible assumption | intro _ | (simp only [canonical_mk]; refine canonical_fold ?_)
    | with_reducible apply State.issue_canonical | with_reducible apply State.setGroup_canonical

theorem State.wake_canonical (s : State) (a1 : Issuer) (h0 : s.Canonical) :
    (State.wake s a1).Canonical := by
  unfold State.wake
  repeat' first
    | with_reducible assumption | (simp only [canonical_mk]; refine canonical_fold ?_) | with_reducible apply State.setGroup_canonical
    | split

theorem execSleepWake_canonical (s : State) (h0 : s.Canonical) :
    outCanonical (execSleepWake s) := by
  unfold execSleepWake
  repeat' first
    | with_reducible assumption | intro _ | with_reducible apply whenDue_canonical | with_reducible apply State.wake_canonical
    | with_reducible apply optCanonical_none | with_reducible apply optCanonical_some | with_reducible apply optCanonical_ite
    | with_reducible apply optCanonical_bind | split

theorem execSpillMoveDone_canonical (s : State) (h0 : s.Canonical) :
    outCanonical (execSpillMoveDone s) := by
  unfold execSpillMoveDone
  repeat' first
    | with_reducible assumption | intro _ | with_reducible apply whenDue_canonical | with_reducible apply State.setGroup_canonical
    | with_reducible apply State.trimSpill_canonical | with_reducible apply State.settleSlots_canonical
    | with_reducible apply optCanonical_none | with_reducible apply optCanonical_some | with_reducible apply optCanonical_ite
    | with_reducible apply optCanonical_bind | split

theorem State.discardLine_canonical (s : State) (a1 : Group) (a2 : Nat) (h0 : s.Canonical) :
    (State.discardLine s a1 a2).Canonical := by
  unfold State.discardLine
  repeat' first
    | with_reducible assumption | intro _ | (simp only [canonical_mk]; refine canonical_fold ?_)
    | with_reducible apply State.resolve_canonical | with_reducible apply State.evictL1_canonical
    | with_reducible refine canonical_of_pair (by assumption) ?_ | with_reducible apply canonical_foldl | split

theorem execLineRefetch_canonical (s : State) (h0 : s.Canonical) :
    outCanonical (execLineRefetch s) := by
  unfold execLineRefetch
  repeat' first
    | with_reducible assumption | intro _ | (simp only [canonical_mk]; refine canonical_fold ?_) | with_reducible apply whenDue_canonical
    | with_reducible apply State.discardLine_canonical | with_reducible apply State.setGroup_canonical
    | with_reducible apply optCanonical_some | with_reducible apply optCanonical_bind

theorem State.write_canonical (s : State) (a1 : Issuer) (a2 : List (Cell × DWord)) (h0 : s.Canonical) :
    (State.write s a1 a2).Canonical := by
  unfold State.write
  repeat' first
    | with_reducible assumption | with_reducible apply State.advance_canonical

theorem State.vr_canonical (s : State) (a1 : VR) (a2 : Nat) (a3 : Issuer → Nat → Nat) (h0 : s.Canonical) :
    outCanonical (State.vr s a1 a2 a3) := by
  unfold State.vr
  repeat' first
    | with_reducible assumption | intro _ | with_reducible apply State.issue_canonical | with_reducible apply State.write_canonical

theorem State.vi_canonical (s : State) (a1 : VI) (a2 : Nat) (a3 : Issuer → Nat → Nat) (h0 : s.Canonical) :
    outCanonical (State.vi s a1 a2 a3) := by
  unfold State.vi
  repeat' first
    | with_reducible assumption | intro _ | with_reducible apply State.issue_canonical | with_reducible apply State.write_canonical

theorem State.uni_canonical (s : State) (a1 : SR) (a2 : Issuer → List (Cell × DWord)) (h0 : s.Canonical) :
    outCanonical (State.uni s a1 a2) := by
  unfold State.uni
  repeat' first
    | with_reducible assumption | intro _ | with_reducible apply State.issue_canonical | with_reducible apply State.write_canonical
    | with_reducible apply State.advance_canonical | with_reducible apply canonical_ite

theorem State.writeConds_canonical (s : State) (a1 : Issuer) (a2 : Mask) (a3 : Nat) (a4 : Nat) (a5 : Nat) (a6 : Conds) (a7 : Nat → Nat × Conds) (h0 : s.Canonical) :
    (State.writeConds s a1 a2 a3 a4 a5 a6 a7).Canonical := by
  unfold State.writeConds
  repeat' first
    | with_reducible assumption | (simp only [canonical_mk]; refine canonical_fold ?_) | with_reducible apply State.write_canonical

theorem State.fvr_canonical (s : State) (a1 : VR) (a2 : FOp) (a3 : Conds) (h0 : s.Canonical) :
    outCanonical (State.fvr s a1 a2 a3) := by
  unfold State.fvr
  repeat' first
    | with_reducible assumption | intro _ | (simp only [canonical_mk]; refine canonical_fold ?_)
    | with_reducible apply State.issue_canonical | with_reducible apply State.writeConds_canonical

theorem State.fvi_canonical (s : State) (a1 : VI) (a2 : FOp) (h0 : s.Canonical) :
    outCanonical (State.fvi s a1 a2) := by
  unfold State.fvi
  repeat' first
    | with_reducible assumption | intro _ | (simp only [canonical_mk]; refine canonical_fold ?_)
    | with_reducible apply State.issue_canonical | with_reducible apply State.writeConds_canonical

theorem execFadd_canonical (a0 : VR) (s : State) (h1 : s.Canonical) :
    outCanonical (execFadd a0 s) := by
  unfold execFadd
  repeat' first
    | with_reducible assumption | with_reducible apply State.fvr_canonical

theorem execFaddImm_canonical (a0 : VI) (s : State) (h1 : s.Canonical) :
    outCanonical (execFaddImm a0 s) := by
  unfold execFaddImm
  repeat' first
    | with_reducible assumption | with_reducible apply State.fvi_canonical

theorem execFsub_canonical (a0 : VR) (s : State) (h1 : s.Canonical) :
    outCanonical (execFsub a0 s) := by
  unfold execFsub
  repeat' first
    | with_reducible assumption | with_reducible apply State.fvr_canonical

theorem execFsubImm_canonical (a0 : VI) (s : State) (h1 : s.Canonical) :
    outCanonical (execFsubImm a0 s) := by
  unfold execFsubImm
  repeat' first
    | with_reducible assumption | with_reducible apply State.fvi_canonical

theorem execFmul_canonical (a0 : VR) (s : State) (h1 : s.Canonical) :
    outCanonical (execFmul a0 s) := by
  unfold execFmul
  repeat' first
    | with_reducible assumption | with_reducible apply State.fvr_canonical

theorem execFmulImm_canonical (a0 : VI) (s : State) (h1 : s.Canonical) :
    outCanonical (execFmulImm a0 s) := by
  unfold execFmulImm
  repeat' first
    | with_reducible assumption | with_reducible apply State.fvi_canonical

theorem execFdiv_canonical (a0 : VR) (s : State) (h1 : s.Canonical) :
    outCanonical (execFdiv a0 s) := by
  unfold execFdiv
  repeat' first
    | with_reducible assumption | with_reducible apply State.fvr_canonical

theorem execFfma_canonical (a0 : VR) (s : State) (h1 : s.Canonical) :
    outCanonical (execFfma a0 s) := by
  unfold execFfma
  repeat' first
    | with_reducible assumption | intro _ | (simp only [canonical_mk]; refine canonical_fold ?_)
    | with_reducible apply State.issue_canonical | with_reducible apply State.writeConds_canonical

theorem execFdot2_canonical (a0 : VR) (s : State) (h1 : s.Canonical) :
    outCanonical (execFdot2 a0 s) := by
  unfold execFdot2
  repeat' first
    | with_reducible assumption | intro _ | (simp only [canonical_mk]; refine canonical_fold ?_)
    | with_reducible apply State.issue_canonical | with_reducible apply State.writeConds_canonical

theorem execFsqrt_canonical (a0 : VR) (s : State) (h1 : s.Canonical) :
    outCanonical (execFsqrt a0 s) := by
  unfold execFsqrt
  repeat' first
    | with_reducible assumption | intro _ | (simp only [canonical_mk]; refine canonical_fold ?_)
    | with_reducible apply State.issue_canonical | with_reducible apply State.writeConds_canonical

theorem execFscale_canonical (a0 : VR) (s : State) (h1 : s.Canonical) :
    outCanonical (execFscale a0 s) := by
  unfold execFscale
  repeat' first
    | with_reducible assumption | intro _ | (simp only [canonical_mk]; refine canonical_fold ?_)
    | with_reducible apply State.issue_canonical | with_reducible apply State.writeConds_canonical

theorem execFrnd_canonical (a0 : VR) (s : State) (h1 : s.Canonical) :
    outCanonical (execFrnd a0 s) := by
  unfold execFrnd
  repeat' first
    | with_reducible assumption | intro _ | (simp only [canonical_mk]; refine canonical_fold ?_)
    | with_reducible apply State.issue_canonical | with_reducible apply State.writeConds_canonical

theorem State.fpick_canonical (s : State) (a1 : VR) (a2 : Bool) (h0 : s.Canonical) :
    outCanonical (State.fpick s a1 a2) := by
  unfold State.fpick
  repeat' first
    | with_reducible assumption | intro _ | (simp only [canonical_mk]; refine canonical_fold ?_)
    | with_reducible apply State.issue_canonical | with_reducible apply State.writeConds_canonical

theorem State.fpickImm_canonical (s : State) (a1 : VI) (a2 : Bool) (h0 : s.Canonical) :
    outCanonical (State.fpickImm s a1 a2) := by
  unfold State.fpickImm
  repeat' first
    | with_reducible assumption | intro _ | (simp only [canonical_mk]; refine canonical_fold ?_)
    | with_reducible apply State.issue_canonical | with_reducible apply State.writeConds_canonical

theorem execFmin_canonical (a0 : VR) (s : State) (h1 : s.Canonical) :
    outCanonical (execFmin a0 s) := by
  unfold execFmin
  repeat' first
    | with_reducible assumption | with_reducible apply State.fpick_canonical

theorem execFminImm_canonical (a0 : VI) (s : State) (h1 : s.Canonical) :
    outCanonical (execFminImm a0 s) := by
  unfold execFminImm
  repeat' first
    | with_reducible assumption | with_reducible apply State.fpickImm_canonical

theorem execFmax_canonical (a0 : VR) (s : State) (h1 : s.Canonical) :
    outCanonical (execFmax a0 s) := by
  unfold execFmax
  repeat' first
    | with_reducible assumption | with_reducible apply State.fpick_canonical

theorem execFmaxImm_canonical (a0 : VI) (s : State) (h1 : s.Canonical) :
    outCanonical (execFmaxImm a0 s) := by
  unfold execFmaxImm
  repeat' first
    | with_reducible assumption | with_reducible apply State.fpickImm_canonical

theorem execFcmp_canonical (a0 : VR) (s : State) (h1 : s.Canonical) :
    outCanonical (execFcmp a0 s) := by
  unfold execFcmp
  repeat' first
    | with_reducible assumption | intro _ | with_reducible apply State.issue_canonical | with_reducible apply State.write_canonical

theorem execFclass_canonical (a0 : VR) (s : State) (h1 : s.Canonical) :
    outCanonical (execFclass a0 s) := by
  unfold execFclass
  repeat' first
    | with_reducible assumption | with_reducible apply State.vr_canonical

theorem State.vrInt_canonical (s : State) (a1 : VR) (a2 : Int → Int → Int) (h0 : s.Canonical) :
    outCanonical (State.vrInt s a1 a2) := by
  unfold State.vrInt
  repeat' first
    | with_reducible assumption | with_reducible apply State.vr_canonical

theorem State.viInt_canonical (s : State) (a1 : VI) (a2 : Int → Int → Int) (h0 : s.Canonical) :
    outCanonical (State.viInt s a1 a2) := by
  unfold State.viInt
  repeat' first
    | with_reducible assumption | with_reducible apply State.vi_canonical

theorem State.vrShift_canonical (s : State) (a1 : VR) (a2 : Nat → Nat → Nat → Int) (h0 : s.Canonical) :
    outCanonical (State.vrShift s a1 a2) := by
  unfold State.vrShift
  repeat' first
    | with_reducible assumption | with_reducible apply State.vr_canonical

theorem State.viShift_canonical (s : State) (a1 : VI) (a2 : Nat → Nat → Nat → Int) (h0 : s.Canonical) :
    outCanonical (State.viShift s a1 a2) := by
  unfold State.viShift
  repeat' first
    | with_reducible assumption | with_reducible apply State.vi_canonical

theorem State.vrBits_canonical (s : State) (a1 : VR) (a2 : Nat → Nat → Nat) (h0 : s.Canonical) :
    outCanonical (State.vrBits s a1 a2) := by
  unfold State.vrBits
  repeat' first
    | with_reducible assumption | with_reducible apply State.vr_canonical

theorem State.viBits_canonical (s : State) (a1 : VI) (a2 : Nat → Nat → Nat) (h0 : s.Canonical) :
    outCanonical (State.viBits s a1 a2) := by
  unfold State.viBits
  repeat' first
    | with_reducible assumption | with_reducible apply State.vi_canonical

theorem execIadd_canonical (a0 : VR) (s : State) (h1 : s.Canonical) :
    outCanonical (execIadd a0 s) := by
  unfold execIadd
  repeat' first
    | with_reducible assumption | with_reducible apply State.vrInt_canonical

theorem execIaddImm_canonical (a0 : VI) (s : State) (h1 : s.Canonical) :
    outCanonical (execIaddImm a0 s) := by
  unfold execIaddImm
  repeat' first
    | with_reducible assumption | with_reducible apply State.viInt_canonical

theorem execIsub_canonical (a0 : VR) (s : State) (h1 : s.Canonical) :
    outCanonical (execIsub a0 s) := by
  unfold execIsub
  repeat' first
    | with_reducible assumption | with_reducible apply State.vrInt_canonical

theorem execIsubImm_canonical (a0 : VI) (s : State) (h1 : s.Canonical) :
    outCanonical (execIsubImm a0 s) := by
  unfold execIsubImm
  repeat' first
    | with_reducible assumption | with_reducible apply State.viInt_canonical

theorem execImul_canonical (a0 : VR) (s : State) (h1 : s.Canonical) :
    outCanonical (execImul a0 s) := by
  unfold execImul
  repeat' first
    | with_reducible assumption | with_reducible apply State.vrInt_canonical

theorem execImulImm_canonical (a0 : VI) (s : State) (h1 : s.Canonical) :
    outCanonical (execImulImm a0 s) := by
  unfold execImulImm
  repeat' first
    | with_reducible assumption | with_reducible apply State.viInt_canonical

theorem execImulh_canonical (a0 : VR) (s : State) (h1 : s.Canonical) :
    outCanonical (execImulh a0 s) := by
  unfold execImulh
  repeat' first
    | with_reducible assumption | with_reducible apply State.vrInt_canonical

theorem execImin_canonical (a0 : VR) (s : State) (h1 : s.Canonical) :
    outCanonical (execImin a0 s) := by
  unfold execImin
  repeat' first
    | with_reducible assumption | with_reducible apply State.vrInt_canonical

theorem execIminImm_canonical (a0 : VI) (s : State) (h1 : s.Canonical) :
    outCanonical (execIminImm a0 s) := by
  unfold execIminImm
  repeat' first
    | with_reducible assumption | with_reducible apply State.viInt_canonical

theorem execImax_canonical (a0 : VR) (s : State) (h1 : s.Canonical) :
    outCanonical (execImax a0 s) := by
  unfold execImax
  repeat' first
    | with_reducible assumption | with_reducible apply State.vrInt_canonical

theorem execImaxImm_canonical (a0 : VI) (s : State) (h1 : s.Canonical) :
    outCanonical (execImaxImm a0 s) := by
  unfold execImaxImm
  repeat' first
    | with_reducible assumption | with_reducible apply State.viInt_canonical

theorem execImad_canonical (a0 : VR) (s : State) (h1 : s.Canonical) :
    outCanonical (execImad a0 s) := by
  unfold execImad
  repeat' first
    | with_reducible assumption | with_reducible apply State.vr_canonical

theorem execIabs_canonical (a0 : VR) (s : State) (h1 : s.Canonical) :
    outCanonical (execIabs a0 s) := by
  unfold execIabs
  repeat' first
    | with_reducible assumption | with_reducible apply State.vr_canonical

theorem execImadw_canonical (a0 : VR) (s : State) (h1 : s.Canonical) :
    outCanonical (execImadw a0 s) := by
  unfold execImadw
  repeat' first
    | with_reducible assumption | with_reducible apply State.vr_canonical

theorem execIaddc_canonical (a0 : VR) (s : State) (h1 : s.Canonical) :
    outCanonical (execIaddc a0 s) := by
  unfold execIaddc
  repeat' first
    | with_reducible assumption | intro _ | (simp only [canonical_mk]; refine canonical_fold ?_)
    | with_reducible apply State.issue_canonical | with_reducible apply State.write_canonical

theorem execIshl_canonical (a0 : VR) (s : State) (h1 : s.Canonical) :
    outCanonical (execIshl a0 s) := by
  unfold execIshl
  repeat' first
    | with_reducible assumption | with_reducible apply State.vrShift_canonical

theorem execIshlImm_canonical (a0 : VI) (s : State) (h1 : s.Canonical) :
    outCanonical (execIshlImm a0 s) := by
  unfold execIshlImm
  repeat' first
    | with_reducible assumption | with_reducible apply State.viShift_canonical

theorem execIshr_canonical (a0 : VR) (s : State) (h1 : s.Canonical) :
    outCanonical (execIshr a0 s) := by
  unfold execIshr
  repeat' first
    | with_reducible assumption | with_reducible apply State.vrShift_canonical

theorem execIshrImm_canonical (a0 : VI) (s : State) (h1 : s.Canonical) :
    outCanonical (execIshrImm a0 s) := by
  unfold execIshrImm
  repeat' first
    | with_reducible assumption | with_reducible apply State.viShift_canonical

theorem execIsra_canonical (a0 : VR) (s : State) (h1 : s.Canonical) :
    outCanonical (execIsra a0 s) := by
  unfold execIsra
  repeat' first
    | with_reducible assumption | with_reducible apply State.vrShift_canonical

theorem execIsraImm_canonical (a0 : VI) (s : State) (h1 : s.Canonical) :
    outCanonical (execIsraImm a0 s) := by
  unfold execIsraImm
  repeat' first
    | with_reducible assumption | with_reducible apply State.viShift_canonical

theorem execIshf_canonical (a0 : VR) (s : State) (h1 : s.Canonical) :
    outCanonical (execIshf a0 s) := by
  unfold execIshf
  repeat' first
    | with_reducible assumption | with_reducible apply State.vr_canonical

theorem execIand_canonical (a0 : VR) (s : State) (h1 : s.Canonical) :
    outCanonical (execIand a0 s) := by
  unfold execIand
  repeat' first
    | with_reducible assumption | with_reducible apply State.vrBits_canonical

theorem execIandImm_canonical (a0 : VI) (s : State) (h1 : s.Canonical) :
    outCanonical (execIandImm a0 s) := by
  unfold execIandImm
  repeat' first
    | with_reducible assumption | with_reducible apply State.viBits_canonical

theorem execIor_canonical (a0 : VR) (s : State) (h1 : s.Canonical) :
    outCanonical (execIor a0 s) := by
  unfold execIor
  repeat' first
    | with_reducible assumption | with_reducible apply State.vrBits_canonical

theorem execIorImm_canonical (a0 : VI) (s : State) (h1 : s.Canonical) :
    outCanonical (execIorImm a0 s) := by
  unfold execIorImm
  repeat' first
    | with_reducible assumption | with_reducible apply State.viBits_canonical

theorem execIxor_canonical (a0 : VR) (s : State) (h1 : s.Canonical) :
    outCanonical (execIxor a0 s) := by
  unfold execIxor
  repeat' first
    | with_reducible assumption | with_reducible apply State.vrBits_canonical

theorem execIxorImm_canonical (a0 : VI) (s : State) (h1 : s.Canonical) :
    outCanonical (execIxorImm a0 s) := by
  unfold execIxorImm
  repeat' first
    | with_reducible assumption | with_reducible apply State.viBits_canonical

theorem execIlop3_canonical (a0 : VR) (s : State) (h1 : s.Canonical) :
    outCanonical (execIlop3 a0 s) := by
  unfold execIlop3
  repeat' first
    | with_reducible assumption | with_reducible apply State.vr_canonical

theorem execIpopc_canonical (a0 : VR) (s : State) (h1 : s.Canonical) :
    outCanonical (execIpopc a0 s) := by
  unfold execIpopc
  repeat' first
    | with_reducible assumption | with_reducible apply State.vr_canonical

theorem execIclz_canonical (a0 : VR) (s : State) (h1 : s.Canonical) :
    outCanonical (execIclz a0 s) := by
  unfold execIclz
  repeat' first
    | with_reducible assumption | with_reducible apply State.vr_canonical

theorem execIbrev_canonical (a0 : VR) (s : State) (h1 : s.Canonical) :
    outCanonical (execIbrev a0 s) := by
  unfold execIbrev
  repeat' first
    | with_reducible assumption | with_reducible apply State.vr_canonical

theorem execIcmp_canonical (a0 : VR) (s : State) (h1 : s.Canonical) :
    outCanonical (execIcmp a0 s) := by
  unfold execIcmp
  repeat' first
    | with_reducible assumption | intro _ | (simp only [canonical_mk]; refine canonical_fold ?_)
    | with_reducible apply State.issue_canonical | with_reducible apply State.write_canonical

theorem execIsel_canonical (a0 : VR) (s : State) (h1 : s.Canonical) :
    outCanonical (execIsel a0 s) := by
  unfold execIsel
  repeat' first
    | with_reducible assumption | with_reducible apply State.vr_canonical

theorem execIbfx_canonical (a0 : VR) (s : State) (h1 : s.Canonical) :
    outCanonical (execIbfx a0 s) := by
  unfold execIbfx
  repeat' first
    | with_reducible assumption | with_reducible apply State.vr_canonical

theorem execIbfi_canonical (a0 : VR) (s : State) (h1 : s.Canonical) :
    outCanonical (execIbfi a0 s) := by
  unfold execIbfi
  repeat' first
    | with_reducible assumption | with_reducible apply State.vr_canonical

theorem execIdot4_canonical (a0 : VR) (s : State) (h1 : s.Canonical) :
    outCanonical (execIdot4 a0 s) := by
  unfold execIdot4
  repeat' first
    | with_reducible assumption | with_reducible apply State.vr_canonical

theorem execPrmt_canonical (a0 : VR) (s : State) (h1 : s.Canonical) :
    outCanonical (execPrmt a0 s) := by
  unfold execPrmt
  repeat' first
    | with_reducible assumption | with_reducible apply State.vr_canonical

theorem execMov_canonical (a0 : VR) (s : State) (h1 : s.Canonical) :
    outCanonical (execMov a0 s) := by
  unfold execMov
  repeat' first
    | with_reducible assumption | with_reducible apply State.vr_canonical

theorem execMovs_canonical (a0 : VR) (s : State) (h1 : s.Canonical) :
    outCanonical (execMovs a0 s) := by
  unfold execMovs
  repeat' first
    | with_reducible assumption | with_reducible apply State.vr_canonical

theorem execMovi_canonical (a0 : VI) (s : State) (h1 : s.Canonical) :
    outCanonical (execMovi a0 s) := by
  unfold execMovi
  repeat' first
    | with_reducible assumption | with_reducible apply State.vi_canonical

theorem execLea_canonical (a0 : VR) (s : State) (h1 : s.Canonical) :
    outCanonical (execLea a0 s) := by
  unfold execLea
  repeat' first
    | with_reducible assumption | with_reducible apply State.vr_canonical

theorem execCvt_canonical (a0 : VR) (s : State) (h1 : s.Canonical) :
    outCanonical (execCvt a0 s) := by
  unfold execCvt
  repeat' first
    | with_reducible assumption | intro _ | (simp only [canonical_mk]; refine canonical_fold ?_)
    | with_reducible apply State.issue_canonical | with_reducible apply State.writeConds_canonical

theorem execCvtp_canonical (a0 : VR) (s : State) (h1 : s.Canonical) :
    outCanonical (execCvtp a0 s) := by
  unfold execCvtp
  repeat' first
    | with_reducible assumption | intro _ | (simp only [canonical_mk]; refine canonical_fold ?_)
    | with_reducible apply State.issue_canonical | with_reducible apply State.writeConds_canonical

theorem execCvtb_canonical (a0 : VR) (s : State) (h1 : s.Canonical) :
    outCanonical (execCvtb a0 s) := by
  unfold execCvtb
  repeat' first
    | with_reducible assumption | intro _ | (simp only [canonical_mk]; refine canonical_fold ?_)
    | with_reducible apply State.issue_canonical | with_reducible apply State.writeConds_canonical

theorem execCvtx_canonical (a0 : VR) (s : State) (h1 : s.Canonical) :
    outCanonical (execCvtx a0 s) := by
  unfold execCvtx
  repeat' first
    | with_reducible assumption | intro _ | with_reducible apply State.issue_canonical | with_reducible apply State.writeConds_canonical

theorem State.approx_canonical (s : State) (a1 : VR) (a2 : Approx) (a3 : Conds) (h0 : s.Canonical) :
    outCanonical (State.approx s a1 a2 a3) := by
  unfold State.approx
  repeat' first
    | with_reducible assumption | intro _ | (simp only [canonical_mk]; refine canonical_fold ?_)
    | with_reducible apply State.issue_canonical | with_reducible apply State.writeConds_canonical

theorem execFrcp_canonical (a0 : VR) (s : State) (h1 : s.Canonical) :
    outCanonical (execFrcp a0 s) := by
  unfold execFrcp
  repeat' first
    | with_reducible assumption | with_reducible apply State.approx_canonical

theorem execFrsq_canonical (a0 : VR) (s : State) (h1 : s.Canonical) :
    outCanonical (execFrsq a0 s) := by
  unfold execFrsq
  repeat' first
    | with_reducible assumption | with_reducible apply State.approx_canonical

theorem execFexp2_canonical (a0 : VR) (s : State) (h1 : s.Canonical) :
    outCanonical (execFexp2 a0 s) := by
  unfold execFexp2
  repeat' first
    | with_reducible assumption | with_reducible apply State.approx_canonical

theorem execFlog2_canonical (a0 : VR) (s : State) (h1 : s.Canonical) :
    outCanonical (execFlog2 a0 s) := by
  unfold execFlog2
  repeat' first
    | with_reducible assumption | with_reducible apply State.approx_canonical

theorem execFsin_canonical (a0 : VR) (s : State) (h1 : s.Canonical) :
    outCanonical (execFsin a0 s) := by
  unfold execFsin
  repeat' first
    | with_reducible assumption | with_reducible apply State.approx_canonical

theorem execFcos_canonical (a0 : VR) (s : State) (h1 : s.Canonical) :
    outCanonical (execFcos a0 s) := by
  unfold execFcos
  repeat' first
    | with_reducible assumption | with_reducible apply State.approx_canonical

theorem execFtanh_canonical (a0 : VR) (s : State) (h1 : s.Canonical) :
    outCanonical (execFtanh a0 s) := by
  unfold execFtanh
  repeat' first
    | with_reducible assumption | with_reducible apply State.approx_canonical

theorem execRdlane_canonical (a0 : VR) (s : State) (h1 : s.Canonical) :
    outCanonical (execRdlane a0 s) := by
  unfold execRdlane
  repeat' first
    | with_reducible assumption | intro _ | (simp only [canonical_mk]; refine canonical_fold ?_)
    | with_reducible apply State.issue_canonical | with_reducible apply State.write_canonical

theorem State.shfl_canonical (s : State) (a1 : VR) (a2 : Nat) (h0 : s.Canonical) :
    outCanonical (State.shfl s a1 a2) := by
  unfold State.shfl
  repeat' first
    | with_reducible assumption | intro _ | (simp only [canonical_mk]; refine canonical_fold ?_)
    | with_reducible apply State.issue_canonical | with_reducible apply State.write_canonical

theorem execShflIdx_canonical (a0 : VR) (s : State) (h1 : s.Canonical) :
    outCanonical (execShflIdx a0 s) := by
  unfold execShflIdx
  repeat' first
    | with_reducible assumption | with_reducible apply State.shfl_canonical

theorem execShflRot_canonical (a0 : VR) (s : State) (h1 : s.Canonical) :
    outCanonical (execShflRot a0 s) := by
  unfold execShflRot
  repeat' first
    | with_reducible assumption | with_reducible apply State.shfl_canonical

theorem execShflShift_canonical (a0 : VR) (s : State) (h1 : s.Canonical) :
    outCanonical (execShflShift a0 s) := by
  unfold execShflShift
  repeat' first
    | with_reducible assumption | with_reducible apply State.shfl_canonical

theorem execShflXor_canonical (a0 : VR) (s : State) (h1 : s.Canonical) :
    outCanonical (execShflXor a0 s) := by
  unfold execShflXor
  repeat' first
    | with_reducible assumption | with_reducible apply State.shfl_canonical

theorem State.xchDone_canonical (s : State) (a1 : Group) (a2 : SlotName) (a3 : VR) (a4 : List Nat) (a5 : Option (List Nat)) (h0 : s.Canonical) :
    (State.xchDone s a1 a2 a3 a4 a5).Canonical := by
  unfold State.xchDone
  repeat' first
    | with_reducible assumption | with_reducible apply State.advance_canonical

theorem execXch_canonical (a0 : VR) (s : State) (h1 : s.Canonical) :
    outCanonical (execXch a0 s) := by
  unfold execXch
  repeat' first
    | with_reducible assumption | intro _ | (simp only [canonical_mk]; refine canonical_fold ?_)
    | with_reducible apply State.issue_canonical | with_reducible apply State.xchDone_canonical
    | with_reducible apply State.raise_canonical | with_reducible apply State.settleSlots_canonical
    | with_reducible apply State.park_canonical | with_reducible apply canonical_ite | split

theorem execXchTimeout_canonical (s : State) (h0 : s.Canonical) :
    outCanonical (execXchTimeout s) := by
  unfold execXchTimeout
  repeat' first
    | with_reducible assumption | intro _ | with_reducible apply whenDue_canonical | with_reducible apply State.wake_canonical
    | with_reducible apply optCanonical_none | with_reducible apply optCanonical_some | with_reducible apply optCanonical_ite
    | with_reducible apply optCanonical_bind | split

theorem State.uniInt_canonical (s : State) (a1 : SR) (a2 : Bool) (a3 : Int → Int → Int) (h0 : s.Canonical) :
    outCanonical (State.uniInt s a1 a2 a3) := by
  unfold State.uniInt
  repeat' first
    | with_reducible assumption | with_reducible apply State.uni_canonical

theorem State.uniBits_canonical (s : State) (a1 : SR) (a2 : Bool) (a3 : Nat → Nat → Nat) (h0 : s.Canonical) :
    outCanonical (State.uniBits s a1 a2 a3) := by
  unfold State.uniBits
  repeat' first
    | with_reducible assumption | with_reducible apply State.uni_canonical

theorem State.uniShift_canonical (s : State) (a1 : SR) (a2 : Bool) (a3 : Nat → Nat → Nat → Int) (h0 : s.Canonical) :
    outCanonical (State.uniShift s a1 a2 a3) := by
  unfold State.uniShift
  repeat' first
    | with_reducible assumption | with_reducible apply State.uni_canonical

theorem execSadd_canonical (a0 : SR) (s : State) (h1 : s.Canonical) :
    outCanonical (execSadd a0 s) := by
  unfold execSadd
  repeat' first
    | with_reducible assumption | with_reducible apply State.uniInt_canonical

theorem execSaddImm_canonical (a0 : SR) (s : State) (h1 : s.Canonical) :
    outCanonical (execSaddImm a0 s) := by
  unfold execSaddImm
  repeat' first
    | with_reducible assumption | with_reducible apply State.uniInt_canonical

theorem execSsub_canonical (a0 : SR) (s : State) (h1 : s.Canonical) :
    outCanonical (execSsub a0 s) := by
  unfold execSsub
  repeat' first
    | with_reducible assumption | with_reducible apply State.uniInt_canonical

theorem execSsubImm_canonical (a0 : SR) (s : State) (h1 : s.Canonical) :
    outCanonical (execSsubImm a0 s) := by
  unfold execSsubImm
  repeat' first
    | with_reducible assumption | with_reducible apply State.uniInt_canonical

theorem execSmul_canonical (a0 : SR) (s : State) (h1 : s.Canonical) :
    outCanonical (execSmul a0 s) := by
  unfold execSmul
  repeat' first
    | with_reducible assumption | with_reducible apply State.uniInt_canonical

theorem execSmulImm_canonical (a0 : SR) (s : State) (h1 : s.Canonical) :
    outCanonical (execSmulImm a0 s) := by
  unfold execSmulImm
  repeat' first
    | with_reducible assumption | with_reducible apply State.uniInt_canonical

theorem execSmulh_canonical (a0 : SR) (s : State) (h1 : s.Canonical) :
    outCanonical (execSmulh a0 s) := by
  unfold execSmulh
  repeat' first
    | with_reducible assumption | with_reducible apply State.uniInt_canonical

theorem execSmulhImm_canonical (a0 : SR) (s : State) (h1 : s.Canonical) :
    outCanonical (execSmulhImm a0 s) := by
  unfold execSmulhImm
  repeat' first
    | with_reducible assumption | with_reducible apply State.uniInt_canonical

theorem execSdiv_canonical (a0 : SR) (s : State) (h1 : s.Canonical) :
    outCanonical (execSdiv a0 s) := by
  unfold execSdiv
  repeat' first
    | with_reducible assumption | with_reducible apply State.uniInt_canonical

theorem execSdivImm_canonical (a0 : SR) (s : State) (h1 : s.Canonical) :
    outCanonical (execSdivImm a0 s) := by
  unfold execSdivImm
  repeat' first
    | with_reducible assumption | with_reducible apply State.uniInt_canonical

theorem execSrem_canonical (a0 : SR) (s : State) (h1 : s.Canonical) :
    outCanonical (execSrem a0 s) := by
  unfold execSrem
  repeat' first
    | with_reducible assumption | with_reducible apply State.uniInt_canonical

theorem execSremImm_canonical (a0 : SR) (s : State) (h1 : s.Canonical) :
    outCanonical (execSremImm a0 s) := by
  unfold execSremImm
  repeat' first
    | with_reducible assumption | with_reducible apply State.uniInt_canonical

theorem execSand_canonical (a0 : SR) (s : State) (h1 : s.Canonical) :
    outCanonical (execSand a0 s) := by
  unfold execSand
  repeat' first
    | with_reducible assumption | with_reducible apply State.uniBits_canonical

theorem execSandImm_canonical (a0 : SR) (s : State) (h1 : s.Canonical) :
    outCanonical (execSandImm a0 s) := by
  unfold execSandImm
  repeat' first
    | with_reducible assumption | with_reducible apply State.uniBits_canonical

theorem execSor_canonical (a0 : SR) (s : State) (h1 : s.Canonical) :
    outCanonical (execSor a0 s) := by
  unfold execSor
  repeat' first
    | with_reducible assumption | with_reducible apply State.uniBits_canonical

theorem execSorImm_canonical (a0 : SR) (s : State) (h1 : s.Canonical) :
    outCanonical (execSorImm a0 s) := by
  unfold execSorImm
  repeat' first
    | with_reducible assumption | with_reducible apply State.uniBits_canonical

theorem execSxor_canonical (a0 : SR) (s : State) (h1 : s.Canonical) :
    outCanonical (execSxor a0 s) := by
  unfold execSxor
  repeat' first
    | with_reducible assumption | with_reducible apply State.uniBits_canonical

theorem execSxorImm_canonical (a0 : SR) (s : State) (h1 : s.Canonical) :
    outCanonical (execSxorImm a0 s) := by
  unfold execSxorImm
  repeat' first
    | with_reducible assumption | with_reducible apply State.uniBits_canonical

theorem execSshl_canonical (a0 : SR) (s : State) (h1 : s.Canonical) :
    outCanonical (execSshl a0 s) := by
  unfold execSshl
  repeat' first
    | with_reducible assumption | with_reducible apply State.uniShift_canonical

theorem execSshlImm_canonical (a0 : SR) (s : State) (h1 : s.Canonical) :
    outCanonical (execSshlImm a0 s) := by
  unfold execSshlImm
  repeat' first
    | with_reducible assumption | with_reducible apply State.uniShift_canonical

theorem execSshr_canonical (a0 : SR) (s : State) (h1 : s.Canonical) :
    outCanonical (execSshr a0 s) := by
  unfold execSshr
  repeat' first
    | with_reducible assumption | with_reducible apply State.uniShift_canonical

theorem execSshrImm_canonical (a0 : SR) (s : State) (h1 : s.Canonical) :
    outCanonical (execSshrImm a0 s) := by
  unfold execSshrImm
  repeat' first
    | with_reducible assumption | with_reducible apply State.uniShift_canonical

theorem execSsra_canonical (a0 : SR) (s : State) (h1 : s.Canonical) :
    outCanonical (execSsra a0 s) := by
  unfold execSsra
  repeat' first
    | with_reducible assumption | with_reducible apply State.uniShift_canonical

theorem execSsraImm_canonical (a0 : SR) (s : State) (h1 : s.Canonical) :
    outCanonical (execSsraImm a0 s) := by
  unfold execSsraImm
  repeat' first
    | with_reducible assumption | with_reducible apply State.uniShift_canonical

theorem execSmin_canonical (a0 : SR) (s : State) (h1 : s.Canonical) :
    outCanonical (execSmin a0 s) := by
  unfold execSmin
  repeat' first
    | with_reducible assumption | with_reducible apply State.uniInt_canonical

theorem execSminImm_canonical (a0 : SR) (s : State) (h1 : s.Canonical) :
    outCanonical (execSminImm a0 s) := by
  unfold execSminImm
  repeat' first
    | with_reducible assumption | with_reducible apply State.uniInt_canonical

theorem execSmax_canonical (a0 : SR) (s : State) (h1 : s.Canonical) :
    outCanonical (execSmax a0 s) := by
  unfold execSmax
  repeat' first
    | with_reducible assumption | with_reducible apply State.uniInt_canonical

theorem execSmaxImm_canonical (a0 : SR) (s : State) (h1 : s.Canonical) :
    outCanonical (execSmaxImm a0 s) := by
  unfold execSmaxImm
  repeat' first
    | with_reducible assumption | with_reducible apply State.uniInt_canonical

theorem State.uniCmp_canonical (s : State) (a1 : SR) (a2 : Bool) (h0 : s.Canonical) :
    outCanonical (State.uniCmp s a1 a2) := by
  unfold State.uniCmp
  repeat' first
    | with_reducible assumption | with_reducible apply State.uni_canonical

theorem execScmp_canonical (a0 : SR) (s : State) (h1 : s.Canonical) :
    outCanonical (execScmp a0 s) := by
  unfold execScmp
  repeat' first
    | with_reducible assumption | with_reducible apply State.uniCmp_canonical

theorem execScmpImm_canonical (a0 : SR) (s : State) (h1 : s.Canonical) :
    outCanonical (execScmpImm a0 s) := by
  unfold execScmpImm
  repeat' first
    | with_reducible assumption | with_reducible apply State.uniCmp_canonical

theorem State.uniSel_canonical (s : State) (a1 : SR) (a2 : Bool) (h0 : s.Canonical) :
    outCanonical (State.uniSel s a1 a2) := by
  unfold State.uniSel
  repeat' first
    | with_reducible assumption | with_reducible apply State.uni_canonical

theorem execSsel_canonical (a0 : SR) (s : State) (h1 : s.Canonical) :
    outCanonical (execSsel a0 s) := by
  unfold execSsel
  repeat' first
    | with_reducible assumption | with_reducible apply State.uniSel_canonical

theorem execSselImm_canonical (a0 : SR) (s : State) (h1 : s.Canonical) :
    outCanonical (execSselImm a0 s) := by
  unfold execSselImm
  repeat' first
    | with_reducible assumption | with_reducible apply State.uniSel_canonical

theorem execSmov_canonical (a0 : SR) (s : State) (h1 : s.Canonical) :
    outCanonical (execSmov a0 s) := by
  unfold execSmov
  repeat' first
    | with_reducible assumption | with_reducible apply State.uni_canonical

theorem execSmovi_canonical (a0 : SR) (s : State) (h1 : s.Canonical) :
    outCanonical (execSmovi a0 s) := by
  unfold execSmovi
  repeat' first
    | with_reducible assumption | with_reducible apply State.uni_canonical

theorem execSbfx_canonical (a0 : SR) (s : State) (h1 : s.Canonical) :
    outCanonical (execSbfx a0 s) := by
  unfold execSbfx
  repeat' first
    | with_reducible assumption | with_reducible apply State.uni_canonical

theorem execSbfi_canonical (a0 : SR) (s : State) (h1 : s.Canonical) :
    outCanonical (execSbfi a0 s) := by
  unfold execSbfi
  repeat' first
    | with_reducible assumption | with_reducible apply State.uni_canonical

theorem execSpopc_canonical (a0 : SR) (s : State) (h1 : s.Canonical) :
    outCanonical (execSpopc a0 s) := by
  unfold execSpopc
  repeat' first
    | with_reducible assumption | with_reducible apply State.uni_canonical

theorem execSclz_canonical (a0 : SR) (s : State) (h1 : s.Canonical) :
    outCanonical (execSclz a0 s) := by
  unfold execSclz
  repeat' first
    | with_reducible assumption | with_reducible apply State.uni_canonical

theorem execKset_canonical (a0 : SR) (s : State) (h1 : s.Canonical) :
    outCanonical (execKset a0 s) := by
  unfold execKset
  repeat' first
    | with_reducible assumption | intro _ | (simp only [canonical_mk]; refine canonical_fold ?_)
    | with_reducible apply State.issue_canonical | with_reducible apply State.write_canonical | with_reducible apply State.raise_canonical
    | with_reducible apply State.advance_canonical | with_reducible apply canonical_ite

theorem execKget_canonical (a0 : SR) (s : State) (h1 : s.Canonical) :
    outCanonical (execKget a0 s) := by
  unfold execKget
  repeat' first
    | with_reducible assumption | with_reducible apply State.uni_canonical

theorem execKdepth_canonical (a0 : SR) (s : State) (h1 : s.Canonical) :
    outCanonical (execKdepth a0 s) := by
  unfold execKdepth
  repeat' first
    | with_reducible assumption | with_reducible apply State.uni_canonical

theorem execKpush_canonical (a0 : SR) (s : State) (h1 : s.Canonical) :
    outCanonical (execKpush a0 s) := by
  unfold execKpush
  repeat' first
    | with_reducible assumption | with_reducible apply State.uni_canonical

theorem execKpop_canonical (a0 : SR) (s : State) (h1 : s.Canonical) :
    outCanonical (execKpop a0 s) := by
  unfold execKpop
  repeat' first
    | with_reducible assumption | with_reducible apply State.uni_canonical

theorem execKswap_canonical (a0 : SR) (s : State) (h1 : s.Canonical) :
    outCanonical (execKswap a0 s) := by
  unfold execKswap
  repeat' first
    | with_reducible assumption | with_reducible apply State.uni_canonical

end Sys2Proof.Machine
end

