-- ==== Sys2Proof/Laws/CanonicalMemory.lean ====
section
/-! SUPPORT. State.Canonical is kept by accesses, their requests and their events: one lemma per operation. -/
namespace Sys2Proof.Machine
open Sys2Proof
set_option linter.unusedSimpArgs false

theorem State.addAccess_canonical (s : State) (a1 : Issuer) (a2 : AccessKindOf) (a3 : Nat) (a4 : Nat) (a5 : Mask) (a6 : List Cell) (h0 : s.Canonical) :
    (State.addAccess s a1 a2 a3 a4 a5 a6).1.Canonical := by
  unfold State.addAccess
  repeat' first
    | with_reducible assumption | (simp only [canonical_mk]; refine canonical_fold ?_) | with_reducible apply State.fresh_canonical

theorem State.addRequest_canonical (s : State) (a1 : Group) (a2 : Nat) (a3 : ReqKind) (a4 : BitVec 5) (a5 : DWord) (a6 : MF) (a7 : Bool) (a8 : Nat) (a9 : List LaneOp) (h0 : s.Canonical) :
    (State.addRequest s a1 a2 a3 a4 a5 a6 a7 a8 a9).Canonical := by
  unfold State.addRequest
  repeat' first
    | with_reducible assumption | (simp only [canonical_mk]; refine canonical_fold ?_) | with_reducible apply State.fresh_canonical
    | with_reducible apply State.nextSeq_canonical

theorem State.addRequests_canonical (s : State) (a1 : Group) (a2 : Nat) (a3 : ReqKind) (a4 : BitVec 5) (a5 : DWord) (a6 : MF) (a7 : Bool) (a8 : List LaneOp) (h0 : s.Canonical) :
    (State.addRequests s a1 a2 a3 a4 a5 a6 a7 a8).Canonical := by
  unfold State.addRequests
  repeat' first
    | with_reducible assumption | intro _ | with_reducible apply State.addRequest_canonical | with_reducible apply canonical_foldl

theorem State.afterRelease_canonical (s : State) (a1 : Issuer) (a2 : Instr) (a3 : Bool) (a4 : Nat) (a5 : Path) (s6 : State) (h0 : s.Canonical) (h6 : s6.Canonical) :
    (State.afterRelease s a1 a2 a3 a4 a5 s6).Canonical := by
  unfold State.afterRelease
  repeat' first
    | with_reducible assumption | (simp only [canonical_mk]; refine canonical_fold ?_)
    | with_reducible apply State.deliverFailure_canonical | with_reducible apply State.park_canonical | with_reducible apply canonical_ite
    | split

theorem State.globalAccess_canonical (s : State) (a1 : Issuer) (a2 : MF) (a3 : Instr) (a4 : ReqKind) (a5 : AccessKindOf) (a6 : BitVec 5) (a7 : Bool) (a8 : Nat → Nat → LaneOp) (h0 : s.Canonical) :
    (State.globalAccess s a1 a2 a3 a4 a5 a6 a7 a8).Canonical := by
  unfold State.globalAccess
  repeat' first
    | with_reducible assumption | (simp only [canonical_mk]; refine canonical_fold ?_) | with_reducible apply State.raise_canonical
    | with_reducible apply State.afterRelease_canonical | with_reducible apply State.addAccess_canonical
    | with_reducible apply State.addRequests_canonical | with_reducible apply State.advance_canonical | split

theorem State.load_canonical (s : State) (a1 : MF) (a2 : Instr) (a3 : Bool) (h0 : s.Canonical) :
    outCanonical (State.load s a1 a2 a3) := by
  unfold State.load
  repeat' first
    | with_reducible assumption | intro _ | with_reducible apply State.issue_canonical | with_reducible apply State.globalAccess_canonical

theorem execLd_canonical (a0 : MF) (s : State) (h1 : s.Canonical) :
    outCanonical (execLd a0 s) := by
  unfold execLd
  repeat' first
    | with_reducible assumption | with_reducible apply State.load_canonical

theorem execLdSx_canonical (a0 : MF) (s : State) (h1 : s.Canonical) :
    outCanonical (execLdSx a0 s) := by
  unfold execLdSx
  repeat' first
    | with_reducible assumption | with_reducible apply State.load_canonical

theorem execSt_canonical (a0 : MF) (s : State) (h1 : s.Canonical) :
    outCanonical (execSt a0 s) := by
  unfold execSt
  repeat' first
    | with_reducible assumption | intro _ | with_reducible apply State.issue_canonical | with_reducible apply State.globalAccess_canonical

theorem State.uniformAccess_canonical (s : State) (a1 : Issuer) (a2 : MF) (a3 : Instr) (a4 : ReqKind) (a5 : AccessKindOf) (a6 : BitVec 5) (a7 : Nat → LaneOp) (h0 : s.Canonical) :
    (State.uniformAccess s a1 a2 a3 a4 a5 a6 a7).Canonical := by
  unfold State.uniformAccess
  repeat' first
    | with_reducible assumption | (simp only [canonical_mk]; refine canonical_fold ?_) | with_reducible apply State.raise_canonical
    | with_reducible apply State.afterRelease_canonical | with_reducible apply State.addAccess_canonical
    | with_reducible apply State.addRequests_canonical | with_reducible apply State.advance_canonical | with_reducible apply canonical_ite

theorem State.loadUniform_canonical (s : State) (a1 : MF) (a2 : Instr) (a3 : Bool) (h0 : s.Canonical) :
    outCanonical (State.loadUniform s a1 a2 a3) := by
  unfold State.loadUniform
  repeat' first
    | with_reducible assumption | intro _ | with_reducible apply State.issue_canonical
    | with_reducible apply State.uniformAccess_canonical

theorem execLdu_canonical (a0 : MF) (s : State) (h1 : s.Canonical) :
    outCanonical (execLdu a0 s) := by
  unfold execLdu
  repeat' first
    | with_reducible assumption | with_reducible apply State.loadUniform_canonical

theorem execLduSx_canonical (a0 : MF) (s : State) (h1 : s.Canonical) :
    outCanonical (execLduSx a0 s) := by
  unfold execLduSx
  repeat' first
    | with_reducible assumption | with_reducible apply State.loadUniform_canonical

theorem execStu_canonical (a0 : MF) (s : State) (h1 : s.Canonical) :
    outCanonical (execStu a0 s) := by
  unfold execStu
  repeat' first
    | with_reducible assumption | intro _ | with_reducible apply State.issue_canonical
    | with_reducible apply State.uniformAccess_canonical

theorem execPrf_canonical (a0 : MF) (s : State) (h1 : s.Canonical) :
    outCanonical (execPrf a0 s) := by
  unfold execPrf
  repeat' first
    | with_reducible assumption | intro _ | (simp only [canonical_mk]; refine canonical_fold ?_)
    | with_reducible apply State.issue_canonical | with_reducible apply State.addAccess_canonical
    | with_reducible apply State.addRequests_canonical | with_reducible apply State.advance_canonical

theorem State.spAccess_canonical (s : State) (a1 : Issuer) (a2 : MF) (a3 : Instr) (a4 : ReqKind) (a5 : AccessKindOf) (a6 : Nat → Nat → LaneOp) (h0 : s.Canonical) :
    (State.spAccess s a1 a2 a3 a4 a5 a6).Canonical := by
  unfold State.spAccess
  repeat' first
    | with_reducible assumption | (simp only [canonical_mk]; refine canonical_fold ?_) | with_reducible apply State.raise_canonical
    | with_reducible apply State.afterRelease_canonical | with_reducible apply State.addAccess_canonical
    | with_reducible apply State.fresh_canonical | with_reducible apply State.advance_canonical | with_reducible apply canonical_ite
    | split

theorem State.loadSp_canonical (s : State) (a1 : MF) (a2 : Instr) (a3 : Bool) (h0 : s.Canonical) :
    outCanonical (State.loadSp s a1 a2 a3) := by
  unfold State.loadSp
  repeat' first
    | with_reducible assumption | intro _ | with_reducible apply State.issue_canonical | with_reducible apply State.spAccess_canonical

theorem execLds_canonical (a0 : MF) (s : State) (h1 : s.Canonical) :
    outCanonical (execLds a0 s) := by
  unfold execLds
  repeat' first
    | with_reducible assumption | with_reducible apply State.loadSp_canonical

theorem execLdsSx_canonical (a0 : MF) (s : State) (h1 : s.Canonical) :
    outCanonical (execLdsSx a0 s) := by
  unfold execLdsSx
  repeat' first
    | with_reducible assumption | with_reducible apply State.loadSp_canonical

theorem execSts_canonical (a0 : MF) (s : State) (h1 : s.Canonical) :
    outCanonical (execSts a0 s) := by
  unfold execSts
  repeat' first
    | with_reducible assumption | intro _ | with_reducible apply State.issue_canonical | with_reducible apply State.spAccess_canonical

theorem execFence_canonical (a0 : MF) (s : State) (h1 : s.Canonical) :
    outCanonical (execFence a0 s) := by
  unfold execFence
  repeat' first
    | with_reducible assumption | intro _ | (simp only [canonical_mk]; refine canonical_fold ?_)
    | with_reducible apply State.issue_canonical | with_reducible apply State.deliverFailure_canonical
    | with_reducible apply State.advance_canonical | with_reducible apply State.acquireAt_canonical
    | with_reducible apply State.park_canonical | with_reducible apply canonical_ite | split

theorem execCctlInv_canonical (a0 : MF) (s : State) (h1 : s.Canonical) :
    outCanonical (execCctlInv a0 s) := by
  unfold execCctlInv
  repeat' first
    | with_reducible assumption | intro _ | (simp only [canonical_mk]; refine canonical_fold ?_)
    | with_reducible apply State.issue_canonical | with_reducible apply State.evictL1_canonical
    | with_reducible apply State.advance_canonical | with_reducible apply canonical_foldl | split

theorem execCctlWb_canonical (a0 : MF) (s : State) (h1 : s.Canonical) :
    outCanonical (execCctlWb a0 s) := by
  unfold execCctlWb
  repeat' first
    | with_reducible assumption | intro _ | (simp only [canonical_mk]; refine canonical_fold ?_)
    | with_reducible apply State.issue_canonical | with_reducible apply State.flushL1_canonical
    | with_reducible apply State.advance_canonical | with_reducible apply canonical_foldl | split

theorem execCctlInvall_canonical (a0 : MF) (s : State) (h1 : s.Canonical) :
    outCanonical (execCctlInvall a0 s) := by
  unfold execCctlInvall
  repeat' first
    | with_reducible assumption | intro _ | (simp only [canonical_mk]; refine canonical_fold ?_)
    | with_reducible apply State.issue_canonical | with_reducible apply State.advance_canonical
    | with_reducible apply State.evictL1_canonical | with_reducible apply canonical_foldl

theorem State.takeHint_canonical (s : State) (a1 : Landing) (a2 : Nat) (a3 : Nat) (h0 : s.Canonical) :
    (State.takeHint s a1 a2 a3).Canonical := by
  unfold State.takeHint
  repeat' first
    | with_reducible assumption | (simp only [canonical_mk]; refine canonical_fold ?_) | split

theorem execMhint_canonical (a0 : MF) (s : State) (h1 : s.Canonical) :
    outCanonical (execMhint a0 s) := by
  unfold execMhint
  repeat' first
    | with_reducible assumption | intro _ | (simp only [canonical_mk]; refine canonical_fold ?_)
    | with_reducible apply State.issue_canonical | with_reducible apply State.resolve_canonical
    | with_reducible apply State.takeHint_canonical | with_reducible apply State.nextSeq_canonical
    | with_reducible apply State.reportFailure_canonical | with_reducible apply State.advance_canonical
    | with_reducible refine canonical_of_pair (by assumption) ?_ | with_reducible apply canonical_foldl | split

theorem State.atom_canonical (s : State) (a1 : MF) (a2 : Instr) (a3 : AtomOp) (h0 : s.Canonical) :
    outCanonical (State.atom s a1 a2 a3) := by
  unfold State.atom
  repeat' first
    | with_reducible assumption | intro _ | with_reducible apply State.issue_canonical | with_reducible apply State.globalAccess_canonical

theorem State.atoms_canonical (s : State) (a1 : MF) (a2 : Instr) (a3 : AtomOp) (h0 : s.Canonical) :
    outCanonical (State.atoms s a1 a2 a3) := by
  unfold State.atoms
  repeat' first
    | with_reducible assumption | intro _ | with_reducible apply State.issue_canonical | with_reducible apply State.spAccess_canonical

theorem State.red_canonical (s : State) (a1 : MF) (a2 : Instr) (a3 : AtomOp) (h0 : s.Canonical) :
    outCanonical (State.red s a1 a2 a3) := by
  unfold State.red
  repeat' first
    | with_reducible assumption | intro _ | with_reducible apply State.issue_canonical | with_reducible apply State.globalAccess_canonical

theorem State.upd_canonical (s : State) (a1 : MF) (a2 : Instr) (a3 : Nat) (h0 : s.Canonical) :
    outCanonical (State.upd s a1 a2 a3) := by
  unfold State.upd
  repeat' first
    | with_reducible assumption | intro _ | with_reducible apply State.issue_canonical | with_reducible apply State.globalAccess_canonical

theorem execAtomAdd_canonical (a0 : MF) (s : State) (h1 : s.Canonical) :
    outCanonical (execAtomAdd a0 s) := by
  unfold execAtomAdd
  repeat' first
    | with_reducible assumption | with_reducible apply State.atom_canonical

theorem execAtomAnd_canonical (a0 : MF) (s : State) (h1 : s.Canonical) :
    outCanonical (execAtomAnd a0 s) := by
  unfold execAtomAnd
  repeat' first
    | with_reducible assumption | with_reducible apply State.atom_canonical

theorem execAtomOr_canonical (a0 : MF) (s : State) (h1 : s.Canonical) :
    outCanonical (execAtomOr a0 s) := by
  unfold execAtomOr
  repeat' first
    | with_reducible assumption | with_reducible apply State.atom_canonical

theorem execAtomXor_canonical (a0 : MF) (s : State) (h1 : s.Canonical) :
    outCanonical (execAtomXor a0 s) := by
  unfold execAtomXor
  repeat' first
    | with_reducible assumption | with_reducible apply State.atom_canonical

theorem execAtomMinS_canonical (a0 : MF) (s : State) (h1 : s.Canonical) :
    outCanonical (execAtomMinS a0 s) := by
  unfold execAtomMinS
  repeat' first
    | with_reducible assumption | with_reducible apply State.atom_canonical

theorem execAtomMaxS_canonical (a0 : MF) (s : State) (h1 : s.Canonical) :
    outCanonical (execAtomMaxS a0 s) := by
  unfold execAtomMaxS
  repeat' first
    | with_reducible assumption | with_reducible apply State.atom_canonical

theorem execAtomMinU_canonical (a0 : MF) (s : State) (h1 : s.Canonical) :
    outCanonical (execAtomMinU a0 s) := by
  unfold execAtomMinU
  repeat' first
    | with_reducible assumption | with_reducible apply State.atom_canonical

theorem execAtomMaxU_canonical (a0 : MF) (s : State) (h1 : s.Canonical) :
    outCanonical (execAtomMaxU a0 s) := by
  unfold execAtomMaxU
  repeat' first
    | with_reducible assumption | with_reducible apply State.atom_canonical

theorem execAtomExch_canonical (a0 : MF) (s : State) (h1 : s.Canonical) :
    outCanonical (execAtomExch a0 s) := by
  unfold execAtomExch
  repeat' first
    | with_reducible assumption | with_reducible apply State.atom_canonical

theorem execAtomCas_canonical (a0 : MF) (s : State) (h1 : s.Canonical) :
    outCanonical (execAtomCas a0 s) := by
  unfold execAtomCas
  repeat' first
    | with_reducible assumption | with_reducible apply State.atom_canonical

theorem execAtomInc_canonical (a0 : MF) (s : State) (h1 : s.Canonical) :
    outCanonical (execAtomInc a0 s) := by
  unfold execAtomInc
  repeat' first
    | with_reducible assumption | with_reducible apply State.atom_canonical

theorem execAtomDec_canonical (a0 : MF) (s : State) (h1 : s.Canonical) :
    outCanonical (execAtomDec a0 s) := by
  unfold execAtomDec
  repeat' first
    | with_reducible assumption | with_reducible apply State.atom_canonical

theorem execAtomFadd_canonical (a0 : MF) (s : State) (h1 : s.Canonical) :
    outCanonical (execAtomFadd a0 s) := by
  unfold execAtomFadd
  repeat' first
    | with_reducible assumption | with_reducible apply State.atom_canonical

theorem execAtomsAdd_canonical (a0 : MF) (s : State) (h1 : s.Canonical) :
    outCanonical (execAtomsAdd a0 s) := by
  unfold execAtomsAdd
  repeat' first
    | with_reducible assumption | with_reducible apply State.atoms_canonical

theorem execAtomsAnd_canonical (a0 : MF) (s : State) (h1 : s.Canonical) :
    outCanonical (execAtomsAnd a0 s) := by
  unfold execAtomsAnd
  repeat' first
    | with_reducible assumption | with_reducible apply State.atoms_canonical

theorem execAtomsOr_canonical (a0 : MF) (s : State) (h1 : s.Canonical) :
    outCanonical (execAtomsOr a0 s) := by
  unfold execAtomsOr
  repeat' first
    | with_reducible assumption | with_reducible apply State.atoms_canonical

theorem execAtomsXor_canonical (a0 : MF) (s : State) (h1 : s.Canonical) :
    outCanonical (execAtomsXor a0 s) := by
  unfold execAtomsXor
  repeat' first
    | with_reducible assumption | with_reducible apply State.atoms_canonical

theorem execAtomsMinS_canonical (a0 : MF) (s : State) (h1 : s.Canonical) :
    outCanonical (execAtomsMinS a0 s) := by
  unfold execAtomsMinS
  repeat' first
    | with_reducible assumption | with_reducible apply State.atoms_canonical

theorem execAtomsMaxS_canonical (a0 : MF) (s : State) (h1 : s.Canonical) :
    outCanonical (execAtomsMaxS a0 s) := by
  unfold execAtomsMaxS
  repeat' first
    | with_reducible assumption | with_reducible apply State.atoms_canonical

theorem execAtomsMinU_canonical (a0 : MF) (s : State) (h1 : s.Canonical) :
    outCanonical (execAtomsMinU a0 s) := by
  unfold execAtomsMinU
  repeat' first
    | with_reducible assumption | with_reducible apply State.atoms_canonical

theorem execAtomsMaxU_canonical (a0 : MF) (s : State) (h1 : s.Canonical) :
    outCanonical (execAtomsMaxU a0 s) := by
  unfold execAtomsMaxU
  repeat' first
    | with_reducible assumption | with_reducible apply State.atoms_canonical

theorem execAtomsExch_canonical (a0 : MF) (s : State) (h1 : s.Canonical) :
    outCanonical (execAtomsExch a0 s) := by
  unfold execAtomsExch
  repeat' first
    | with_reducible assumption | with_reducible apply State.atoms_canonical

theorem execAtomsCas_canonical (a0 : MF) (s : State) (h1 : s.Canonical) :
    outCanonical (execAtomsCas a0 s) := by
  unfold execAtomsCas
  repeat' first
    | with_reducible assumption | with_reducible apply State.atoms_canonical

theorem execAtomsInc_canonical (a0 : MF) (s : State) (h1 : s.Canonical) :
    outCanonical (execAtomsInc a0 s) := by
  unfold execAtomsInc
  repeat' first
    | with_reducible assumption | with_reducible apply State.atoms_canonical

theorem execAtomsDec_canonical (a0 : MF) (s : State) (h1 : s.Canonical) :
    outCanonical (execAtomsDec a0 s) := by
  unfold execAtomsDec
  repeat' first
    | with_reducible assumption | with_reducible apply State.atoms_canonical

theorem execAtomsFadd_canonical (a0 : MF) (s : State) (h1 : s.Canonical) :
    outCanonical (execAtomsFadd a0 s) := by
  unfold execAtomsFadd
  repeat' first
    | with_reducible assumption | with_reducible apply State.atoms_canonical

theorem execRedAdd_canonical (a0 : MF) (s : State) (h1 : s.Canonical) :
    outCanonical (execRedAdd a0 s) := by
  unfold execRedAdd
  repeat' first
    | with_reducible assumption | with_reducible apply State.red_canonical

theorem execRedAnd_canonical (a0 : MF) (s : State) (h1 : s.Canonical) :
    outCanonical (execRedAnd a0 s) := by
  unfold execRedAnd
  repeat' first
    | with_reducible assumption | with_reducible apply State.red_canonical

theorem execRedOr_canonical (a0 : MF) (s : State) (h1 : s.Canonical) :
    outCanonical (execRedOr a0 s) := by
  unfold execRedOr
  repeat' first
    | with_reducible assumption | with_reducible apply State.red_canonical

theorem execRedXor_canonical (a0 : MF) (s : State) (h1 : s.Canonical) :
    outCanonical (execRedXor a0 s) := by
  unfold execRedXor
  repeat' first
    | with_reducible assumption | with_reducible apply State.red_canonical

theorem execRedMinS_canonical (a0 : MF) (s : State) (h1 : s.Canonical) :
    outCanonical (execRedMinS a0 s) := by
  unfold execRedMinS
  repeat' first
    | with_reducible assumption | with_reducible apply State.red_canonical

theorem execRedMaxS_canonical (a0 : MF) (s : State) (h1 : s.Canonical) :
    outCanonical (execRedMaxS a0 s) := by
  unfold execRedMaxS
  repeat' first
    | with_reducible assumption | with_reducible apply State.red_canonical

theorem execRedMinU_canonical (a0 : MF) (s : State) (h1 : s.Canonical) :
    outCanonical (execRedMinU a0 s) := by
  unfold execRedMinU
  repeat' first
    | with_reducible assumption | with_reducible apply State.red_canonical

theorem execRedMaxU_canonical (a0 : MF) (s : State) (h1 : s.Canonical) :
    outCanonical (execRedMaxU a0 s) := by
  unfold execRedMaxU
  repeat' first
    | with_reducible assumption | with_reducible apply State.red_canonical

theorem execRedFadd_canonical (a0 : MF) (s : State) (h1 : s.Canonical) :
    outCanonical (execRedFadd a0 s) := by
  unfold execRedFadd
  repeat' first
    | with_reducible assumption | with_reducible apply State.red_canonical

theorem execUpdIadd32_canonical (a0 : MF) (s : State) (h1 : s.Canonical) :
    outCanonical (execUpdIadd32 a0 s) := by
  unfold execUpdIadd32
  repeat' first
    | with_reducible assumption | with_reducible apply State.upd_canonical

theorem execUpdIadd64_canonical (a0 : MF) (s : State) (h1 : s.Canonical) :
    outCanonical (execUpdIadd64 a0 s) := by
  unfold execUpdIadd64
  repeat' first
    | with_reducible assumption | with_reducible apply State.upd_canonical

theorem execUpdFadd32_canonical (a0 : MF) (s : State) (h1 : s.Canonical) :
    outCanonical (execUpdFadd32 a0 s) := by
  unfold execUpdFadd32
  repeat' first
    | with_reducible assumption | with_reducible apply State.upd_canonical

theorem execUpdFadd64_canonical (a0 : MF) (s : State) (h1 : s.Canonical) :
    outCanonical (execUpdFadd64 a0 s) := by
  unfold execUpdFadd64
  repeat' first
    | with_reducible assumption | with_reducible apply State.upd_canonical

theorem execUpdSmax32_canonical (a0 : MF) (s : State) (h1 : s.Canonical) :
    outCanonical (execUpdSmax32 a0 s) := by
  unfold execUpdSmax32
  repeat' first
    | with_reducible assumption | with_reducible apply State.upd_canonical

theorem execUpdSmin32_canonical (a0 : MF) (s : State) (h1 : s.Canonical) :
    outCanonical (execUpdSmin32 a0 s) := by
  unfold execUpdSmin32
  repeat' first
    | with_reducible assumption | with_reducible apply State.upd_canonical

theorem execUpdZmax32_canonical (a0 : MF) (s : State) (h1 : s.Canonical) :
    outCanonical (execUpdZmax32 a0 s) := by
  unfold execUpdZmax32
  repeat' first
    | with_reducible assumption | with_reducible apply State.upd_canonical

theorem execUpdZmin32_canonical (a0 : MF) (s : State) (h1 : s.Canonical) :
    outCanonical (execUpdZmin32 a0 s) := by
  unfold execUpdZmin32
  repeat' first
    | with_reducible assumption | with_reducible apply State.upd_canonical

theorem execUpdFmax32_canonical (a0 : MF) (s : State) (h1 : s.Canonical) :
    outCanonical (execUpdFmax32 a0 s) := by
  unfold execUpdFmax32
  repeat' first
    | with_reducible assumption | with_reducible apply State.upd_canonical

theorem execUpdFmin32_canonical (a0 : MF) (s : State) (h1 : s.Canonical) :
    outCanonical (execUpdFmin32 a0 s) := by
  unfold execUpdFmin32
  repeat' first
    | with_reducible assumption | with_reducible apply State.upd_canonical

theorem execUpdAnd64_canonical (a0 : MF) (s : State) (h1 : s.Canonical) :
    outCanonical (execUpdAnd64 a0 s) := by
  unfold execUpdAnd64
  repeat' first
    | with_reducible assumption | with_reducible apply State.upd_canonical

theorem execUpdOr64_canonical (a0 : MF) (s : State) (h1 : s.Canonical) :
    outCanonical (execUpdOr64 a0 s) := by
  unfold execUpdOr64
  repeat' first
    | with_reducible assumption | with_reducible apply State.upd_canonical

theorem execUpdXor64_canonical (a0 : MF) (s : State) (h1 : s.Canonical) :
    outCanonical (execUpdXor64 a0 s) := by
  unfold execUpdXor64
  repeat' first
    | with_reducible assumption | with_reducible apply State.upd_canonical

theorem State.writeReg_canonical (s : State) (a1 : Nat) (a2 : DWord) (a3 : DWord) (h0 : s.Canonical) :
    (State.writeReg s a1 a2 a3).Canonical := by
  unfold State.writeReg
  repeat' first
    | with_reducible assumption | (simp only [canonical_mk]; refine canonical_fold ?_) | with_reducible apply State.setCore_canonical
    | with_reducible apply State.setReg_canonical | with_reducible apply State.setDie_canonical | with_reducible apply canonical_ite
    | split

theorem State.deviceStore_canonical (s : State) (a1 : Nat) (a2 : List Byte) (h0 : s.Canonical) :
    (State.deviceStore s a1 a2).Canonical := by
  unfold State.deviceStore
  repeat' first
    | with_reducible assumption | (simp only [canonical_mk]; refine canonical_fold ?_)

theorem State.setReq_canonical (s : State) (a1 : Req) (h0 : s.Canonical) :
    (State.setReq s a1).Canonical := by
  unfold State.setReq
  repeat' first
    | with_reducible assumption | (simp only [canonical_mk]; refine canonical_fold ?_)

theorem State.settleAccess_canonical (s : State) (a1 : Nat) (a2 : Nat) (h0 : s.Canonical) :
    (State.settleAccess s a1 a2).Canonical := by
  unfold State.settleAccess
  repeat' first
    | with_reducible assumption | (simp only [canonical_mk]; refine canonical_fold ?_) | with_reducible apply State.setGroup_canonical
    | with_reducible apply canonical_ite | split

theorem State.finishReq_canonical (s : State) (a1 : Req) (h0 : s.Canonical) :
    (State.finishReq s a1).Canonical := by
  unfold State.finishReq
  repeat' first
    | with_reducible assumption | (simp only [canonical_mk]; refine canonical_fold ?_) | with_reducible apply State.settleAccess_canonical

theorem State.settleLog_canonical (s : State) (a1 : Nat) (a2 : Nat) (h0 : s.Canonical) :
    (State.settleLog s a1 a2).Canonical := by
  unfold State.settleLog
  repeat' first
    | with_reducible assumption | with_reducible apply State.setGroup_canonical | with_reducible apply canonical_ite | split

theorem State.settleLogs_canonical (s : State) (a1 : Req) (h0 : s.Canonical) :
    (State.settleLogs s a1).Canonical := by
  unfold State.settleLogs
  repeat' first
    | with_reducible assumption | intro _ | with_reducible apply State.settleLog_canonical | with_reducible apply canonical_foldl

theorem State.retakeLog_canonical (s : State) (a1 : Req) (h0 : s.Canonical) :
    (State.retakeLog s a1).Canonical := by
  unfold State.retakeLog
  repeat' first
    | with_reducible assumption | (simp only [canonical_mk]; refine canonical_fold ?_) | with_reducible apply State.setGroup_canonical
    | with_reducible apply canonical_ite | split

theorem State.failAccess_canonical (s : State) (a1 : Nat) (a2 : Nat) (a3 : Failure) (h0 : s.Canonical) :
    (State.failAccess s a1 a2 a3).Canonical := by
  unfold State.failAccess
  repeat' first
    | with_reducible assumption | with_reducible apply State.setGroup_canonical | split

theorem State.failSlot_canonical (s : State) (a1 : Group) (a2 : Req) (a3 : Failure) (h0 : s.Canonical) :
    (State.failSlot s a1 a2 a3).Canonical := by
  unfold State.failSlot
  repeat' first
    | with_reducible assumption | (simp only [canonical_mk]; refine canonical_fold ?_) | with_reducible apply State.setReq_canonical
    | with_reducible apply State.trap_canonical | with_reducible apply canonical_ite

theorem State.settleFail_canonical (s : State) (a1 : Req) (a2 : Failure) (h0 : s.Canonical) :
    (State.settleFail s a1 a2).Canonical := by
  unfold State.settleFail
  repeat' first
    | with_reducible assumption | with_reducible apply State.failSlot_canonical | with_reducible apply State.finishReq_canonical
    | with_reducible apply State.failAccess_canonical | split

theorem State.lateVerdict_canonical (s : State) (a1 : Group) (a2 : SlotName) (h0 : s.Canonical) :
    optCanonical (State.lateVerdict s a1 a2) := by
  unfold State.lateVerdict
  repeat' first
    | with_reducible assumption | intro _ | with_reducible apply State.settleFail_canonical | with_reducible apply optCanonical_none
    | with_reducible apply optCanonical_some | with_reducible apply optCanonical_ite | with_reducible apply optCanonical_bindOf | split

theorem State.unmerge_canonical (s : State) (a1 : Nat) (a2 : Nat) (h0 : s.Canonical) :
    (State.unmerge s a1 a2).1.Canonical := by
  fun_induction State.unmerge s a1 a2 <;>
  repeat' first
    | with_reducible assumption | intro _ | (simp only [canonical_mk]; refine canonical_fold ?_) | with_reducible apply canonical_itePair
    | with_reducible apply canonical_foldl_pair | with_reducible apply_assumption -exfalso -symm | split

theorem State.suspendOne_canonical (s : State) (a1 : Req) (a2 : LookFail) (h0 : s.Canonical) :
    (State.suspendOne s a1 a2).Canonical := by
  unfold State.suspendOne
  repeat' first
    | with_reducible assumption | (simp only [canonical_mk]; refine canonical_fold ?_)
    | with_reducible apply State.reportFailure_canonical | with_reducible apply State.foldCount_canonical
    | with_reducible apply State.finishReq_canonical | with_reducible apply State.settleFail_canonical
    | with_reducible apply State.setReq_canonical | with_reducible apply State.retakeLog_canonical | split

theorem State.suspend_canonical (s : State) (a1 : Req) (a2 : LookFail) (h0 : s.Canonical) :
    (State.suspend s a1 a2).Canonical := by
  unfold State.suspend
  repeat' first
    | with_reducible assumption | intro _ | (simp only [canonical_mk]; refine canonical_fold ?_)
    | with_reducible apply State.unmerge_canonical | with_reducible apply State.suspendOne_canonical | with_reducible apply canonical_ite
    | with_reducible apply canonical_foldl

theorem State.countToDie_canonical (s : State) (a1 : Nat) (a2 : Nat) (h0 : s.Canonical) :
    (State.countToDie s a1 a2).Canonical := by
  unfold State.countToDie
  repeat' first
    | with_reducible assumption | (simp only [canonical_mk]; refine canonical_fold ?_) | with_reducible apply State.foldCount_canonical
    | with_reducible apply State.setDie_canonical | with_reducible apply canonical_ite

theorem State.countFrom_canonical (s : State) (a1 : Nat) (a2 : Nat) (h0 : s.Canonical) :
    (State.countFrom s a1 a2).Canonical := by
  unfold State.countFrom
  repeat' first
    | with_reducible assumption | (simp only [canonical_mk]; refine canonical_fold ?_) | with_reducible apply State.setCore_canonical
    | with_reducible apply canonical_ite | split

theorem State.noteShared_canonical (s : State) (a1 : Mode) (a2 : Nat) (a3 : Nat) (h0 : s.Canonical) :
    (State.noteShared s a1 a2 a3).Canonical := by
  unfold State.noteShared
  repeat' first
    | with_reducible assumption | (simp only [canonical_mk]; refine canonical_fold ?_) | with_reducible apply canonical_ite | split

theorem State.fillL1_canonical (s : State) (a1 : Req) (h0 : s.Canonical) :
    (State.fillL1 s a1).Canonical := by
  unfold State.fillL1
  repeat' first
    | with_reducible assumption | (simp only [canonical_mk]; refine canonical_fold ?_) | with_reducible apply State.evictL1_canonical
    | with_reducible apply State.putL1_canonical | with_reducible apply State.dropSynonyms_canonical
    | with_reducible apply State.noteShared_canonical | with_reducible apply State.replaceOne_canonical
    | with_reducible apply canonical_ite | split

theorem State.deliverLanes_canonical (s : State) (a1 : Nat) (a2 : Nat) (a3 : List (LaneOp × Nat)) (h0 : s.Canonical) :
    (State.deliverLanes s a1 a2 a3).Canonical := by
  unfold State.deliverLanes
  repeat' first
    | with_reducible assumption | with_reducible apply State.setGroup_canonical | split

theorem State.acquired_canonical (s : State) (a1 : Nat) (a2 : Nat) (h0 : s.Canonical) :
    (State.acquired s a1 a2).Canonical := by
  unfold State.acquired
  repeat' first
    | with_reducible assumption | with_reducible apply State.acquireAt_canonical | with_reducible apply canonical_ite | split

theorem State.lanesDone_canonical (s : State) (a1 : Req) (a2 : Mask) (h0 : s.Canonical) :
    (State.lanesDone s a1 a2).Canonical := by
  unfold State.lanesDone
  repeat' first
    | with_reducible assumption | (simp only [canonical_mk]; refine canonical_fold ?_) | with_reducible apply State.finishReq_canonical
    | with_reducible apply State.setReq_canonical | with_reducible apply canonical_ite

theorem State.setRemote_canonical (s : State) (a1 : Remote) (h0 : s.Canonical) :
    (State.setRemote s a1).Canonical := by
  unfold State.setRemote
  repeat' first
    | with_reducible assumption | (simp only [canonical_mk]; refine canonical_fold ?_)

theorem State.touchHint_canonical (s : State) (a1 : Nat) (a2 : Nat) (h0 : s.Canonical) :
    (State.touchHint s a1 a2).Canonical := by
  unfold State.touchHint
  repeat' first
    | with_reducible assumption | with_reducible apply State.setRemote_canonical | with_reducible apply canonical_ite | split

theorem State.touchAt_canonical (s : State) (a1 : Nat) (h0 : s.Canonical) :
    (State.touchAt s a1).Canonical := by
  unfold State.touchAt
  repeat' first
    | with_reducible assumption | with_reducible apply State.touchHint_canonical

theorem State.touchRemote_canonical (s : State) (a1 : Req) (h0 : s.Canonical) :
    (State.touchRemote s a1).Canonical := by
  unfold State.touchRemote
  repeat' first
    | with_reducible assumption | with_reducible apply State.touchHint_canonical

theorem State.remapRos_canonical (s : State) (a1 : Nat) (a2 : Nat) (h0 : s.Canonical) :
    (State.remapRos s a1 a2).Canonical := by
  unfold State.remapRos
  repeat' first
    | with_reducible assumption | (simp only [canonical_mk]; refine canonical_fold ?_) | with_reducible apply State.dropCached_canonical
    | with_reducible apply State.storeN_canonical

theorem State.publishVersion_canonical (s : State) (a1 : Remote) (a2 : Nat) (a3 : Nat) (h0 : s.Canonical) :
    (State.publishVersion s a1 a2 a3).Canonical := by
  unfold State.publishVersion
  repeat' first
    | with_reducible assumption | (simp only [canonical_mk]; refine canonical_fold ?_) | with_reducible apply State.remapRos_canonical
    | with_reducible apply State.setRemote_canonical | with_reducible apply State.storeN_canonical

theorem State.reach_canonical (s : State) (a1 : Nat) (a2 : Nat) (a3 : DWord) (a4 : BitVec 5) (a5 : List (Nat × Nat)) (h0 : s.Canonical) :
    (State.reach s a1 a2 a3 a4 a5).1.Canonical := by
  fun_induction State.reach s a1 a2 a3 a4 a5 <;>
  repeat' first
    | with_reducible assumption | (simp only [canonical_mk]; refine canonical_fold ?_) | with_reducible apply State.resolve_canonical
    | with_reducible refine canonical_of_pair (by assumption) ?_ | with_reducible apply_assumption -exfalso -symm

theorem State.engineGet_canonical (s : State) (a1 : Nat) (a2 : List (Landing × Nat)) (h0 : s.Canonical) :
    (State.engineGet s a1 a2).1.Canonical := by
  fun_induction State.engineGet s a1 a2 <;>
  repeat' first
    | with_reducible assumption | (simp only [canonical_mk]; refine canonical_fold ?_) | with_reducible apply State.touchAt_canonical
    | with_reducible apply State.closeLine_canonical | with_reducible refine canonical_of_pair (by assumption) ?_
    | with_reducible apply_assumption -exfalso -symm

theorem State.enginePut_canonical (s : State) (a1 : Nat) (a2 : Nat) (a3 : List (Landing × Nat)) (a4 : List Byte) (h0 : s.Canonical) :
    (State.enginePut s a1 a2 a3 a4).Canonical := by
  fun_induction State.enginePut s a1 a2 a3 a4 <;>
  repeat' first
    | with_reducible assumption | with_reducible apply State.touchAt_canonical | with_reducible apply State.closeLine_canonical
    | with_reducible apply State.deviceStore_canonical | with_reducible apply State.publish_canonical
    | with_reducible apply State.ensureAlone_canonical | with_reducible apply canonical_ite
    | with_reducible apply_assumption -exfalso -symm

theorem State.putElem_canonical (s : State) (a1 : CopyReq) (a2 : Slice) (a3 : Nat) (a4 : List Byte) (h0 : s.Canonical) :
    (State.putElem s a1 a2 a3 a4).Canonical := by
  unfold State.putElem
  repeat' first
    | with_reducible assumption | with_reducible apply State.spWrite_canonical | with_reducible apply State.reach_canonical
    | with_reducible apply State.enginePut_canonical | with_reducible refine canonical_of_pair (by assumption) ?_
    | with_reducible apply canonical_ite | split

theorem State.raceCopies_canonical (s : State) (a1 : Nat) (a2 : Option Nat) (a3 : Nat) (a4 : Nat) (h0 : s.Canonical) :
    (State.raceCopies s a1 a2 a3 a4).Canonical := by
  unfold State.raceCopies
  repeat' first
    | with_reducible assumption | intro _ | (simp only [canonical_mk]; refine canonical_fold ?_)
    | with_reducible apply State.setCopyReq_canonical | with_reducible apply State.putElem_canonical | with_reducible apply canonical_ite
    | with_reducible apply canonical_foldl | split

theorem State.atSlice_canonical (s : State) (a1 : Req) (a2 : Nat) (h0 : s.Canonical) :
    (State.atSlice s a1 a2).Canonical := by
  unfold State.atSlice
  repeat' first
    | with_reducible assumption | (simp only [canonical_mk]; refine canonical_fold ?_) | with_reducible apply State.setReq_canonical

theorem State.landReq_canonical (s : State) (a1 : Req) (a2 : Landing) (h0 : s.Canonical) :
    (State.landReq s a1 a2).Canonical := by
  unfold State.landReq
  repeat' first
    | with_reducible assumption | (simp only [canonical_mk]; refine canonical_fold ?_) | with_reducible apply State.setReq_canonical
    | with_reducible apply State.countToDie_canonical | with_reducible apply State.settleLogs_canonical
    | with_reducible apply State.atSlice_canonical | with_reducible apply canonical_ite | split

theorem State.splitParts_canonical (s : State) (a1 : Nat) (h0 : s.Canonical) :
    (State.splitParts s a1).Canonical := by
  unfold State.splitParts
  repeat' first
    | with_reducible assumption | intro _ | (simp only [canonical_mk]; refine canonical_fold ?_)
    | with_reducible apply State.fresh_canonical | with_reducible apply State.setReq_canonical | with_reducible apply canonical_foldl
    | split

theorem State.afterLookup_canonical (s : State) (a1 : Req) (a2 : Tier) (a3 : Nat) (a4 : Nat) (a5 : Looked) (h0 : s.Canonical) :
    (State.afterLookup s a1 a2 a3 a4 a5).Canonical := by
  unfold State.afterLookup
  repeat' first
    | with_reducible assumption | (simp only [canonical_mk]; refine canonical_fold ?_) | with_reducible apply State.suspend_canonical
    | with_reducible apply State.setReq_canonical | with_reducible apply State.splitParts_canonical
    | with_reducible apply State.countToDie_canonical | with_reducible apply State.landReq_canonical | with_reducible apply canonical_ite
    | split

theorem State.lookupReq_canonical (s : State) (a1 : Req) (a2 : Tier) (a3 : Nat) (a4 : Nat) (h0 : s.Canonical) :
    (State.lookupReq s a1 a2 a3 a4).Canonical := by
  unfold State.lookupReq
  repeat' first
    | with_reducible assumption | (simp only [canonical_mk]; refine canonical_fold ?_) | with_reducible apply State.afterLookup_canonical
    | with_reducible apply State.lookAt_canonical | split

theorem execTierLookup_canonical (s : State) (h0 : s.Canonical) :
    outCanonical (execTierLookup s) := by
  unfold execTierLookup
  repeat' first
    | with_reducible assumption | intro _ | with_reducible apply whenDue_canonical | with_reducible apply State.lookupReq_canonical
    | with_reducible apply State.setReq_canonical | with_reducible apply optCanonical_none | with_reducible apply optCanonical_some
    | with_reducible apply optCanonical_ite | with_reducible apply optCanonical_bind | split

theorem State.readDram_canonical (s : State) (a1 : Nat) (a2 : BitVec 4) (h0 : s.Canonical) :
    (State.readDram s a1 a2).Canonical := by
  unfold State.readDram
  repeat' first
    | with_reducible assumption | with_reducible apply State.charge_canonical

theorem State.fillSlice_canonical (s : State) (a1 : Req) (a2 : Nat) (a3 : BitVec 4) (h0 : s.Canonical) :
    (State.fillSlice s a1 a2 a3).Canonical := by
  unfold State.fillSlice
  repeat' first
    | with_reducible assumption | (simp only [canonical_mk]; refine canonical_fold ?_) | with_reducible apply State.replaceL2_canonical
    | with_reducible apply canonical_ite

theorem State.drainIngress_canonical (s : State) (a1 : Nat) (a2 : Nat) (h0 : s.Canonical) :
    (State.drainIngress s a1 a2).Canonical := by
  unfold State.drainIngress
  repeat' first
    | with_reducible assumption | intro _ | (simp only [canonical_mk]; refine canonical_fold ?_)
    | with_reducible apply State.atSlice_canonical | with_reducible apply canonical_foldl

theorem execL2MissFill_canonical (s : State) (h0 : s.Canonical) :
    outCanonical (execL2MissFill s) := by
  unfold execL2MissFill
  repeat' first
    | with_reducible assumption | intro _ | (simp only [canonical_mk]; refine canonical_fold ?_) | with_reducible apply whenDue_canonical
    | with_reducible apply State.dropSynonyms_canonical | with_reducible apply State.readDram_canonical
    | with_reducible apply State.fillSlice_canonical | with_reducible apply State.drainIngress_canonical
    | with_reducible apply optCanonical_none | with_reducible apply optCanonical_some | with_reducible apply canonical_ite
    | with_reducible apply optCanonical_ite | with_reducible apply optCanonical_bind

theorem State.closeFor_canonical (s : State) (a1 : Nat) (a2 : Nat) (h0 : s.Canonical) :
    (State.closeFor s a1 a2).Canonical := by
  unfold State.closeFor
  repeat' first
    | with_reducible assumption | (simp only [canonical_mk]; refine canonical_fold ?_) | with_reducible apply State.closeLine_canonical
    | with_reducible apply canonical_ite

theorem State.loadLanes_canonical (s : State) (a1 : Req) (a2 : Nat) (a3 : Bool) (a4 : Mask) (h0 : s.Canonical) :
    (State.loadLanes s a1 a2 a3 a4).Canonical := by
  unfold State.loadLanes
  repeat' first
    | with_reducible assumption | (simp only [canonical_mk]; refine canonical_fold ?_) | with_reducible apply State.dropSynonyms_canonical
    | with_reducible apply State.closeFor_canonical | with_reducible apply State.fillL1_canonical
    | with_reducible apply State.touchRemote_canonical | with_reducible apply State.deliverLanes_canonical
    | with_reducible apply State.lanesDone_canonical | with_reducible apply State.countFrom_canonical
    | with_reducible apply State.acquired_canonical

theorem execLoadReply_canonical (s : State) (h0 : s.Canonical) :
    outCanonical (execLoadReply s) := by
  unfold execLoadReply
  repeat' first
    | with_reducible assumption | intro _ | with_reducible apply whenDue_canonical | with_reducible apply State.suspend_canonical
    | with_reducible apply State.loadLanes_canonical | with_reducible apply optCanonical_none | with_reducible apply optCanonical_some
    | with_reducible apply optCanonical_ite | with_reducible apply optCanonical_bind | split

theorem State.storeWritten_canonical (s : State) (a1 : Req) (a2 : Mask) (h0 : s.Canonical) :
    (State.storeWritten s a1 a2).Canonical := by
  unfold State.storeWritten
  repeat' first
    | with_reducible assumption | (simp only [canonical_mk]; refine canonical_fold ?_) | with_reducible apply State.setReq_canonical
    | with_reducible apply State.lanesDone_canonical | with_reducible apply canonical_ite

theorem State.raceLanes_canonical (s : State) (a1 : Req) (a2 : Nat) (a3 : List LaneOp) (h0 : s.Canonical) :
    (State.raceLanes s a1 a2 a3).Canonical := by
  unfold State.raceLanes
  repeat' first
    | with_reducible assumption | intro _ | with_reducible apply State.raceCopies_canonical | with_reducible apply canonical_foldl

theorem State.publishLanes_canonical (s : State) (a1 : Nat) (a2 : Option Nat) (a3 : Req) (a4 : Nat) (a5 : List LaneOp) (h0 : s.Canonical) :
    (State.publishLanes s a1 a2 a3 a4 a5).Canonical := by
  unfold State.publishLanes
  repeat' first
    | with_reducible assumption | intro _ | with_reducible apply State.raceLanes_canonical | with_reducible apply State.publish_canonical
    | with_reducible apply canonical_foldl

theorem State.recallHome_canonical (s : State) (a1 : Req) (h0 : s.Canonical) :
    (State.recallHome s a1).Canonical := by
  unfold State.recallHome
  repeat' first
    | with_reducible assumption | intro _ | (simp only [canonical_mk]; refine canonical_fold ?_)
    | with_reducible apply State.evictL1_canonical | with_reducible apply State.ensureAlone_canonical
    | with_reducible apply State.closeLine_canonical | with_reducible apply canonical_ite | with_reducible apply canonical_foldl

theorem State.storeInL1_canonical (s : State) (a1 : Req) (a2 : Nat) (a3 : Mask) (h0 : s.Canonical) :
    optCanonical (State.storeInL1 s a1 a2 a3) := by
  unfold State.storeInL1
  repeat' first
    | with_reducible assumption | intro _ | (simp only [canonical_mk]; refine canonical_fold ?_)
    | with_reducible apply State.fillL1_canonical | with_reducible apply State.closeLine_canonical
    | with_reducible apply State.putL1_canonical | with_reducible apply State.lanesDone_canonical
    | with_reducible apply State.raceLanes_canonical | with_reducible apply optCanonical_map

theorem State.gathered_canonical (s : State) (a1 : Nat) (a2 : Nat) (h0 : s.Canonical) :
    (State.gathered s a1 a2).Canonical := by
  unfold State.gathered
  repeat' first
    | with_reducible assumption | (simp only [canonical_mk]; refine canonical_fold ?_)

theorem State.storeOnDie_canonical (s : State) (a1 : Req) (a2 : Nat) (a3 : Mask) (h0 : s.Canonical) :
    optCanonical (State.storeOnDie s a1 a2 a3) := by
  unfold State.storeOnDie
  repeat' first
    | with_reducible assumption | with_reducible apply State.flushL1_canonical | with_reducible apply State.dropSynonyms_canonical
    | with_reducible apply State.publishLanes_canonical | with_reducible apply State.storeWritten_canonical
    | with_reducible apply State.gathered_canonical | with_reducible apply optCanonical_none | with_reducible apply optCanonical_some
    | with_reducible apply optCanonical_ite | split

theorem State.storeLanes_canonical (s : State) (a1 : Req) (a2 : Nat) (a3 : Mask) (h0 : s.Canonical) :
    optCanonical (State.storeLanes s a1 a2 a3) := by
  unfold State.storeLanes
  repeat' first
    | with_reducible assumption | intro _ | with_reducible apply State.lanesDone_canonical
    | with_reducible apply State.deviceStore_canonical | with_reducible apply State.settleAccess_canonical
    | with_reducible apply State.setReq_canonical | with_reducible apply State.publishLanes_canonical
    | with_reducible apply State.touchRemote_canonical | with_reducible apply State.storeWritten_canonical
    | with_reducible apply State.recallHome_canonical | with_reducible apply State.storeInL1_canonical
    | with_reducible apply State.storeOnDie_canonical | with_reducible apply optCanonical_some | with_reducible apply optCanonical_ite
    | with_reducible apply canonical_foldr

theorem execStorePerformed_canonical (s : State) (h0 : s.Canonical) :
    outCanonical (execStorePerformed s) := by
  unfold execStorePerformed
  repeat' first
    | with_reducible assumption | intro _ | with_reducible apply whenDue_canonical | with_reducible apply State.finishReq_canonical
    | with_reducible apply State.countFrom_canonical | with_reducible apply State.suspend_canonical
    | with_reducible apply State.storeLanes_canonical | with_reducible apply State.foldCount_canonical
    | with_reducible apply optCanonical_none | with_reducible apply optCanonical_some
    | with_reducible refine canonical_of_some (by assumption) ?_ | with_reducible apply optCanonical_ite
    | with_reducible apply optCanonical_bind | with_reducible apply optCanonical_map | split

theorem State.spLane_canonical (s : State) (a1 : SpReq) (a2 : LaneOp) (h0 : s.Canonical) :
    (State.spLane s a1 a2).1.Canonical := by
  unfold State.spLane
  repeat' first
    | with_reducible assumption | (simp only [canonical_mk]; refine canonical_fold ?_) | with_reducible apply State.setCore_canonical
    | with_reducible apply canonical_ite | with_reducible apply canonical_itePair | split

theorem State.spLanes_canonical (s : State) (a1 : SpReq) (a2 : List LaneOp) (h0 : s.Canonical) :
    (State.spLanes s a1 a2).1.Canonical := by
  fun_induction State.spLanes s a1 a2 <;>
  repeat' first
    | with_reducible assumption | (simp only [canonical_mk]; refine canonical_fold ?_) | with_reducible apply State.spLane_canonical
    | with_reducible refine canonical_of_pair (by assumption) ?_ | with_reducible apply_assumption -exfalso -symm

theorem State.meetRows_canonical (s : State) (a1 : SpReq) (a2 : List LaneOp) (a3 : Mask) (h0 : s.Canonical) :
    (State.meetRows s a1 a2 a3).Canonical := by
  unfold State.meetRows
  repeat' first
    | with_reducible assumption | intro _ | with_reducible apply State.setCore_canonical | with_reducible apply canonical_ite
    | with_reducible apply canonical_foldl | split

theorem execSpAccessDone_canonical (s : State) (h0 : s.Canonical) :
    outCanonical (execSpAccessDone s) := by
  unfold execSpAccessDone
  repeat' first
    | with_reducible assumption | intro _ | (simp only [canonical_mk]; refine canonical_fold ?_) | with_reducible apply whenDue_canonical
    | with_reducible apply State.spLanes_canonical | with_reducible apply State.meetRows_canonical
    | with_reducible apply State.raceCopies_canonical | with_reducible apply State.acquired_canonical
    | with_reducible apply State.deliverLanes_canonical | with_reducible apply State.failAccess_canonical
    | with_reducible apply State.settleAccess_canonical | with_reducible apply optCanonical_none | with_reducible apply optCanonical_some
    | with_reducible apply canonical_ite | with_reducible apply optCanonical_ite | with_reducible apply canonical_foldl
    | with_reducible apply optCanonical_bind

theorem State.atomLane_canonical (s : State) (a1 : Req) (a2 : AtomOp) (a3 : Nat) (a4 : LaneOp) (h0 : s.Canonical) :
    (State.atomLane s a1 a2 a3 a4).1.Canonical := by
  unfold State.atomLane
  repeat' first
    | with_reducible assumption | (simp only [canonical_mk]; refine canonical_fold ?_) | with_reducible apply State.deviceStore_canonical
    | with_reducible apply State.publishVersion_canonical | with_reducible apply State.publish_canonical
    | with_reducible apply canonical_itePair | split

theorem State.atomLanes_canonical (s : State) (a1 : AtomOp) (a2 : Nat) (a3 : List LaneOp) (a4 : Req) (h0 : s.Canonical) :
    (State.atomLanes s a1 a2 a3 a4).1.Canonical := by
  fun_induction State.atomLanes s a1 a2 a3 a4 <;>
  repeat' first
    | with_reducible assumption | (simp only [canonical_mk]; refine canonical_fold ?_) | with_reducible apply State.atomLane_canonical
    | with_reducible refine canonical_of_pair (by assumption) ?_ | with_reducible apply_assumption -exfalso -symm

theorem State.recordJournal_canonical (s : State) (a1 : Req) (h0 : s.Canonical) :
    (State.recordJournal s a1).Canonical := by
  unfold State.recordJournal
  repeat' first
    | with_reducible assumption | (simp only [canonical_mk]; refine canonical_fold ?_) | with_reducible apply canonical_ite | split

theorem execAtomAtHome_canonical (s : State) (h0 : s.Canonical) :
    outCanonical (execAtomAtHome s) := by
  unfold execAtomAtHome
  repeat' first
    | with_reducible assumption | intro _ | with_reducible apply whenDue_canonical | with_reducible apply State.suspend_canonical
    | with_reducible apply State.foldCount_canonical | with_reducible apply State.recallHome_canonical
    | with_reducible apply State.atomLanes_canonical | with_reducible apply State.touchRemote_canonical
    | with_reducible apply State.raceLanes_canonical | with_reducible apply State.setReq_canonical
    | with_reducible apply State.recordJournal_canonical | with_reducible apply optCanonical_none | with_reducible apply optCanonical_some
    | with_reducible refine canonical_of_pair (by assumption) ?_ | with_reducible apply canonical_ite
    | with_reducible apply optCanonical_ite | with_reducible apply optCanonical_bind | split | dsimp +zetaDelta only

theorem execAtomReply_canonical (s : State) (h0 : s.Canonical) :
    outCanonical (execAtomReply s) := by
  unfold execAtomReply
  repeat' first
    | with_reducible assumption | intro _ | with_reducible apply whenDue_canonical | with_reducible apply State.finishReq_canonical
    | with_reducible apply State.countFrom_canonical | with_reducible apply State.acquired_canonical
    | with_reducible apply State.deliverLanes_canonical | with_reducible apply optCanonical_none | with_reducible apply optCanonical_some
    | with_reducible apply optCanonical_ite | with_reducible apply optCanonical_bind | split

theorem State.grantU_canonical (s : State) (a1 : Req) (a2 : Nat) (h0 : s.Canonical) :
    (State.grantU s a1 a2).Canonical := by
  unfold State.grantU
  repeat' first
    | with_reducible assumption | (simp only [canonical_mk]; refine canonical_fold ?_) | with_reducible apply State.dropSynonyms_canonical
    | with_reducible apply State.grantLine_canonical | with_reducible apply State.replaceOne_canonical
    | with_reducible apply State.putL1_canonical | with_reducible apply canonical_ite | split

theorem State.markOpen_canonical (s : State) (a1 : Req) (a2 : Nat) (h0 : s.Canonical) :
    (State.markOpen s a1 a2).Canonical := by
  unfold State.markOpen
  repeat' first
    | with_reducible assumption | (simp only [canonical_mk]; refine canonical_fold ?_)

theorem execUpdOpen_canonical (s : State) (h0 : s.Canonical) :
    outCanonical (execUpdOpen s) := by
  unfold execUpdOpen
  repeat' first
    | with_reducible assumption | intro _ | (simp only [canonical_mk]; refine canonical_fold ?_) | with_reducible apply whenDue_canonical
    | with_reducible apply State.grantU_canonical | with_reducible apply State.suspend_canonical
    | with_reducible apply State.markOpen_canonical | with_reducible apply State.closeLine_canonical
    | with_reducible apply State.evictL1_canonical | with_reducible apply State.recallHome_canonical
    | with_reducible apply optCanonical_none | with_reducible apply optCanonical_some | with_reducible apply canonical_ite
    | with_reducible apply optCanonical_ite | with_reducible apply canonical_foldl | with_reducible apply optCanonical_bind | split

theorem State.applyUpd_canonical (s : State) (a1 : Req) (a2 : Nat) (h0 : s.Canonical) :
    (State.applyUpd s a1 a2).Canonical := by
  unfold State.applyUpd
  repeat' first
    | with_reducible assumption | (simp only [canonical_mk]; refine canonical_fold ?_)

theorem execRedAck_canonical (s : State) (h0 : s.Canonical) :
    outCanonical (execRedAck s) := by
  unfold execRedAck
  repeat' first
    | with_reducible assumption | intro _ | with_reducible apply whenDue_canonical | with_reducible apply State.finishReq_canonical
    | with_reducible apply State.countFrom_canonical | with_reducible apply State.raceLanes_canonical
    | with_reducible apply State.applyUpd_canonical | with_reducible apply State.foldCount_canonical
    | with_reducible apply optCanonical_none | with_reducible apply optCanonical_some | with_reducible apply optCanonical_ite
    | with_reducible apply optCanonical_bind | split

theorem execPrfAccept_canonical (s : State) (h0 : s.Canonical) :
    outCanonical (execPrfAccept s) := by
  unfold execPrfAccept
  repeat' first
    | with_reducible assumption | intro _ | with_reducible apply whenDue_canonical | with_reducible apply State.finishReq_canonical
    | with_reducible apply State.fillL1_canonical | with_reducible apply State.touchRemote_canonical
    | with_reducible apply optCanonical_none | with_reducible apply optCanonical_some | with_reducible apply optCanonical_ite
    | with_reducible apply optCanonical_bind | split

theorem State.takeTokens_canonical (s : State) (a1 : Nat) (a2 : Nat) (h0 : s.Canonical) :
    (State.takeTokens s a1 a2).Canonical := by
  unfold State.takeTokens
  repeat' first
    | with_reducible assumption | intro _ | (simp only [canonical_mk]; refine canonical_fold ?_)
    | with_reducible apply State.evictL1_canonical | with_reducible apply State.flushL1_canonical
    | with_reducible apply State.putL1_canonical | with_reducible apply canonical_foldl | split

theorem State.takeToken_canonical (s : State) (a1 : Nat) (a2 : Nat) (h0 : s.Canonical) :
    (State.takeToken s a1 a2).Canonical := by
  unfold State.takeToken
  repeat' first
    | with_reducible assumption | intro _ | (simp only [canonical_mk]; refine canonical_fold ?_)
    | with_reducible apply State.flushL1_canonical | with_reducible apply State.putL1_canonical | with_reducible apply canonical_ite
    | with_reducible apply canonical_foldl | split

theorem State.failTransient_canonical (s : State) (a1 : Nat) (a2 : Nat) (h0 : s.Canonical) :
    (State.failTransient s a1 a2).Canonical := by
  unfold State.failTransient
  repeat' first
    | with_reducible assumption | (simp only [canonical_mk]; refine canonical_fold ?_)

theorem execTokenRequest_canonical (s : State) (h0 : s.Canonical) :
    outCanonical (execTokenRequest s) := by
  unfold execTokenRequest
  repeat' first
    | with_reducible assumption | with_reducible apply whenDue_canonical | with_reducible apply State.takeToken_canonical
    | with_reducible apply State.takeTokens_canonical | with_reducible apply State.failTransient_canonical
    | with_reducible apply optCanonical_none | with_reducible apply optCanonical_some | with_reducible apply canonical_ite
    | with_reducible apply optCanonical_ite

theorem execPersistentRequest_canonical (s : State) (h0 : s.Canonical) :
    outCanonical (execPersistentRequest s) := by
  unfold execPersistentRequest
  repeat' first
    | with_reducible assumption | (simp only [canonical_mk]; refine canonical_fold ?_) | with_reducible apply whenDue_canonical
    | with_reducible apply State.takeTokens_canonical | with_reducible apply optCanonical_none | with_reducible apply optCanonical_some
    | with_reducible apply canonical_ite | with_reducible apply optCanonical_ite | split

theorem execInvalidationArrive_canonical (s : State) (h0 : s.Canonical) :
    outCanonical (execInvalidationArrive s) := by
  unfold execInvalidationArrive
  repeat' first
    | with_reducible assumption | intro _ | with_reducible apply whenDue_canonical | with_reducible apply State.putL1_canonical
    | with_reducible apply State.evictL1_canonical | with_reducible apply optCanonical_some | with_reducible apply canonical_ite
    | with_reducible apply optCanonical_bind

theorem execInvalidationApply_canonical (s : State) (h0 : s.Canonical) :
    outCanonical (execInvalidationApply s) := by
  unfold execInvalidationApply
  repeat' first
    | with_reducible assumption | intro _ | with_reducible apply whenDue_canonical | with_reducible apply State.evictL1_canonical
    | with_reducible apply optCanonical_some | with_reducible apply optCanonical_bind

theorem execL1DirtyWriteback_canonical (s : State) (h0 : s.Canonical) :
    outCanonical (execL1DirtyWriteback s) := by
  unfold execL1DirtyWriteback
  repeat' first
    | with_reducible assumption | intro _ | with_reducible apply whenDue_canonical | with_reducible apply State.flushL1_canonical
    | with_reducible apply optCanonical_some | with_reducible apply optCanonical_bind

theorem execDirectoryGrant_canonical (s : State) (h0 : s.Canonical) :
    outCanonical (execDirectoryGrant s) := by
  unfold execDirectoryGrant
  repeat' first
    | with_reducible assumption | with_reducible apply whenDue_canonical | with_reducible apply State.grantLine_canonical
    | with_reducible apply optCanonical_none | with_reducible apply optCanonical_some | with_reducible apply optCanonical_ite

theorem State.copyGone_canonical (s : State) (a1 : Nat) (a2 : Nat) (h0 : s.Canonical) :
    (State.copyGone s a1 a2).Canonical := by
  unfold State.copyGone
  repeat' first
    | with_reducible assumption | intro _ | (simp only [canonical_mk]; refine canonical_fold ?_)
    | with_reducible apply State.dieMessage_canonical | with_reducible apply State.finishReq_canonical
    | with_reducible apply State.countFrom_canonical | with_reducible apply canonical_ite | with_reducible apply canonical_foldl

theorem execInvalidationAck_canonical (s : State) (h0 : s.Canonical) :
    outCanonical (execInvalidationAck s) := by
  unfold execInvalidationAck
  repeat' first
    | with_reducible assumption | with_reducible apply whenDue_canonical | with_reducible apply State.copyGone_canonical
    | with_reducible apply State.invalidateOn_canonical | with_reducible apply optCanonical_none | with_reducible apply optCanonical_some
    | with_reducible apply optCanonical_ite

theorem execRegionMerge_canonical (s : State) (h0 : s.Canonical) :
    outCanonical (execRegionMerge s) := by
  unfold execRegionMerge
  repeat' first
    | with_reducible assumption | intro _ | (simp only [canonical_mk]; refine canonical_fold ?_) | with_reducible apply whenDue_canonical
    | with_reducible apply State.syncUsed_canonical | with_reducible apply State.countDir_canonical
    | with_reducible apply optCanonical_none | with_reducible apply optCanonical_some | with_reducible apply optCanonical_ite
    | with_reducible apply optCanonical_bind

theorem execLineClose_canonical (s : State) (h0 : s.Canonical) :
    outCanonical (execLineClose s) := by
  unfold execLineClose
  repeat' first
    | with_reducible assumption | intro _ | with_reducible apply whenDue_canonical | with_reducible apply State.closeLine_canonical
    | with_reducible apply optCanonical_none | with_reducible apply optCanonical_some | with_reducible apply optCanonical_ite
    | with_reducible apply optCanonical_bind

theorem execUCopyEvict_canonical (s : State) (h0 : s.Canonical) :
    outCanonical (execUCopyEvict s) := by
  unfold execUCopyEvict
  repeat' first
    | with_reducible assumption | intro _ | (simp only [canonical_mk]; refine canonical_fold ?_) | with_reducible apply whenDue_canonical
    | with_reducible apply State.evictU_canonical | with_reducible apply optCanonical_none | with_reducible apply optCanonical_some
    | with_reducible apply optCanonical_ite | with_reducible apply optCanonical_bind

theorem State.joinRecord_canonical (s : State) (a1 : Nat) (a2 : Nat) (a3 : Record) (a4 : Req) (a5 : Req) (h0 : s.Canonical) :
    (State.joinRecord s a1 a2 a3 a4 a5).Canonical := by
  unfold State.joinRecord
  repeat' first
    | with_reducible assumption | (simp only [canonical_mk]; refine canonical_fold ?_) | with_reducible apply State.setReq_canonical

theorem State.newRecord_canonical (s : State) (a1 : Nat) (a2 : Nat) (a3 : Nat) (a4 : Nat) (a5 : Req) (h0 : s.Canonical) :
    (State.newRecord s a1 a2 a3 a4 a5).1.Canonical := by
  unfold State.newRecord
  repeat' first
    | with_reducible assumption | (simp only [canonical_mk]; refine canonical_fold ?_) | with_reducible apply State.fresh_canonical
    | with_reducible apply State.setReq_canonical

theorem execSwitchCombine_canonical (s : State) (h0 : s.Canonical) :
    outCanonical (execSwitchCombine s) := by
  unfold execSwitchCombine
  repeat' first
    | with_reducible assumption | intro _ | with_reducible apply whenDue_canonical | with_reducible apply State.joinRecord_canonical
    | with_reducible apply State.newRecord_canonical | with_reducible apply optCanonical_none | with_reducible apply optCanonical_some
    | with_reducible apply optCanonical_ite | with_reducible apply optCanonical_bind | split

theorem State.dropRecord_canonical (s : State) (a1 : Record) (h0 : s.Canonical) :
    (State.dropRecord s a1).Canonical := by
  unfold State.dropRecord
  repeat' first
    | with_reducible assumption | (simp only [canonical_mk]; refine canonical_fold ?_)

theorem State.splitReply_canonical (s : State) (a1 : Record) (a2 : Nat) (a3 : Nat) (h0 : s.Canonical) :
    (State.splitReply s a1 a2 a3).Canonical := by
  unfold State.splitReply
  repeat' first
    | with_reducible assumption | intro _ | with_reducible apply State.setReq_canonical | with_reducible apply State.dropRecord_canonical
    | with_reducible apply canonical_ite | with_reducible apply canonical_foldl | split

theorem execDecombine_canonical (s : State) (h0 : s.Canonical) :
    outCanonical (execDecombine s) := by
  unfold execDecombine
  repeat' first
    | with_reducible assumption | intro _ | (simp only [canonical_mk]; refine canonical_fold ?_) | with_reducible apply whenDue_canonical
    | with_reducible apply State.splitReply_canonical | with_reducible apply State.dropRecord_canonical
    | with_reducible apply optCanonical_none | with_reducible apply optCanonical_some | with_reducible apply optCanonical_ite
    | with_reducible apply optCanonical_bind

theorem execLostsplit_canonical (s : State) (h0 : s.Canonical) :
    outCanonical (execLostsplit s) := by
  unfold execLostsplit
  repeat' first
    | with_reducible assumption | intro _ | with_reducible apply whenDue_canonical | with_reducible apply State.splitReply_canonical
    | with_reducible apply optCanonical_none | with_reducible apply optCanonical_some | with_reducible apply optCanonical_ite
    | with_reducible apply optCanonical_bind

theorem execRetired_canonical (s : State) (h0 : s.Canonical) :
    outCanonical (execRetired s) := by
  unfold execRetired
  repeat' first
    | with_reducible assumption | intro _ | with_reducible apply whenDue_canonical | with_reducible apply State.machineCheck_canonical
    | with_reducible apply State.setReq_canonical | with_reducible apply State.dropRecord_canonical
    | with_reducible apply optCanonical_none | with_reducible apply optCanonical_some | with_reducible apply canonical_ite
    | with_reducible apply optCanonical_ite | with_reducible apply canonical_foldl | with_reducible apply optCanonical_bind | split

theorem State.loseAtomic_canonical (s : State) (a1 : Req) (h0 : s.Canonical) :
    (State.loseAtomic s a1).Canonical := by
  unfold State.loseAtomic
  repeat' first
    | with_reducible assumption | intro _ | (simp only [canonical_mk]; refine canonical_fold ?_)
    | with_reducible apply State.setReq_canonical | with_reducible apply State.dropRecord_canonical
    | with_reducible apply State.finishReq_canonical | with_reducible apply State.failAccess_canonical
    | with_reducible apply canonical_ite | with_reducible apply canonical_foldl | split

theorem execAtomlost_canonical (s : State) (h0 : s.Canonical) :
    outCanonical (execAtomlost s) := by
  unfold execAtomlost
  repeat' first
    | with_reducible assumption | intro _ | with_reducible apply whenDue_canonical | with_reducible apply State.loseAtomic_canonical
    | with_reducible apply optCanonical_none | with_reducible apply optCanonical_some | with_reducible apply optCanonical_ite
    | with_reducible apply optCanonical_bind

theorem execAtomlostTimeout_canonical (s : State) (h0 : s.Canonical) :
    outCanonical (execAtomlostTimeout s) := by
  unfold execAtomlostTimeout
  repeat' first
    | with_reducible assumption | intro _ | with_reducible apply whenDue_canonical | with_reducible apply State.loseAtomic_canonical
    | with_reducible apply optCanonical_none | with_reducible apply optCanonical_some | with_reducible apply optCanonical_ite
    | with_reducible apply optCanonical_bind | split

end Sys2Proof.Machine
end

