-- ==== Sys2Proof/Laws/CanonicalWork.lean ====
section
/-! SUPPORT. State.Canonical is kept by the matrix units, copies, barriers, multicast and launched work: one lemma per operation. -/
namespace Sys2Proof.Machine
open Sys2Proof
set_option linter.unusedSimpArgs false

theorem State.nextEngineSeq_canonical (s : State) (a1 : Nat) (h0 : s.Canonical) :
    (State.nextEngineSeq s a1).1.Canonical := by
  unfold State.nextEngineSeq
  repeat' first
    | with_reducible assumption | (simp only [canonical_mk]; refine canonical_fold ?_)

theorem State.addSlice_canonical (s : State) (a1 : Group) (a2 : Slice) (h0 : s.Canonical) :
    (State.addSlice s a1 a2).1.Canonical := by
  unfold State.addSlice
  repeat' first
    | with_reducible assumption | (simp only [canonical_mk]; refine canonical_fold ?_) | with_reducible apply State.setCopyReq_canonical
    | with_reducible apply State.fresh_canonical | with_reducible apply State.nextEngineSeq_canonical | split

theorem State.copy_canonical (s : State) (a1 : EF) (a2 : Instr) (a3 : Bool) (h0 : s.Canonical) :
    outCanonical (State.copy s a1 a2 a3) := by
  unfold State.copy
  repeat' first
    | with_reducible assumption | intro _ | (simp only [canonical_mk]; refine canonical_fold ?_)
    | with_reducible apply State.issue_canonical | with_reducible apply State.raise_canonical | with_reducible apply State.await_canonical
    | with_reducible apply State.addSlice_canonical | with_reducible apply State.startCopies_canonical
    | with_reducible apply State.advance_canonical | with_reducible apply canonical_ite

theorem execCpyLd_canonical (a0 : EF) (s : State) (h1 : s.Canonical) :
    outCanonical (execCpyLd a0 s) := by
  unfold execCpyLd
  repeat' first
    | with_reducible assumption | with_reducible apply State.copy_canonical

theorem execCpySt_canonical (a0 : EF) (s : State) (h1 : s.Canonical) :
    outCanonical (execCpySt a0 s) := by
  unfold execCpySt
  repeat' first
    | with_reducible assumption | with_reducible apply State.copy_canonical

theorem State.pruneCopies_canonical (s : State) (a1 : Nat) (h0 : s.Canonical) :
    (State.pruneCopies s a1).Canonical := by
  unfold State.pruneCopies
  repeat' first
    | with_reducible assumption | (simp only [canonical_mk]; refine canonical_fold ?_)

theorem execCpseal_canonical (a0 : EF) (s : State) (h1 : s.Canonical) :
    outCanonical (execCpseal a0 s) := by
  unfold execCpseal
  repeat' first
    | with_reducible assumption | intro _ | (simp only [canonical_mk]; refine canonical_fold ?_)
    | with_reducible apply State.issue_canonical | with_reducible apply State.await_canonical
    | with_reducible apply State.advance_canonical

theorem State.copyFault_canonical (s : State) (a1 : Issuer) (a2 : CopyReq) (h0 : s.Canonical) :
    (State.copyFault s a1 a2).Canonical := by
  unfold State.copyFault
  repeat' first
    | with_reducible assumption | with_reducible apply State.trap_canonical | with_reducible apply State.setCopyReq_canonical | split

theorem execCpwait_canonical (a0 : EF) (s : State) (h1 : s.Canonical) :
    outCanonical (execCpwait a0 s) := by
  unfold execCpwait
  repeat' first
    | with_reducible assumption | intro _ | (simp only [canonical_mk]; refine canonical_fold ?_)
    | with_reducible apply State.issue_canonical | with_reducible apply State.copyFault_canonical
    | with_reducible apply State.await_canonical | with_reducible apply State.pruneCopies_canonical
    | with_reducible apply State.advance_canonical | with_reducible apply State.acquireAt_canonical | split

theorem State.prepare_canonical (s : State) (a1 : Slice) (h0 : s.Canonical) :
    (State.prepare s a1).1.Canonical := by
  unfold State.prepare
  repeat' first
    | with_reducible assumption | (simp only [canonical_mk]; refine canonical_fold ?_) | with_reducible apply State.reach_canonical
    | with_reducible apply State.engineGet_canonical | with_reducible refine canonical_of_pair (by assumption) ?_
    | with_reducible apply canonical_itePair | split

theorem State.prepareAll_canonical (s : State) (a1 : List Slice) (h0 : s.Canonical) :
    (State.prepareAll s a1).1.Canonical := by
  fun_induction State.prepareAll s a1 <;>
  repeat' first
    | with_reducible assumption | (simp only [canonical_mk]; refine canonical_fold ?_) | with_reducible apply State.prepare_canonical
    | with_reducible refine canonical_of_pair (by assumption) ?_ | with_reducible apply_assumption -exfalso -symm

theorem State.loadElem_canonical (s : State) (a1 : CopyReq) (a2 : Group) (a3 : Slice) (a4 : Nat) (h0 : s.Canonical) :
    (State.loadElem s a1 a2 a3 a4).1.Canonical := by
  unfold State.loadElem
  repeat' first
    | with_reducible assumption | (simp only [canonical_mk]; refine canonical_fold ?_) | with_reducible apply State.reach_canonical
    | with_reducible apply State.engineGet_canonical | with_reducible apply State.charge_canonical
    | with_reducible apply State.spWrite_canonical | with_reducible refine canonical_of_pair (by assumption) ?_
    | with_reducible apply canonical_itePair | split

theorem State.storeElem_canonical (s : State) (a1 : CopyReq) (a2 : Group) (a3 : Slice) (a4 : Nat) (h0 : s.Canonical) :
    (State.storeElem s a1 a2 a3 a4).1.Canonical := by
  unfold State.storeElem
  repeat' first
    | with_reducible assumption | (simp only [canonical_mk]; refine canonical_fold ?_) | with_reducible apply State.reach_canonical
    | with_reducible apply State.charge_canonical | with_reducible apply State.enginePut_canonical
    | with_reducible refine canonical_of_pair (by assumption) ?_ | with_reducible apply canonical_itePair | split

theorem State.copyElem_canonical (s : State) (a1 : CopyReq) (h0 : s.Canonical) :
    (State.copyElem s a1).1.Canonical := by
  unfold State.copyElem
  repeat' first
    | with_reducible assumption | (simp only [canonical_mk]; refine canonical_fold ?_) | with_reducible apply State.storeElem_canonical
    | with_reducible apply State.loadElem_canonical | with_reducible apply State.charge_canonical
    | with_reducible apply State.spWrite_canonical | with_reducible apply canonical_itePair | split

theorem State.copyElems_canonical (s : State) (a1 : CopyReq) (a2 : Nat) (h0 : s.Canonical) :
    (State.copyElems s a1 a2).1.Canonical := by
  fun_induction State.copyElems s a1 a2 <;>
  repeat' first
    | with_reducible assumption | (simp only [canonical_mk]; refine canonical_fold ?_) | with_reducible apply State.copyElem_canonical
    | with_reducible refine canonical_of_pair (by assumption) ?_ | with_reducible apply_assumption -exfalso -symm

theorem State.stopCopy_canonical (s : State) (a1 : CopyReq) (a2 : Failure) (h0 : s.Canonical) :
    (State.stopCopy s a1 a2).Canonical := by
  unfold State.stopCopy
  repeat' first
    | with_reducible assumption | with_reducible apply State.pruneCopies_canonical | with_reducible apply State.setCopyReq_canonical

theorem State.suspendCopy_canonical (s : State) (a1 : CopyReq) (a2 : LookFail) (a3 : BitVec 5) (h0 : s.Canonical) :
    (State.suspendCopy s a1 a2 a3).Canonical := by
  unfold State.suspendCopy
  repeat' first
    | with_reducible assumption | (simp only [canonical_mk]; refine canonical_fold ?_)
    | with_reducible apply State.reportFailure_canonical | with_reducible apply State.stopCopy_canonical
    | with_reducible apply State.setCopyReq_canonical | split

theorem execCopyRequestDone_canonical (s : State) (h0 : s.Canonical) :
    outCanonical (execCopyRequestDone s) := by
  unfold execCopyRequestDone
  repeat' first
    | with_reducible assumption | intro _ | with_reducible apply whenDue_canonical | with_reducible apply State.prepareAll_canonical
    | with_reducible apply State.copyElems_canonical | with_reducible apply State.setCopyReq_canonical
    | with_reducible apply State.pruneCopies_canonical | with_reducible apply State.suspendCopy_canonical
    | with_reducible apply State.stopCopy_canonical | with_reducible apply optCanonical_none | with_reducible apply optCanonical_some
    | with_reducible refine canonical_of_pair (by assumption) ?_ | with_reducible apply canonical_ite
    | with_reducible apply canonical_itePair | with_reducible apply optCanonical_ite | with_reducible apply optCanonical_bind | split
    | dsimp +zetaDelta only

theorem State.barrierDone_canonical (s : State) (a1 : Issuer) (h0 : s.Canonical) :
    (State.barrierDone s a1).Canonical := by
  unfold State.barrierDone
  repeat' first
    | with_reducible assumption | with_reducible apply State.advance_canonical | with_reducible apply State.acquireAt_canonical

theorem State.arriveAt_canonical (s : State) (a1 : Issuer) (a2 : Barrier) (h0 : s.Canonical) :
    (State.arriveAt s a1 a2).1.Canonical := by
  unfold State.arriveAt
  repeat' first
    | with_reducible assumption | (simp only [canonical_mk]; refine canonical_fold ?_) | with_reducible apply State.foldCount_canonical
    | with_reducible apply State.settleBarriers_canonical | with_reducible apply State.setBarrier_canonical
    | with_reducible apply State.setGroup_canonical

theorem State.barStep_canonical (s : State) (a1 : Issuer) (a2 : Instr) (a3 : Nat) (a4 : Bool) (a5 : Bool) (h0 : s.Canonical) :
    (State.barStep s a1 a2 a3 a4 a5).Canonical := by
  unfold State.barStep
  repeat' first
    | with_reducible assumption | (simp only [canonical_mk]; refine canonical_fold ?_) | with_reducible apply State.park_canonical
    | with_reducible apply State.barrierDone_canonical | with_reducible apply State.arriveAt_canonical
    | with_reducible apply State.advance_canonical | with_reducible apply canonical_ite

theorem State.bar_canonical (s : State) (a1 : EF) (a2 : Instr) (a3 : Bool) (a4 : Bool) (h0 : s.Canonical) :
    outCanonical (State.bar s a1 a2 a3 a4) := by
  unfold State.bar
  repeat' first
    | with_reducible assumption | intro _ | (simp only [canonical_mk]; refine canonical_fold ?_)
    | with_reducible apply State.issue_canonical | with_reducible apply State.raise_canonical
    | with_reducible apply State.barrierDone_canonical | with_reducible apply State.barStep_canonical | with_reducible apply canonical_ite
    | split

theorem execBar_canonical (a0 : EF) (s : State) (h1 : s.Canonical) :
    outCanonical (execBar a0 s) := by
  unfold execBar
  repeat' first
    | with_reducible assumption | with_reducible apply State.bar_canonical

theorem execBara_canonical (a0 : EF) (s : State) (h1 : s.Canonical) :
    outCanonical (execBara a0 s) := by
  unfold execBara
  repeat' first
    | with_reducible assumption | with_reducible apply State.bar_canonical

theorem execBarw_canonical (a0 : EF) (s : State) (h1 : s.Canonical) :
    outCanonical (execBarw a0 s) := by
  unfold execBarw
  repeat' first
    | with_reducible assumption | with_reducible apply State.bar_canonical

theorem State.poisonTrap_canonical (s : State) (a1 : Issuer) (h0 : s.Canonical) :
    (State.poisonTrap s a1).Canonical := by
  unfold State.poisonTrap
  repeat' first
    | with_reducible assumption | with_reducible apply State.raise_canonical

theorem State.onObject_canonical (s : State) (a1 : Issuer) (a2 : DWord) (a3 : Nat) (a4 : Nat → Nat → State) (h0 : s.Canonical) (h4 : ∀ x0 x1, (a4 x0 x1).Canonical) :
    (State.onObject s a1 a2 a3 a4).Canonical := by
  unfold State.onObject
  repeat' first
    | with_reducible assumption | (simp only [canonical_mk]; refine canonical_fold ?_) | with_reducible apply State.raise_canonical
    | with_reducible apply State.poisonTrap_canonical | with_reducible apply h4 | with_reducible apply canonical_ite

theorem State.answer_canonical (s : State) (a1 : Issuer) (a2 : BitVec 9) (a3 : Nat) (h0 : s.Canonical) :
    (State.answer s a1 a2 a3).Canonical := by
  unfold State.answer
  repeat' first
    | with_reducible assumption | with_reducible apply State.advance_canonical

theorem execBoinit_canonical (a0 : EF) (s : State) (h1 : s.Canonical) :
    outCanonical (execBoinit a0 s) := by
  unfold execBoinit
  repeat' first
    | with_reducible assumption | intro _ | (simp only [canonical_mk]; refine canonical_fold ?_)
    | with_reducible apply State.issue_canonical | with_reducible apply State.raise_canonical
    | with_reducible apply State.onObject_canonical | with_reducible apply State.advance_canonical
    | with_reducible apply State.initHeader_canonical | with_reducible apply canonical_ite

theorem execBoarr_canonical (a0 : EF) (s : State) (h1 : s.Canonical) :
    outCanonical (execBoarr a0 s) := by
  unfold execBoarr
  repeat' first
    | with_reducible assumption | intro _ | (simp only [canonical_mk]; refine canonical_fold ?_)
    | with_reducible apply State.issue_canonical | with_reducible apply State.onObject_canonical
    | with_reducible apply State.boArrive_canonical | with_reducible apply State.foldCount_canonical
    | with_reducible apply State.answer_canonical

theorem State.stallAll_canonical (s : State) (a1 : Nat) (a2 : Nat) (a3 : Word) (h0 : s.Canonical) :
    (State.stallAll s a1 a2 a3).Canonical := by
  unfold State.stallAll
  repeat' first
    | with_reducible assumption | (simp only [canonical_mk]; refine canonical_fold ?_)

theorem State.boDone_canonical (s : State) (a1 : Issuer) (a2 : Nat) (a3 : Nat) (a4 : Word) (h0 : s.Canonical) :
    (State.boDone s a1 a2 a3 a4).Canonical := by
  unfold State.boDone
  repeat' first
    | with_reducible assumption | (simp only [canonical_mk]; refine canonical_fold ?_) | with_reducible apply State.raise_canonical
    | with_reducible apply State.stallAll_canonical | with_reducible apply State.advance_canonical
    | with_reducible apply State.acquireAt_canonical | with_reducible apply canonical_ite

theorem execBowait_canonical (a0 : EF) (s : State) (h1 : s.Canonical) :
    outCanonical (execBowait a0 s) := by
  unfold execBowait
  repeat' first
    | with_reducible assumption | intro _ | (simp only [canonical_mk]; refine canonical_fold ?_)
    | with_reducible apply State.issue_canonical | with_reducible apply State.boDone_canonical
    | with_reducible apply State.freeHeader_canonical | with_reducible apply State.onObject_canonical
    | with_reducible apply State.await_canonical | with_reducible apply canonical_ite | split

theorem execQinit_canonical (a0 : EF) (s : State) (h1 : s.Canonical) :
    outCanonical (execQinit a0 s) := by
  unfold execQinit
  repeat' first
    | with_reducible assumption | intro _ | (simp only [canonical_mk]; refine canonical_fold ?_)
    | with_reducible apply State.issue_canonical | with_reducible apply State.onObject_canonical
    | with_reducible apply State.initHeader_canonical | with_reducible apply State.advance_canonical
    | with_reducible apply State.setCore_canonical | with_reducible apply canonical_ite

theorem State.onQueue_canonical (s : State) (a1 : Issuer) (a2 : DWord) (a3 : State → Nat → Nat → State) (h0 : s.Canonical) (h3 : ∀ x0 x1 x2, x0.Canonical → (a3 x0 x1 x2).Canonical) :
    (State.onQueue s a1 a2 a3).Canonical := by
  unfold State.onQueue
  repeat' first
    | with_reducible assumption | intro _ | (simp only [canonical_mk]; refine canonical_fold ?_)
    | with_reducible apply State.onObject_canonical | with_reducible apply State.freeHeader_canonical | with_reducible apply h3

theorem State.pushStep_canonical (s : State) (a1 : Issuer) (a2 : Instr) (a3 : DWord) (a4 : Nat) (h0 : s.Canonical) :
    (State.pushStep s a1 a2 a3 a4).Canonical := by
  unfold State.pushStep
  repeat' first
    | with_reducible assumption | intro _ | (simp only [canonical_mk]; refine canonical_fold ?_)
    | with_reducible apply State.onQueue_canonical | with_reducible apply State.advance_canonical
    | with_reducible apply State.qPush_canonical | with_reducible apply State.foldCount_canonical
    | with_reducible apply State.park_canonical | with_reducible apply canonical_ite

theorem execQpush_canonical (a0 : EF) (s : State) (h1 : s.Canonical) :
    outCanonical (execQpush a0 s) := by
  unfold execQpush
  repeat' first
    | with_reducible assumption | intro _ | (simp only [canonical_mk]; refine canonical_fold ?_)
    | with_reducible apply State.issue_canonical | with_reducible apply State.onQueue_canonical
    | with_reducible apply State.advance_canonical | with_reducible apply State.qPush_canonical
    | with_reducible apply State.foldCount_canonical | with_reducible apply State.deliverFailure_canonical
    | with_reducible apply State.pushStep_canonical | with_reducible apply State.park_canonical | with_reducible apply canonical_ite
    | split

theorem execQpop_canonical (a0 : EF) (s : State) (h1 : s.Canonical) :
    outCanonical (execQpop a0 s) := by
  unfold execQpop
  repeat' first
    | with_reducible assumption | intro _ | (simp only [canonical_mk]; refine canonical_fold ?_)
    | with_reducible apply State.issue_canonical | with_reducible apply State.onQueue_canonical
    | with_reducible apply State.await_canonical | with_reducible apply State.qPop_canonical | with_reducible apply State.answer_canonical
    | with_reducible apply State.acquireAt_canonical

theorem execWaitc_canonical (a0 : EF) (s : State) (h1 : s.Canonical) :
    outCanonical (execWaitc a0 s) := by
  unfold execWaitc
  repeat' first
    | with_reducible assumption | intro _ | (simp only [canonical_mk]; refine canonical_fold ?_)
    | with_reducible apply State.issue_canonical | with_reducible apply State.deliverFailure_canonical
    | with_reducible apply State.await_canonical | with_reducible apply State.advance_canonical | split

theorem State.dropWatches_canonical (s : State) (a1 : Nat) (a2 : SlotName) (h0 : s.Canonical) :
    (State.dropWatches s a1 a2).Canonical := by
  unfold State.dropWatches
  repeat' first
    | with_reducible assumption | (simp only [canonical_mk]; refine canonical_fold ?_)

theorem State.watchDone_canonical (s : State) (a1 : Issuer) (a2 : EF) (a3 : Nat) (h0 : s.Canonical) :
    (State.watchDone s a1 a2 a3).Canonical := by
  unfold State.watchDone
  repeat' first
    | with_reducible assumption | (simp only [canonical_mk]; refine canonical_fold ?_) | with_reducible apply State.answer_canonical
    | with_reducible apply State.acquireAt_canonical | with_reducible apply State.dropWatches_canonical

theorem State.parkWatch_canonical (s : State) (a1 : Issuer) (a2 : EF) (a3 : List Nat) (a4 : Bool) (h0 : s.Canonical) :
    (State.parkWatch s a1 a2 a3 a4).Canonical := by
  unfold State.parkWatch
  repeat' first
    | with_reducible assumption | (simp only [canonical_mk]; refine canonical_fold ?_) | with_reducible apply State.setGroup_canonical

theorem State.watchRead_canonical (s : State) (a1 : Issuer) (a2 : EF) (a3 : Nat) (a4 : Nat) (a5 : Nat) (h0 : s.Canonical) :
    (State.watchRead s a1 a2 a3 a4 a5).Canonical := by
  unfold State.watchRead
  repeat' first
    | with_reducible assumption | intro _ | (simp only [canonical_mk]; refine canonical_fold ?_)
    | with_reducible apply State.resolve_canonical | with_reducible apply State.slotFault_canonical
    | with_reducible apply State.parkWatch_canonical | with_reducible apply State.flushL1_canonical
    | with_reducible apply State.engineGet_canonical | with_reducible apply State.dropWatches_canonical
    | with_reducible apply State.watchDone_canonical | with_reducible apply State.acquireAt_canonical
    | with_reducible apply State.fresh_canonical | with_reducible refine canonical_of_pair (by assumption) ?_
    | with_reducible apply canonical_ite | with_reducible apply canonical_foldl | split

theorem execWaitw_canonical (a0 : EF) (s : State) (h1 : s.Canonical) :
    outCanonical (execWaitw a0 s) := by
  unfold execWaitw
  repeat' first
    | with_reducible assumption | intro _ | (simp only [canonical_mk]; refine canonical_fold ?_)
    | with_reducible apply State.issue_canonical | with_reducible apply State.watchDone_canonical
    | with_reducible apply State.watchRead_canonical | with_reducible apply State.raise_canonical | with_reducible apply canonical_ite
    | split

theorem State.wakeBlock_canonical (s : State) (a1 : Nat) (h0 : s.Canonical) :
    (State.wakeBlock s a1).Canonical := by
  unfold State.wakeBlock
  repeat' first
    | with_reducible assumption | (simp only [canonical_mk]; refine canonical_fold ?_) | split

theorem execWatchWake_canonical (s : State) (h0 : s.Canonical) :
    outCanonical (execWatchWake s) := by
  unfold execWatchWake
  repeat' first
    | with_reducible assumption | intro _ | (simp only [canonical_mk]; refine canonical_fold ?_) | with_reducible apply whenDue_canonical
    | with_reducible apply State.closeLine_canonical | with_reducible apply State.wakeBlock_canonical
    | with_reducible apply State.setGroup_canonical | with_reducible apply State.dropWatches_canonical
    | with_reducible apply optCanonical_none | with_reducible apply optCanonical_some | with_reducible apply optCanonical_ite
    | with_reducible apply optCanonical_bind

theorem execWaitwPoll_canonical (s : State) (h0 : s.Canonical) :
    outCanonical (execWaitwPoll s) := by
  unfold execWaitwPoll
  repeat' first
    | with_reducible assumption | intro _ | with_reducible apply whenDue_canonical | with_reducible apply State.wake_canonical
    | with_reducible apply optCanonical_none | with_reducible apply optCanonical_some | with_reducible apply optCanonical_ite
    | with_reducible apply optCanonical_bind

theorem execRgrow_canonical (a0 : EF) (s : State) (h1 : s.Canonical) :
    outCanonical (execRgrow a0 s) := by
  unfold execRgrow
  repeat' first
    | with_reducible assumption | intro _ | (simp only [canonical_mk]; refine canonical_fold ?_)
    | with_reducible apply State.issue_canonical | with_reducible apply State.await_canonical
    | with_reducible apply State.advance_canonical | with_reducible apply State.raise_canonical | with_reducible apply canonical_ite

theorem execRshrink_canonical (a0 : EF) (s : State) (h1 : s.Canonical) :
    outCanonical (execRshrink a0 s) := by
  unfold execRshrink
  repeat' first
    | with_reducible assumption | intro _ | (simp only [canonical_mk]; refine canonical_fold ?_)
    | with_reducible apply State.issue_canonical | with_reducible apply State.advance_canonical
    | with_reducible apply State.await_canonical | with_reducible apply canonical_ite

theorem State.publishTo_canonical (s : State) (a1 : Nat) (a2 : Nat) (a3 : Nat) (a4 : Nat) (h0 : s.Canonical) :
    (State.publishTo s a1 a2 a3 a4).Canonical := by
  unfold State.publishTo
  repeat' first
    | with_reducible assumption | (simp only [canonical_mk]; refine canonical_fold ?_) | with_reducible apply State.storeN_canonical
    | with_reducible apply canonical_ite

theorem State.launchDone_canonical (s : State) (a1 : Issuer) (a2 : EF) (a3 : Nat) (a4 : Nat) (h0 : s.Canonical) :
    (State.launchDone s a1 a2 a3 a4).Canonical := by
  unfold State.launchDone
  repeat' first
    | with_reducible assumption | (simp only [canonical_mk]; refine canonical_fold ?_) | with_reducible apply State.answer_canonical
    | with_reducible apply State.publishTo_canonical

theorem execLaunch_canonical (a0 : EF) (s : State) (h1 : s.Canonical) :
    outCanonical (execLaunch a0 s) := by
  unfold execLaunch
  repeat' first
    | with_reducible assumption | intro _ | (simp only [canonical_mk]; refine canonical_fold ?_)
    | with_reducible apply State.issue_canonical | with_reducible apply State.raise_canonical
    | with_reducible apply State.launchDone_canonical | with_reducible apply State.deliverFailure_canonical
    | with_reducible apply State.park_canonical | with_reducible apply canonical_ite | split

theorem State.enrol_canonical (s : State) (a1 : Group) (a2 : Nat) (a3 : Nat) (h0 : s.Canonical) :
    (State.enrol s a1 a2 a3).Canonical := by
  unfold State.enrol
  repeat' first
    | with_reducible assumption | (simp only [canonical_mk]; refine canonical_fold ?_) | with_reducible apply State.setMGroup_canonical

theorem execMcjoin_canonical (a0 : EF) (s : State) (h1 : s.Canonical) :
    outCanonical (execMcjoin a0 s) := by
  unfold execMcjoin
  repeat' first
    | with_reducible assumption | intro _ | (simp only [canonical_mk]; refine canonical_fold ?_)
    | with_reducible apply State.issue_canonical | with_reducible apply State.raise_canonical
    | with_reducible apply State.answer_canonical | with_reducible apply State.enrol_canonical | with_reducible apply canonical_ite

theorem execMcleave_canonical (a0 : EF) (s : State) (h1 : s.Canonical) :
    outCanonical (execMcleave a0 s) := by
  unfold execMcleave
  repeat' first
    | with_reducible assumption | intro _ | (simp only [canonical_mk]; refine canonical_fold ?_)
    | with_reducible apply State.issue_canonical | with_reducible apply State.raise_canonical
    | with_reducible apply State.mcLeave_canonical | with_reducible apply State.await_canonical
    | with_reducible apply State.advance_canonical | with_reducible apply canonical_ite

theorem State.addLine_canonical (s : State) (a1 : Group) (a2 : Nat) (a3 : Nat) (a4 : Nat) (a5 : DWord) (a6 : Nat) (a7 : Nat) (h0 : s.Canonical) :
    (State.addLine s a1 a2 a3 a4 a5 a6 a7).Canonical := by
  unfold State.addLine
  repeat' first
    | with_reducible assumption | (simp only [canonical_mk]; refine canonical_fold ?_) | with_reducible apply State.fresh_canonical
    | with_reducible apply State.nextSeq_canonical

theorem execMcld_canonical (a0 : EF) (s : State) (h1 : s.Canonical) :
    outCanonical (execMcld a0 s) := by
  unfold execMcld
  repeat' first
    | with_reducible assumption | intro _ | (simp only [canonical_mk]; refine canonical_fold ?_)
    | with_reducible apply State.issue_canonical | with_reducible apply State.raise_canonical
    | with_reducible apply State.addAccess_canonical | with_reducible apply State.addLine_canonical
    | with_reducible apply State.advance_canonical | with_reducible apply canonical_ite | with_reducible apply canonical_foldl

theorem State.setHeld_canonical (s : State) (a1 : Held) (h0 : s.Canonical) :
    (State.setHeld s a1).Canonical := by
  unfold State.setHeld
  repeat' first
    | with_reducible assumption | (simp only [canonical_mk]; refine canonical_fold ?_)

theorem State.ownFill_canonical (s : State) (a1 : Req) (a2 : Nat) (a3 : Member) (a4 : Nat) (h0 : s.Canonical) :
    (State.ownFill s a1 a2 a3 a4).Canonical := by
  unfold State.ownFill
  repeat' first
    | with_reducible assumption | (simp only [canonical_mk]; refine canonical_fold ?_) | with_reducible apply State.readFill_canonical
    | with_reducible apply State.sendFill_canonical

theorem State.enterHeld_canonical (s : State) (a1 : Req) (a2 : Nat) (a3 : Nat) (a4 : Nat) (a5 : Member) (a6 : Nat) (h0 : s.Canonical) :
    (State.enterHeld s a1 a2 a3 a4 a5 a6).Canonical := by
  unfold State.enterHeld
  repeat' first
    | with_reducible assumption | (simp only [canonical_mk]; refine canonical_fold ?_) | with_reducible apply State.ownFill_canonical
    | with_reducible apply State.settleHelds_canonical | with_reducible apply State.setHeld_canonical
    | with_reducible apply State.fresh_canonical | with_reducible apply canonical_ite | split

theorem execHeldEntryEnter_canonical (s : State) (h0 : s.Canonical) :
    outCanonical (execHeldEntryEnter s) := by
  unfold execHeldEntryEnter
  repeat' first
    | with_reducible assumption | intro _ | with_reducible apply whenDue_canonical | with_reducible apply State.touchRemote_canonical
    | with_reducible apply State.finishReq_canonical | with_reducible apply State.enterHeld_canonical
    | with_reducible apply optCanonical_none | with_reducible apply optCanonical_some | with_reducible apply optCanonical_ite
    | with_reducible apply optCanonical_bind | split | dsimp +zetaDelta only

theorem execHeldEntryTimer_canonical (s : State) (h0 : s.Canonical) :
    outCanonical (execHeldEntryTimer s) := by
  unfold execHeldEntryTimer
  repeat' first
    | with_reducible assumption | intro _ | with_reducible apply whenDue_canonical | with_reducible apply State.settleHelds_canonical
    | with_reducible apply State.fire_canonical | with_reducible apply optCanonical_none | with_reducible apply optCanonical_some
    | with_reducible apply optCanonical_ite | with_reducible apply optCanonical_bind

theorem execFillDelivery_canonical (s : State) (h0 : s.Canonical) :
    outCanonical (execFillDelivery s) := by
  unfold execFillDelivery
  repeat' first
    | with_reducible assumption | intro _ | (simp only [canonical_mk]; refine canonical_fold ?_) | with_reducible apply whenDue_canonical
    | with_reducible apply State.boArrive_canonical | with_reducible apply State.spWrite_canonical
    | with_reducible apply State.boFail_canonical | with_reducible apply State.settleHelds_canonical
    | with_reducible apply State.finishLeave_canonical | with_reducible apply optCanonical_some | with_reducible apply optCanonical_bind
    | split | dsimp +zetaDelta only

theorem State.unitReach_canonical (s : State) (a1 : Nat) (a2 : Nat) (a3 : Nat) (a4 : Nat) (a5 : DWord) (a6 : BitVec 5) (a7 : List (Nat × Nat)) (h0 : s.Canonical) :
    (State.unitReach s a1 a2 a3 a4 a5 a6 a7).1.Canonical := by
  unfold State.unitReach
  repeat' first
    | with_reducible assumption | (simp only [canonical_mk]; refine canonical_fold ?_) | with_reducible apply State.reach_canonical
    | with_reducible apply State.nextEngineSeq_canonical | with_reducible apply State.reportFailure_canonical
    | with_reducible apply State.fresh_canonical | with_reducible refine canonical_of_pair (by assumption) ?_ | split

theorem State.fdieGet_canonical (s : State) (a1 : List (Landing × Nat)) (h0 : s.Canonical) :
    (State.fdieGet s a1).1.Canonical := by
  fun_induction State.fdieGet s a1 <;>
  repeat' first
    | with_reducible assumption | (simp only [canonical_mk]; refine canonical_fold ?_) | with_reducible apply State.readClosing_canonical
    | with_reducible apply State.touchAt_canonical | with_reducible refine canonical_of_pair (by assumption) ?_
    | with_reducible apply canonical_itePair | with_reducible apply_assumption -exfalso -symm

theorem State.fdiePut_canonical (s : State) (a1 : List (Landing × Nat)) (a2 : List Byte) (h0 : s.Canonical) :
    (State.fdiePut s a1 a2).Canonical := by
  fun_induction State.fdiePut s a1 a2 <;>
  repeat' first
    | with_reducible assumption | intro _ | (simp only [canonical_mk]; refine canonical_fold ?_)
    | with_reducible apply State.deviceStore_canonical | with_reducible apply State.invalidateHolder_canonical
    | with_reducible apply State.publish_canonical | with_reducible apply State.ensureAlone_canonical | with_reducible apply canonical_ite
    | with_reducible apply canonical_foldl | with_reducible apply_assumption -exfalso -symm

theorem State.readLaunch_canonical (s : State) (a1 : Nat) (a2 : Nat) (a3 : DWord) (a4 : Nat) (h0 : s.Canonical) :
    (State.readLaunch s a1 a2 a3 a4).1.Canonical := by
  unfold State.readLaunch
  repeat' first
    | with_reducible assumption | (simp only [canonical_mk]; refine canonical_fold ?_) | with_reducible apply State.unitReach_canonical
    | with_reducible apply State.fdieGet_canonical | with_reducible refine canonical_of_pair (by assumption) ?_
    | with_reducible apply canonical_itePair | split

theorem State.readPacket_canonical (s : State) (a1 : Nat) (h0 : s.Canonical) :
    (State.readPacket s a1).1.Canonical := by
  unfold State.readPacket
  repeat' first
    | with_reducible assumption | (simp only [canonical_mk]; refine canonical_fold ?_) | with_reducible apply State.readClosing_canonical

theorem State.tileHome_canonical (s : State) (a1 : Nat) (a2 : Option Packet) (a3 : Nat) (h0 : s.Canonical) :
    (State.tileHome s a1 a2 a3).1.Canonical := by
  unfold State.tileHome
  repeat' first
    | with_reducible assumption | (simp only [canonical_mk]; refine canonical_fold ?_) | with_reducible apply State.resolve_canonical
    | with_reducible refine canonical_of_pair (by assumption) ?_ | with_reducible apply canonical_itePair | split

theorem State.workHome_canonical (s : State) (a1 : Nat) (a2 : Option Packet) (a3 : Bool) (h0 : s.Canonical) :
    (State.workHome s a1 a2 a3).1.Canonical := by
  unfold State.workHome
  repeat' first
    | with_reducible assumption | (simp only [canonical_mk]; refine canonical_fold ?_) | with_reducible apply State.tileHome_canonical
    | with_reducible refine canonical_of_pair (by assumption) ?_ | with_reducible apply canonical_itePair | split

theorem State.enterWork_canonical (s : State) (a1 : Nat) (a2 : Bool) (a3 : Nat) (a4 : Nat) (a5 : Nat) (a6 : Bool) (a7 : Option Nat) (a8 : Option Packet) (a9 : Packet) (a10 : Accepted) (h0 : s.Canonical) :
    (State.enterWork s a1 a2 a3 a4 a5 a6 a7 a8 a9 a10).Canonical := by
  unfold State.enterWork
  repeat' first
    | with_reducible assumption | (simp only [canonical_mk]; refine canonical_fold ?_) | with_reducible apply State.workHome_canonical
    | with_reducible apply State.fresh_canonical | with_reducible apply State.setGrid_canonical | split

theorem State.acceptWork_canonical (s : State) (a1 : Nat) (a2 : Nat) (a3 : Option Packet) (a4 : Packet) (h0 : s.Canonical) :
    (State.acceptWork s a1 a2 a3 a4).1.Canonical := by
  unfold State.acceptWork
  repeat' first
    | with_reducible assumption | with_reducible apply State.readLaunch_canonical | with_reducible apply canonical_itePair

theorem State.poolQueued_canonical (s : State) (a1 : Nat) (h0 : s.Canonical) :
    optCanonical (State.poolQueued s a1) := by
  unfold State.poolQueued
  repeat' first
    | with_reducible assumption | (simp only [canonical_mk]; refine canonical_fold ?_) | with_reducible apply optCanonical_none
    | with_reducible apply optCanonical_some | with_reducible apply optCanonical_ite

theorem State.poolServed_canonical (s : State) (a1 : Nat) (h0 : s.Canonical) :
    (State.poolServed s a1).Canonical := by
  unfold State.poolServed
  repeat' first
    | with_reducible assumption | (simp only [canonical_mk]; refine canonical_fold ?_)

theorem State.syncIdle_canonical (s : State) (a1 : Nat) (h0 : s.Canonical) :
    (State.syncIdle s a1).Canonical := by
  unfold State.syncIdle
  repeat' first
    | with_reducible assumption | (simp only [canonical_mk]; refine canonical_fold ?_) | with_reducible apply State.setField_canonical

theorem State.queueError_canonical (s : State) (a1 : Nat) (a2 : Nat) (h0 : s.Canonical) :
    (State.queueError s a1 a2).Canonical := by
  unfold State.queueError
  repeat' first
    | with_reducible assumption | (simp only [canonical_mk]; refine canonical_fold ?_) | with_reducible apply State.interrupt_canonical
    | with_reducible apply State.setField_canonical

theorem execQueueDoorbell_canonical (s : State) (h0 : s.Canonical) :
    outCanonical (execQueueDoorbell s) := by
  unfold execQueueDoorbell
  repeat' first
    | with_reducible assumption | (simp only [canonical_mk]; refine canonical_fold ?_) | with_reducible apply whenDue_canonical
    | with_reducible apply State.queueError_canonical | with_reducible apply State.syncIdle_canonical
    | with_reducible apply State.setField_canonical | with_reducible apply optCanonical_none | with_reducible apply optCanonical_some
    | with_reducible apply optCanonical_ite

theorem execQueueErrClear_canonical (s : State) (h0 : s.Canonical) :
    outCanonical (execQueueErrClear s) := by
  unfold execQueueErrClear
  repeat' first
    | with_reducible assumption | with_reducible apply whenDue_canonical | with_reducible apply State.setField_canonical
    | with_reducible apply optCanonical_none | with_reducible apply optCanonical_some | with_reducible apply optCanonical_ite

theorem State.queueHolds_canonical (s : State) (a1 : Nat) (h0 : s.Canonical) :
    (State.queueHolds s a1).Canonical := by
  unfold State.queueHolds
  repeat' first
    | with_reducible assumption | (simp only [canonical_mk]; refine canonical_fold ?_)

theorem State.queueAdvance_canonical (s : State) (a1 : Nat) (a2 : Nat) (h0 : s.Canonical) :
    (State.queueAdvance s a1 a2).Canonical := by
  unfold State.queueAdvance
  repeat' first
    | with_reducible assumption | (simp only [canonical_mk]; refine canonical_fold ?_) | with_reducible apply State.syncIdle_canonical
    | with_reducible apply State.setField_canonical

theorem State.takePacket_canonical (s : State) (a1 : Nat) (a2 : Nat) (a3 : Nat) (a4 : Option Packet) (a5 : Packet) (h0 : s.Canonical) :
    optCanonical (State.takePacket s a1 a2 a3 a4 a5) := by
  unfold State.takePacket
  repeat' first
    | with_reducible assumption | with_reducible apply State.queueHolds_canonical | with_reducible apply State.queueError_canonical
    | with_reducible apply State.acceptWork_canonical | with_reducible apply State.queueAdvance_canonical
    | with_reducible apply State.enterWork_canonical | with_reducible apply optCanonical_none | with_reducible apply optCanonical_some
    | with_reducible refine canonical_of_pair (by assumption) ?_ | with_reducible apply optCanonical_ite | split

theorem execQueuePacketRead_canonical (s : State) (h0 : s.Canonical) :
    outCanonical (execQueuePacketRead s) := by
  unfold execQueuePacketRead
  repeat' first
    | with_reducible assumption | (simp only [canonical_mk]; refine canonical_fold ?_) | with_reducible apply whenDue_canonical
    | with_reducible apply State.poolQueued_canonical | with_reducible apply State.readPacket_canonical
    | with_reducible apply State.poolServed_canonical | with_reducible apply State.queueHolds_canonical
    | with_reducible apply State.takePacket_canonical | with_reducible apply optCanonical_none | with_reducible apply optCanonical_some
    | with_reducible apply optCanonical_ite

theorem State.dsqAdvance_canonical (s : State) (a1 : Nat) (a2 : Nat) (a3 : Nat) (h0 : s.Canonical) :
    (State.dsqAdvance s a1 a2 a3).Canonical := by
  unfold State.dsqAdvance
  repeat' first
    | with_reducible assumption | (simp only [canonical_mk]; refine canonical_fold ?_) | with_reducible apply State.storeN_canonical

theorem State.reachValid_canonical (s : State) (a1 : Nat) (a2 : Nat) (a3 : DWord) (a4 : List (Nat × Packet)) (h0 : s.Canonical) :
    (State.reachValid s a1 a2 a3 a4).1.Canonical := by
  fun_induction State.reachValid s a1 a2 a3 a4 <;>
  repeat' first
    | with_reducible assumption | (simp only [canonical_mk]; refine canonical_fold ?_) | with_reducible apply State.unitReach_canonical
    | with_reducible refine canonical_of_pair (by assumption) ?_ | with_reducible apply_assumption -exfalso -symm

theorem State.clearValid_canonical (s : State) (a1 : List (List (Landing × Nat) × Packet)) (h0 : s.Canonical) :
    (State.clearValid s a1).Canonical := by
  unfold State.clearValid
  repeat' first
    | with_reducible assumption | intro _ | with_reducible apply State.fdiePut_canonical | with_reducible apply canonical_foldl

theorem State.dsqPacket_canonical (s : State) (a1 : Nat) (a2 : Nat) (a3 : Nat) (h0 : s.Canonical) :
    (State.dsqPacket s a1 a2 a3).1.Canonical := by
  unfold State.dsqPacket
  repeat' first
    | with_reducible assumption | (simp only [canonical_mk]; refine canonical_fold ?_) | with_reducible apply State.unitReach_canonical
    | with_reducible apply State.fdieGet_canonical | with_reducible refine canonical_of_pair (by assumption) ?_ | split

theorem State.dsqHolds_canonical (s : State) (a1 : Nat) (a2 : Nat) (h0 : s.Canonical) :
    (State.dsqHolds s a1 a2).Canonical := by
  unfold State.dsqHolds
  repeat' first
    | with_reducible assumption | (simp only [canonical_mk]; refine canonical_fold ?_)

theorem State.takeDsq_canonical (s : State) (a1 : Nat) (a2 : Nat) (a3 : Nat) (a4 : Option Packet) (a5 : Packet) (a6 : Bool) (h0 : s.Canonical) :
    optCanonical (State.takeDsq s a1 a2 a3 a4 a5 a6) := by
  unfold State.takeDsq
  repeat' first
    | with_reducible assumption | with_reducible apply State.reachValid_canonical | with_reducible apply State.dsqAdvance_canonical
    | with_reducible apply State.clearValid_canonical | with_reducible apply State.enterWork_canonical
    | with_reducible apply State.dsqHolds_canonical | with_reducible apply State.acceptWork_canonical
    | with_reducible apply optCanonical_none | with_reducible apply optCanonical_some
    | with_reducible refine canonical_of_pair (by assumption) ?_ | with_reducible apply optCanonical_ite | split | dsimp +zetaDelta only

theorem execDsqRead_canonical (s : State) (h0 : s.Canonical) :
    outCanonical (execDsqRead s) := by
  unfold execDsqRead
  repeat' first
    | with_reducible assumption | with_reducible apply whenDue_canonical | with_reducible apply State.poolQueued_canonical
    | with_reducible apply State.dsqPacket_canonical | with_reducible apply State.poolServed_canonical
    | with_reducible apply State.takeDsq_canonical | with_reducible apply State.dsqHolds_canonical
    | with_reducible apply optCanonical_none | with_reducible apply optCanonical_some
    | with_reducible refine canonical_of_pair (by assumption) ?_ | with_reducible apply optCanonical_ite | split

theorem execDsqValidTimeout_canonical (s : State) (h0 : s.Canonical) :
    outCanonical (execDsqValidTimeout s) := by
  unfold execDsqValidTimeout
  repeat' first
    | with_reducible assumption | intro _ | (simp only [canonical_mk]; refine canonical_fold ?_) | with_reducible apply whenDue_canonical
    | with_reducible apply optCanonical_none | with_reducible apply optCanonical_some | with_reducible apply optCanonical_ite
    | with_reducible apply optCanonical_bind

theorem State.setWork_canonical (s : State) (a1 : Work) (h0 : s.Canonical) :
    (State.setWork s a1).Canonical := by
  unfold State.setWork
  repeat' first
    | with_reducible assumption | (simp only [canonical_mk]; refine canonical_fold ?_)

theorem execHostPacket_canonical (s : State) (h0 : s.Canonical) :
    outCanonical (execHostPacket s) := by
  unfold execHostPacket
  repeat' first
    | with_reducible assumption | intro _ | with_reducible apply whenDue_canonical | with_reducible apply State.interrupt_canonical
    | with_reducible apply State.setWork_canonical | with_reducible apply optCanonical_none | with_reducible apply optCanonical_some
    | with_reducible apply optCanonical_ite | with_reducible apply optCanonical_bind

theorem execHostdone_canonical (s : State) (h0 : s.Canonical) :
    outCanonical (execHostdone s) := by
  unfold execHostdone
  repeat' first
    | with_reducible assumption | intro _ | with_reducible apply whenDue_canonical | with_reducible apply State.setWork_canonical
    | with_reducible apply optCanonical_some | with_reducible apply optCanonical_bind

theorem State.copyByte_canonical (s : State) (a1 : Work) (a2 : Nat) (h0 : s.Canonical) :
    (State.copyByte s a1 a2).1.Canonical := by
  unfold State.copyByte
  repeat' first
    | with_reducible assumption | (simp only [canonical_mk]; refine canonical_fold ?_) | with_reducible apply State.unitReach_canonical
    | with_reducible apply State.engineGet_canonical | with_reducible apply State.charge_canonical
    | with_reducible apply State.enginePut_canonical | with_reducible refine canonical_of_pair (by assumption) ?_ | split

theorem State.copyBytes_canonical (s : State) (a1 : Work) (a2 : Nat) (a3 : Nat) (h0 : s.Canonical) :
    (State.copyBytes s a1 a2 a3).1.Canonical := by
  fun_induction State.copyBytes s a1 a2 a3 <;>
  repeat' first
    | with_reducible assumption | (simp only [canonical_mk]; refine canonical_fold ?_) | with_reducible apply State.copyByte_canonical
    | with_reducible refine canonical_of_pair (by assumption) ?_ | with_reducible apply_assumption -exfalso -symm

theorem execCopyPacket_canonical (s : State) (h0 : s.Canonical) :
    outCanonical (execCopyPacket s) := by
  unfold execCopyPacket
  repeat' first
    | with_reducible assumption | intro _ | with_reducible apply whenDue_canonical | with_reducible apply State.copyBytes_canonical
    | with_reducible apply State.setWork_canonical | with_reducible apply optCanonical_none | with_reducible apply optCanonical_some
    | with_reducible apply optCanonical_ite | with_reducible apply optCanonical_bind

theorem State.byOwner_canonical (s : State) (a1 : Issuer) (a2 : Bool) (s3 : State) (h0 : s.Canonical) (h3 : s3.Canonical) :
    (State.byOwner s a1 a2 s3).Canonical := by
  unfold State.byOwner
  repeat' first
    | with_reducible assumption | with_reducible apply State.raise_canonical | with_reducible apply canonical_ite

theorem State.syncFeeding_canonical (s : State) (h0 : s.Canonical) :
    (State.syncFeeding s).Canonical := by
  unfold State.syncFeeding
  repeat' first
    | with_reducible assumption | (simp only [canonical_mk]; refine canonical_fold ?_)

theorem State.acquire_canonical (s : State) (a1 : Issuer) (a2 : MX) (a3 : Instr) (h0 : s.Canonical) :
    (State.acquire s a1 a2 a3).Canonical := by
  unfold State.acquire
  repeat' first
    | with_reducible assumption | (simp only [canonical_mk]; refine canonical_fold ?_) | with_reducible apply State.advance_canonical
    | with_reducible apply State.raise_canonical | with_reducible apply State.grantArrays_canonical
    | with_reducible apply State.setMatrix_canonical | with_reducible apply State.park_canonical | with_reducible apply canonical_ite
    | split

theorem execMxacq_canonical (a0 : MX) (s : State) (h1 : s.Canonical) :
    outCanonical (execMxacq a0 s) := by
  unfold execMxacq
  repeat' first
    | with_reducible assumption | intro _ | with_reducible apply State.issue_canonical | with_reducible apply State.acquire_canonical

theorem execMxacqPair_canonical (a0 : MX) (s : State) (h1 : s.Canonical) :
    outCanonical (execMxacqPair a0 s) := by
  unfold execMxacqPair
  repeat' first
    | with_reducible assumption | intro _ | with_reducible apply State.issue_canonical | with_reducible apply State.acquire_canonical

theorem execMxrel_canonical (a0 : MX) (s : State) (h1 : s.Canonical) :
    outCanonical (execMxrel a0 s) := by
  unfold execMxrel
  repeat' first
    | with_reducible assumption | intro _ | with_reducible apply State.issue_canonical | with_reducible apply State.byOwner_canonical
    | with_reducible apply State.syncFeeding_canonical | with_reducible apply State.releaseArrays_canonical
    | with_reducible apply State.advance_canonical | with_reducible apply State.park_canonical | with_reducible apply canonical_ite

theorem execMxrdy_canonical (a0 : MX) (s : State) (h1 : s.Canonical) :
    outCanonical (execMxrdy a0 s) := by
  unfold execMxrdy
  repeat' first
    | with_reducible assumption | intro _ | (simp only [canonical_mk]; refine canonical_fold ?_)
    | with_reducible apply State.issue_canonical | with_reducible apply State.raise_canonical | with_reducible apply State.park_canonical
    | with_reducible apply State.advance_canonical | with_reducible apply State.setMatrix_canonical | with_reducible apply canonical_ite

theorem State.consume_canonical (s : State) (a1 : Group) (a2 : Bool) (h0 : s.Canonical) :
    (State.consume s a1 a2).Canonical := by
  unfold State.consume
  repeat' first
    | with_reducible assumption | (simp only [canonical_mk]; refine canonical_fold ?_) | with_reducible apply State.setMatrix_canonical
    | with_reducible apply State.syncFeeding_canonical

theorem State.byOwnerLanes_canonical (s : State) (a1 : Issuer) (a2 : Bool) (a3 : Mask) (s4 : State) (h0 : s.Canonical) (h4 : s4.Canonical) :
    (State.byOwnerLanes s a1 a2 a3 s4).Canonical := by
  unfold State.byOwnerLanes
  repeat' first
    | with_reducible assumption | with_reducible apply State.advance_canonical | with_reducible apply State.byOwner_canonical
    | with_reducible apply canonical_ite

theorem State.issueOp_canonical (s : State) (a1 : Issuer) (a2 : Mask) (a3 : List Cell) (a4 : Nat → MxOp) (h0 : s.Canonical) :
    (State.issueOp s a1 a2 a3 a4).Canonical := by
  unfold State.issueOp
  repeat' first
    | with_reducible assumption | (simp only [canonical_mk]; refine canonical_fold ?_) | with_reducible apply State.addAccess_canonical
    | with_reducible apply State.advance_canonical | with_reducible apply State.setMatrix_canonical

theorem State.mma_canonical (s : State) (a1 : Issuer) (a2 : MX) (a3 : Instr) (a4 : Bool) (h0 : s.Canonical) :
    (State.mma s a1 a2 a3 a4).Canonical := by
  unfold State.mma
  repeat' first
    | with_reducible assumption | (simp only [canonical_mk]; refine canonical_fold ?_) | with_reducible apply State.byOwnerLanes_canonical
    | with_reducible apply State.raise_canonical | with_reducible apply State.park_canonical
    | with_reducible apply State.consume_canonical | with_reducible apply State.setMatrix_canonical
    | with_reducible apply State.issueOp_canonical | with_reducible apply canonical_ite | split

theorem execMma_canonical (a0 : MX) (s : State) (h1 : s.Canonical) :
    outCanonical (execMma a0 s) := by
  unfold execMma
  repeat' first
    | with_reducible assumption | intro _ | with_reducible apply State.issue_canonical | with_reducible apply State.mma_canonical

theorem execMmab_canonical (a0 : MX) (s : State) (h1 : s.Canonical) :
    outCanonical (execMmab a0 s) := by
  unfold execMmab
  repeat' first
    | with_reducible assumption | intro _ | with_reducible apply State.issue_canonical | with_reducible apply State.mma_canonical

theorem execMxwait_canonical (a0 : MX) (s : State) (h1 : s.Canonical) :
    outCanonical (execMxwait a0 s) := by
  unfold execMxwait
  repeat' first
    | with_reducible assumption | intro _ | (simp only [canonical_mk]; refine canonical_fold ?_)
    | with_reducible apply State.issue_canonical | with_reducible apply State.trap_canonical
    | with_reducible apply State.advance_canonical | with_reducible apply State.park_canonical | with_reducible apply canonical_ite
    | split

theorem execMxrd_canonical (a0 : MX) (s : State) (h1 : s.Canonical) :
    outCanonical (execMxrd a0 s) := by
  unfold execMxrd
  repeat' first
    | with_reducible assumption | intro _ | (simp only [canonical_mk]; refine canonical_fold ?_)
    | with_reducible apply State.issue_canonical | with_reducible apply State.byOwnerLanes_canonical
    | with_reducible apply State.raise_canonical | with_reducible apply State.issueOp_canonical | split

theorem execMxwr_canonical (a0 : MX) (s : State) (h1 : s.Canonical) :
    outCanonical (execMxwr a0 s) := by
  unfold execMxwr
  repeat' first
    | with_reducible assumption | intro _ | (simp only [canonical_mk]; refine canonical_fold ?_)
    | with_reducible apply State.issue_canonical | with_reducible apply State.byOwnerLanes_canonical
    | with_reducible apply State.raise_canonical | with_reducible apply State.issueOp_canonical | split

theorem execMxzero_canonical (a0 : MX) (s : State) (h1 : s.Canonical) :
    outCanonical (execMxzero a0 s) := by
  unfold execMxzero
  repeat' first
    | with_reducible assumption | intro _ | (simp only [canonical_mk]; refine canonical_fold ?_)
    | with_reducible apply State.issue_canonical | with_reducible apply State.byOwnerLanes_canonical
    | with_reducible apply State.issueOp_canonical

theorem execMxst_canonical (a0 : MX) (s : State) (h1 : s.Canonical) :
    outCanonical (execMxst a0 s) := by
  unfold execMxst
  repeat' first
    | with_reducible assumption | intro _ | (simp only [canonical_mk]; refine canonical_fold ?_)
    | with_reducible apply State.issue_canonical | with_reducible apply State.byOwnerLanes_canonical
    | with_reducible apply State.raise_canonical | with_reducible apply State.issueOp_canonical | with_reducible apply canonical_ite

theorem State.coreCheck_canonical (s : State) (a1 : Nat) (a2 : Nat) (a3 : Nat) (h0 : s.Canonical) :
    (State.coreCheck s a1 a2 a3).Canonical := by
  unfold State.coreCheck
  repeat' first
    | with_reducible assumption | with_reducible apply State.machineCheckTo_canonical

theorem State.clearFeatures_canonical (s : State) (a1 : Nat) (a2 : BitVec 5) (h0 : s.Canonical) :
    (State.clearFeatures s a1 a2).Canonical := by
  unfold State.clearFeatures
  repeat' first
    | with_reducible assumption | (simp only [canonical_mk]; refine canonical_fold ?_) | with_reducible apply State.setCore_canonical

theorem State.quitParks_canonical (s : State) (a1 : Group) (h0 : s.Canonical) :
    (State.quitParks s a1).Canonical := by
  unfold State.quitParks
  repeat' first
    | with_reducible assumption | (simp only [canonical_mk]; refine canonical_fold ?_) | with_reducible apply State.leaveFifo_canonical
    | with_reducible apply State.setGroup_canonical

theorem State.beginSave_canonical (s : State) (a1 : Block) (h0 : s.Canonical) :
    optCanonical (State.beginSave s a1) := by
  unfold State.beginSave
  repeat' first
    | with_reducible assumption | intro _ | with_reducible apply State.quitParks_canonical | with_reducible apply State.setBlock_canonical
    | with_reducible apply canonical_foldl | with_reducible apply optCanonical_map

theorem State.beginSaves_canonical (s : State) (a1 : List Block) (h0 : s.Canonical) :
    optCanonical (State.beginSaves s a1) := by
  fun_induction State.beginSaves s a1 <;>
  repeat' first
    | with_reducible assumption | intro _ | with_reducible apply State.beginSave_canonical | with_reducible apply optCanonical_some
    | with_reducible refine canonical_of_some (by assumption) ?_ | with_reducible apply optCanonical_bindOf
    | with_reducible apply_assumption -exfalso -symm

theorem State.requestSave_canonical (s : State) (a1 : Nat) (h0 : s.Canonical) :
    (State.requestSave s a1).Canonical := by
  unfold State.requestSave
  repeat' first
    | with_reducible assumption | with_reducible apply State.beginSaves_canonical | with_reducible apply canonical_ite
    | with_reducible apply canonical_getD | split

theorem State.failSubArrays_canonical (s : State) (a1 : Nat) (a2 : Byte) (h0 : s.Canonical) :
    (State.failSubArrays s a1 a2).Canonical := by
  unfold State.failSubArrays
  repeat' first
    | with_reducible assumption | (simp only [canonical_mk]; refine canonical_fold ?_) | with_reducible apply State.setMatrix_canonical
    | with_reducible apply State.clearFeatures_canonical | with_reducible apply State.coreCheck_canonical
    | with_reducible apply State.requestSave_canonical | with_reducible apply canonical_ite | split

theorem State.maquette_canonical (s : State) (a1 : Nat) (a2 : Byte) (h0 : s.Canonical) :
    (State.maquette s a1 a2).Canonical := by
  unfold State.maquette
  repeat' first
    | with_reducible assumption | (simp only [canonical_mk]; refine canonical_fold ?_)
    | with_reducible apply State.failSubArrays_canonical | with_reducible apply State.setMatrix_canonical

theorem execMxtest_canonical (a0 : MX) (s : State) (h1 : s.Canonical) :
    outCanonical (execMxtest a0 s) := by
  unfold execMxtest
  repeat' first
    | with_reducible assumption | intro _ | (simp only [canonical_mk]; refine canonical_fold ?_)
    | with_reducible apply State.issue_canonical | with_reducible apply State.byOwner_canonical
    | with_reducible apply State.park_canonical | with_reducible apply State.maquette_canonical
    | with_reducible apply State.advance_canonical | with_reducible apply canonical_ite | split

theorem execMaquetteTest_canonical (s : State) (h0 : s.Canonical) :
    outCanonical (execMaquetteTest s) := by
  unfold execMaquetteTest
  repeat' first
    | with_reducible assumption | with_reducible apply whenDue_canonical | with_reducible apply State.maquette_canonical
    | with_reducible apply optCanonical_none | with_reducible apply optCanonical_some | with_reducible apply optCanonical_ite

theorem State.productSlice_canonical (s : State) (a1 : Nat) (a2 : Nat) (a3 : Nat) (a4 : Nat) (a5 : Nat) (a6 : Nat) (a7 : Nat) (a8 : Bool) (a9 : Bool) (a10 : List (List Byte)) (a11 : Nat × ASlice) (h0 : s.Canonical) :
    (State.productSlice s a1 a2 a3 a4 a5 a6 a7 a8 a9 a10 a11).Canonical := by
  unfold State.productSlice
  repeat' first
    | with_reducible assumption | (simp only [canonical_mk]; refine canonical_fold ?_) | with_reducible apply State.setMatrix_canonical

theorem State.spoilWords_canonical (s : State) (a1 : MxOp) (a2 : Nat) (a3 : List Nat) (h0 : s.Canonical) :
    (State.spoilWords s a1 a2 a3).Canonical := by
  unfold State.spoilWords
  repeat' first
    | with_reducible assumption | intro _ | (simp only [canonical_mk]; refine canonical_fold ?_)
    | with_reducible apply State.coreCheck_canonical | with_reducible apply State.setMatrix_canonical
    | with_reducible apply canonical_foldl

theorem State.mendWords_canonical (s : State) (a1 : MxOp) (a2 : Nat) (h0 : s.Canonical) :
    (State.mendWords s a1 a2).Canonical := by
  unfold State.mendWords
  repeat' first
    | with_reducible assumption | intro _ | (simp only [canonical_mk]; refine canonical_fold ?_)
    | with_reducible apply State.setMatrix_canonical | with_reducible apply canonical_foldl

theorem State.storeBank_canonical (s : State) (a1 : Nat) (a2 : Nat) (a3 : Nat) (a4 : Nat) (a5 : Nat) (a6 : Nat) (h0 : s.Canonical) :
    (State.storeBank s a1 a2 a3 a4 a5 a6).Canonical := by
  unfold State.storeBank
  repeat' first
    | with_reducible assumption | intro _ | (simp only [canonical_mk]; refine canonical_fold ?_)
    | with_reducible apply State.spWrite_canonical | with_reducible apply State.raceCopies_canonical
    | with_reducible apply canonical_foldl

theorem State.retireOp_canonical (s : State) (a1 : Group) (a2 : MxOp) (h0 : s.Canonical) :
    (State.retireOp s a1 a2).Canonical := by
  unfold State.retireOp
  repeat' first
    | with_reducible assumption | intro _ | (simp only [canonical_mk]; refine canonical_fold ?_)
    | with_reducible apply State.setMatrix_canonical | with_reducible apply State.productSlice_canonical
    | with_reducible apply State.setGroup_canonical | with_reducible apply State.storeBank_canonical | with_reducible apply canonical_ite
    | with_reducible apply canonical_foldl | split

theorem execMxOpRetire_canonical (s : State) (h0 : s.Canonical) :
    outCanonical (execMxOpRetire s) := by
  unfold execMxOpRetire
  repeat' first
    | with_reducible assumption | intro _ | with_reducible apply whenDue_canonical | with_reducible apply State.spoilWords_canonical
    | with_reducible apply State.mendWords_canonical | with_reducible apply State.retireOp_canonical
    | with_reducible apply State.setMatrix_canonical | with_reducible apply State.setGroup_canonical
    | with_reducible apply State.settleAccess_canonical | with_reducible apply State.syncFeeding_canonical
    | with_reducible apply State.releaseRetired_canonical | with_reducible apply optCanonical_none
    | with_reducible apply optCanonical_some | with_reducible apply canonical_ite | with_reducible apply optCanonical_ite
    | with_reducible apply optCanonical_bind

theorem State.trialAt_canonical (s : State) (a1 : Block) (a2 : Nat) (a3 : Nat) (h0 : s.Canonical) :
    (State.trialAt s a1 a2 a3).Canonical := by
  unfold State.trialAt
  repeat' first
    | with_reducible assumption | intro _ | (simp only [canonical_mk]; refine canonical_fold ?_)
    | with_reducible apply State.setCore_canonical | with_reducible apply canonical_foldl

theorem State.allotOn_canonical (s : State) (a1 : Nat) (a2 : Nat) (a3 : Nat) (h0 : s.Canonical) :
    (State.allotOn s a1 a2 a3).Canonical := by
  unfold State.allotOn
  repeat' first
    | with_reducible assumption | (simp only [canonical_mk]; refine canonical_fold ?_) | with_reducible apply State.setCore_canonical

theorem State.startGroup_canonical (s : State) (a1 : Grid) (a2 : Nat) (a3 : Nat) (a4 : List Nat) (a5 : Nat) (h0 : s.Canonical) :
    (State.startGroup s a1 a2 a3 a4 a5).1.Canonical := by
  unfold State.startGroup
  repeat' first
    | with_reducible assumption | (simp only [canonical_mk]; refine canonical_fold ?_) | with_reducible apply State.fresh_canonical

theorem State.startGroups_canonical (s : State) (a1 : Grid) (a2 : Nat) (a3 : Nat) (a4 : List Nat) (a5 : List Nat) (h0 : s.Canonical) :
    (State.startGroups s a1 a2 a3 a4 a5).1.Canonical := by
  fun_induction State.startGroups s a1 a2 a3 a4 a5 <;>
  repeat' first
    | with_reducible assumption | (simp only [canonical_mk]; refine canonical_fold ?_) | with_reducible apply State.startGroup_canonical
    | with_reducible refine canonical_of_pair (by assumption) ?_ | with_reducible apply_assumption -exfalso -symm

theorem State.pinWindows_canonical (s : State) (a1 : Grid) (a2 : List Nat) (a3 : Nat) (h0 : s.Canonical) :
    (State.pinWindows s a1 a2 a3).Canonical := by
  unfold State.pinWindows
  repeat' first
    | with_reducible assumption | intro _ | (simp only [canonical_mk]; refine canonical_fold ?_)
    | (simp only [canonical_mk]; refine canonical_filter ?_) | with_reducible apply State.fresh_canonical
    | with_reducible apply canonical_foldl | split

theorem State.placeBlock_canonical (s : State) (a1 : Nat) (a2 : List Nat) (a3 : Nat) (h0 : s.Canonical) :
    (State.placeBlock s a1 a2 a3).Canonical := by
  unfold State.placeBlock
  repeat' first
    | with_reducible assumption | intro _ | (simp only [canonical_mk]; refine canonical_fold ?_)
    | with_reducible apply State.pinWindows_canonical | with_reducible apply State.fresh_canonical
    | with_reducible apply State.allotOn_canonical | with_reducible apply State.startGroups_canonical
    | with_reducible apply State.reFuse_canonical | with_reducible apply State.setGrid_canonical | with_reducible apply canonical_foldl
    | split

theorem State.placeRest_canonical (s : State) (a1 : Nat) (a2 : Nat) (a3 : List (List Nat)) (h0 : s.Canonical) :
    (State.placeRest s a1 a2 a3).Canonical := by
  fun_induction State.placeRest s a1 a2 a3 <;>
  repeat' first
    | with_reducible assumption | with_reducible apply State.placeBlock_canonical | with_reducible apply_assumption -exfalso -symm

theorem execBlockPlace_canonical (s : State) (h0 : s.Canonical) :
    outCanonical (execBlockPlace s) := by
  unfold execBlockPlace
  repeat' first
    | with_reducible assumption | intro _ | (simp only [canonical_mk]; refine canonical_fold ?_) | with_reducible apply whenDue_canonical
    | with_reducible apply State.placeBlock_canonical | with_reducible apply State.placeRest_canonical
    | with_reducible apply optCanonical_none | with_reducible apply optCanonical_some | with_reducible apply canonical_ite
    | with_reducible apply optCanonical_ite | with_reducible apply optCanonical_bind

theorem execAffinityTimeout_canonical (s : State) (h0 : s.Canonical) :
    outCanonical (execAffinityTimeout s) := by
  unfold execAffinityTimeout
  repeat' first
    | with_reducible assumption | intro _ | with_reducible apply whenDue_canonical | with_reducible apply State.setGrid_canonical
    | with_reducible apply optCanonical_none | with_reducible apply optCanonical_some | with_reducible apply optCanonical_ite
    | with_reducible apply optCanonical_bind

theorem execSaveRequest_canonical (s : State) (h0 : s.Canonical) :
    outCanonical (execSaveRequest s) := by
  unfold execSaveRequest
  repeat' first
    | with_reducible assumption | intro _ | with_reducible apply whenDue_canonical | with_reducible apply State.requestSave_canonical
    | with_reducible apply optCanonical_none | with_reducible apply optCanonical_some | with_reducible apply optCanonical_ite
    | with_reducible apply optCanonical_bind

theorem execWaitwSaveThreshold_canonical (s : State) (h0 : s.Canonical) :
    outCanonical (execWaitwSaveThreshold s) := by
  unfold execWaitwSaveThreshold
  repeat' first
    | with_reducible assumption | intro _ | (simp only [canonical_mk]; refine canonical_fold ?_) | with_reducible apply whenDue_canonical
    | with_reducible apply State.requestSave_canonical | with_reducible apply optCanonical_none | with_reducible apply optCanonical_some
    | with_reducible apply optCanonical_ite | with_reducible apply optCanonical_bind

theorem State.noteGangs_canonical (s : State) (h0 : s.Canonical) :
    (State.noteGangs s).Canonical := by
  unfold State.noteGangs
  repeat' first
    | with_reducible assumption | (simp only [canonical_mk]; refine canonical_fold ?_)

theorem execGangReserve_canonical (s : State) (h0 : s.Canonical) :
    outCanonical (execGangReserve s) := by
  unfold execGangReserve
  repeat' first
    | with_reducible assumption | intro _ | (simp only [canonical_mk]; refine canonical_fold ?_) | with_reducible apply whenDue_canonical
    | with_reducible apply optCanonical_none | with_reducible apply optCanonical_some | with_reducible apply optCanonical_ite
    | with_reducible apply optCanonical_bind

theorem execGangEvict_canonical (s : State) (h0 : s.Canonical) :
    outCanonical (execGangEvict s) := by
  unfold execGangEvict
  repeat' first
    | with_reducible assumption | intro _ | with_reducible apply whenDue_canonical | with_reducible apply State.requestSave_canonical
    | with_reducible apply optCanonical_none | with_reducible apply optCanonical_some | with_reducible apply optCanonical_ite
    | with_reducible apply optCanonical_bind

theorem execGangTimeout_canonical (s : State) (h0 : s.Canonical) :
    outCanonical (execGangTimeout s) := by
  unfold execGangTimeout
  repeat' first
    | with_reducible assumption | intro _ | (simp only [canonical_mk]; refine canonical_fold ?_) | with_reducible apply whenDue_canonical
    | with_reducible apply State.setGrid_canonical | with_reducible apply optCanonical_none | with_reducible apply optCanonical_some
    | with_reducible apply optCanonical_ite | with_reducible apply optCanonical_bind

theorem State.freeRoom_canonical (s : State) (a1 : Nat) (a2 : Nat) (h0 : s.Canonical) :
    (State.freeRoom s a1 a2).Canonical := by
  unfold State.freeRoom
  repeat' first
    | with_reducible assumption | (simp only [canonical_mk]; refine canonical_fold ?_) | with_reducible apply State.setCore_canonical

theorem execBlockRelease_canonical (s : State) (h0 : s.Canonical) :
    outCanonical (execBlockRelease s) := by
  unfold execBlockRelease
  repeat' first
    | with_reducible assumption | intro _ | (simp only [canonical_mk]; refine canonical_fold ?_) | with_reducible apply whenDue_canonical
    | with_reducible apply State.freeRoom_canonical | with_reducible apply State.reFuse_canonical
    | with_reducible apply State.setBlock_canonical | with_reducible apply optCanonical_none | with_reducible apply optCanonical_some
    | with_reducible apply optCanonical_ite | with_reducible apply canonical_foldl | with_reducible apply optCanonical_bind

theorem State.saveGroup_canonical (s : State) (a1 : Group) (h0 : s.Canonical) :
    (State.saveGroup s a1).Canonical := by
  unfold State.saveGroup
  repeat' first
    | with_reducible assumption | (simp only [canonical_mk]; refine canonical_fold ?_) | with_reducible apply State.setGroup_canonical
    | with_reducible apply canonical_ite

theorem State.keepHeld_canonical (s : State) (a1 : Group) (h0 : s.Canonical) :
    (State.keepHeld s a1).Canonical := by
  unfold State.keepHeld
  repeat' first
    | with_reducible assumption | intro _ | (simp only [canonical_mk]; refine canonical_fold ?_)
    | with_reducible apply State.fresh_canonical | with_reducible apply canonical_foldl

theorem State.suspendMember_canonical (s : State) (a1 : Group) (h0 : s.Canonical) :
    (State.suspendMember s a1).Canonical := by
  unfold State.suspendMember
  repeat' first
    | with_reducible assumption | intro _ | (simp only [canonical_mk]; refine canonical_fold ?_)
    | with_reducible apply State.keepHeld_canonical | with_reducible apply State.withdraw_canonical | with_reducible apply canonical_foldl

theorem State.giveUpArrays_canonical (s : State) (a1 : Block) (a2 : List (Nat × Matrix)) (h0 : s.Canonical) :
    (State.giveUpArrays s a1 a2).Canonical := by
  unfold State.giveUpArrays
  repeat' first
    | with_reducible assumption | intro _ | (simp only [canonical_mk]; refine canonical_fold ?_)
    | with_reducible apply State.setMatrix_canonical | with_reducible apply State.leaveFifo_canonical
    | with_reducible apply State.grantArrays_canonical | with_reducible apply canonical_foldl

theorem execBlockSaved_canonical (s : State) (h0 : s.Canonical) :
    outCanonical (execBlockSaved s) := by
  unfold execBlockSaved
  repeat' first
    | with_reducible assumption | intro _ | (simp only [canonical_mk]; refine canonical_fold ?_) | with_reducible apply whenDue_canonical
    | with_reducible apply State.flushL1_canonical | with_reducible apply State.settleHelds_canonical
    | with_reducible apply State.suspendMember_canonical | with_reducible apply State.saveGroup_canonical
    | with_reducible apply State.syncFeeding_canonical | with_reducible apply State.giveUpArrays_canonical
    | with_reducible apply State.freeRoom_canonical | with_reducible apply State.storeBytes_canonical
    | with_reducible apply State.reFuse_canonical | with_reducible apply State.setBlock_canonical
    | with_reducible apply State.wakeBlock_canonical | with_reducible apply optCanonical_none | with_reducible apply optCanonical_some
    | with_reducible apply canonical_ite | with_reducible apply optCanonical_ite | with_reducible apply canonical_foldl
    | with_reducible apply optCanonical_bind

theorem State.loadImage_canonical (s : State) (a1 : Nat) (a2 : Nat) (a3 : SpImage) (h0 : s.Canonical) :
    (State.loadImage s a1 a2 a3).Canonical := by
  unfold State.loadImage
  repeat' first
    | with_reducible assumption | (simp only [canonical_mk]; refine canonical_fold ?_) | with_reducible apply State.setCore_canonical

theorem State.relog_canonical (s : State) (a1 : Nat) (a2 : List Access) (h0 : s.Canonical) :
    (State.relog s a1 a2).Canonical := by
  fun_induction State.relog s a1 a2 <;>
  repeat' first
    | with_reducible assumption | with_reducible apply_assumption -exfalso -symm

theorem State.spillOut_canonical (s : State) (a1 : Group) (a2 : SlotName) (h0 : s.Canonical) :
    (State.spillOut s a1 a2).Canonical := by
  unfold State.spillOut
  repeat' first
    | with_reducible assumption | intro _ | (simp only [canonical_mk]; refine canonical_fold ?_)
    | with_reducible apply State.storeBytes_canonical | with_reducible apply canonical_ite | with_reducible apply canonical_foldl | split

theorem State.resumeGroup_canonical (s : State) (a1 : Nat) (a2 : Group) (h0 : s.Canonical) :
    (State.resumeGroup s a1 a2).Canonical := by
  unfold State.resumeGroup
  repeat' first
    | with_reducible assumption | (simp only [canonical_mk]; refine canonical_fold ?_) | with_reducible apply State.setGroup_canonical
    | with_reducible apply State.spillOut_canonical | with_reducible apply State.relog_canonical | with_reducible apply canonical_ite

theorem State.resumeReq_canonical (s : State) (a1 : Nat) (a2 : Req) (h0 : s.Canonical) :
    (State.resumeReq s a1 a2).Canonical := by
  unfold State.resumeReq
  repeat' first
    | with_reducible assumption | (simp only [canonical_mk]; refine canonical_fold ?_) | with_reducible apply State.setReq_canonical
    | with_reducible apply State.settleFail_canonical | split

theorem State.rejoin_canonical (s : State) (a1 : Group) (h0 : s.Canonical) :
    (State.rejoin s a1).Canonical := by
  unfold State.rejoin
  repeat' first
    | with_reducible assumption | (simp only [canonical_mk]; refine canonical_fold ?_)

theorem State.putReady_canonical (s : State) (a1 : Nat) (a2 : Matrix) (h0 : s.Canonical) :
    (State.putReady s a1 a2).Canonical := by
  unfold State.putReady
  repeat' first
    | with_reducible assumption | (simp only [canonical_mk]; refine canonical_fold ?_) | with_reducible apply State.setMatrix_canonical
    | with_reducible apply canonical_ite

theorem State.resumeBlock_canonical (s : State) (a1 : Block) (a2 : Nat) (a3 : Nat) (h0 : s.Canonical) :
    (State.resumeBlock s a1 a2 a3).Canonical := by
  unfold State.resumeBlock
  repeat' first
    | with_reducible assumption | intro _ | (simp only [canonical_mk]; refine canonical_fold ?_)
    | with_reducible apply State.allotOn_canonical | with_reducible apply State.loadImage_canonical
    | with_reducible apply State.resumeGroup_canonical | with_reducible apply State.setCore_canonical
    | with_reducible apply State.resumeReq_canonical | with_reducible apply State.setBlock_canonical
    | with_reducible apply State.reFuse_canonical | with_reducible apply State.putReady_canonical
    | with_reducible apply State.grantArrays_canonical | with_reducible apply State.settleHelds_canonical
    | with_reducible apply State.rejoin_canonical | with_reducible apply State.syncFeeding_canonical
    | with_reducible apply State.acquireAt_canonical | with_reducible apply State.settleSlots_canonical
    | with_reducible apply canonical_foldl

theorem State.resumeAll_canonical (s : State) (a1 : List (Nat × Nat)) (h0 : s.Canonical) :
    optCanonical (State.resumeAll s a1) := by
  fun_induction State.resumeAll s a1 <;>
  repeat' first
    | with_reducible assumption | intro _ | with_reducible apply State.resumeBlock_canonical | with_reducible apply optCanonical_none
    | with_reducible apply optCanonical_some | with_reducible apply optCanonical_ite | with_reducible apply optCanonical_bind
    | with_reducible apply_assumption -exfalso -symm

theorem execBlockResume_canonical (s : State) (h0 : s.Canonical) :
    outCanonical (execBlockResume s) := by
  unfold execBlockResume
  repeat' first
    | with_reducible assumption | intro _ | with_reducible apply whenDue_canonical | with_reducible apply State.resumeAll_canonical
    | with_reducible apply optCanonical_none | with_reducible apply optCanonical_ite | with_reducible apply optCanonical_bind

theorem State.countCompletion_canonical (s : State) (a1 : Work) (h0 : s.Canonical) :
    (State.countCompletion s a1).Canonical := by
  unfold State.countCompletion
  repeat' first
    | with_reducible assumption | intro _ | (simp only [canonical_mk]; refine canonical_fold ?_)
    | with_reducible apply State.mergeClock_canonical | with_reducible apply canonical_ite | with_reducible apply canonical_foldl

theorem State.writeCompletion_canonical (s : State) (a1 : Work) (a2 : Nat) (h0 : s.Canonical) :
    optCanonical (State.writeCompletion s a1 a2) := by
  unfold State.writeCompletion
  repeat' first
    | with_reducible assumption | with_reducible apply State.reach_canonical | with_reducible apply State.fdiePut_canonical
    | with_reducible apply State.nextEngineSeq_canonical | with_reducible apply State.reportFailure_canonical
    | with_reducible apply optCanonical_none | with_reducible apply optCanonical_some
    | with_reducible refine canonical_of_pair (by assumption) ?_ | with_reducible apply optCanonical_ite | split

theorem State.statusRecord_canonical (s : State) (a1 : Work) (a2 : Nat) (h0 : s.Canonical) :
    (State.statusRecord s a1 a2).Canonical := by
  unfold State.statusRecord
  repeat' first
    | with_reducible assumption | with_reducible apply State.sendRecord_canonical | with_reducible apply canonical_ite

theorem State.dropGrid_canonical (s : State) (a1 : Nat) (h0 : s.Canonical) :
    (State.dropGrid s a1).Canonical := by
  unfold State.dropGrid
  repeat' first
    | with_reducible assumption | (simp only [canonical_mk]; refine canonical_fold ?_)

theorem State.pruneWorks_canonical (s : State) (h0 : s.Canonical) :
    (State.pruneWorks s).Canonical := by
  unfold State.pruneWorks
  repeat' first
    | with_reducible assumption | (simp only [canonical_mk]; refine canonical_fold ?_)

theorem State.noteReady_canonical (s : State) (h0 : s.Canonical) :
    (State.noteReady s).Canonical := by
  unfold State.noteReady
  repeat' first
    | with_reducible assumption | (simp only [canonical_mk]; refine canonical_fold ?_)

theorem execWorkComplete_canonical (s : State) (h0 : s.Canonical) :
    outCanonical (execWorkComplete s) := by
  unfold execWorkComplete
  repeat' first
    | with_reducible assumption | intro _ | with_reducible apply whenDue_canonical | with_reducible apply State.writeCompletion_canonical
    | with_reducible apply State.countCompletion_canonical | with_reducible apply State.statusRecord_canonical
    | with_reducible apply State.setWork_canonical | with_reducible apply State.setGrid_canonical
    | with_reducible apply State.dropGrid_canonical | with_reducible apply State.pruneWorks_canonical
    | with_reducible apply State.noteReady_canonical | with_reducible apply optCanonical_some
    | with_reducible refine canonical_of_some (by assumption) ?_ | with_reducible apply optCanonical_bind | split

theorem State.setValid_canonical (s : State) (a1 : Nat) (a2 : Bool) (h0 : s.Canonical) :
    (State.setValid s a1 a2).Canonical := by
  unfold State.setValid
  repeat' first
    | with_reducible assumption | with_reducible apply State.storeN_canonical

theorem execContextActivate_canonical (s : State) (h0 : s.Canonical) :
    outCanonical (execContextActivate s) := by
  unfold execContextActivate
  repeat' first
    | with_reducible assumption | (simp only [canonical_mk]; refine canonical_fold ?_) | with_reducible apply whenDue_canonical
    | with_reducible apply State.setValid_canonical | with_reducible apply optCanonical_none | with_reducible apply optCanonical_some
    | with_reducible apply optCanonical_ite | split | dsimp +zetaDelta only

theorem execContextInvalidate_canonical (s : State) (h0 : s.Canonical) :
    outCanonical (execContextInvalidate s) := by
  unfold execContextInvalidate
  repeat' first
    | with_reducible assumption | (simp only [canonical_mk]; refine canonical_fold ?_) | with_reducible apply whenDue_canonical
    | with_reducible apply State.setValid_canonical | with_reducible apply optCanonical_none | with_reducible apply optCanonical_some
    | with_reducible apply optCanonical_ite

theorem execContextRetire_canonical (s : State) (h0 : s.Canonical) :
    outCanonical (execContextRetire s) := by
  unfold execContextRetire
  repeat' first
    | with_reducible assumption | intro _ | (simp only [canonical_mk]; refine canonical_fold ?_) | with_reducible apply whenDue_canonical
    | with_reducible apply optCanonical_none | with_reducible apply optCanonical_some | with_reducible apply optCanonical_ite
    | with_reducible apply optCanonical_bind

end Sys2Proof.Machine
end

