-- ==== Sys2Proof/Laws/CanonicalPlatform.lean ====
section
/-! SUPPORT. State.Canonical is kept by containment, administration, power, the pod and metering: one lemma per operation. -/
namespace Sys2Proof.Machine
open Sys2Proof
set_option linter.unusedSimpArgs false

theorem State.endOne_canonical (s : State) (a1 : Req) (a2 : Nat) (h0 : s.Canonical) :
    (State.endOne s a1 a2).Canonical := by
  unfold State.endOne
  repeat' first
    | with_reducible assumption | (simp only [canonical_mk]; refine canonical_fold ?_) | with_reducible apply State.setReq_canonical
    | with_reducible apply State.finishReq_canonical | with_reducible apply State.settleFail_canonical
    | with_reducible apply canonical_ite | split

theorem State.endReq_canonical (s : State) (a1 : Req) (a2 : Nat) (h0 : s.Canonical) :
    (State.endReq s a1 a2).Canonical := by
  unfold State.endReq
  repeat' first
    | with_reducible assumption | intro _ | (simp only [canonical_mk]; refine canonical_fold ?_)
    | with_reducible apply State.unmerge_canonical | with_reducible apply State.endOne_canonical | with_reducible apply canonical_ite
    | with_reducible apply canonical_foldl

theorem State.endReqs_canonical (s : State) (a1 : Nat) (a2 : Req → Bool) (h0 : s.Canonical) :
    (State.endReqs s a1 a2).Canonical := by
  unfold State.endReqs
  repeat' first
    | with_reducible assumption | intro _ | with_reducible apply State.endReq_canonical | with_reducible apply canonical_ite
    | with_reducible apply canonical_foldl | split

theorem State.nextIncarnation_canonical (s : State) (a1 : Nat) (h0 : s.Canonical) :
    (State.nextIncarnation s a1).Canonical := by
  unfold State.nextIncarnation
  repeat' first
    | with_reducible assumption | (simp only [canonical_mk]; refine canonical_fold ?_) | with_reducible apply State.setRemote_canonical
    | with_reducible apply canonical_ite | split

theorem State.poisonHeld_canonical (s : State) (a1 : Nat) (h0 : s.Canonical) :
    (State.poisonHeld s a1).Canonical := by
  unfold State.poisonHeld
  repeat' first
    | with_reducible assumption | intro _ | (simp only [canonical_mk]; refine canonical_fold ?_)
    | with_reducible apply State.poisonLine_canonical | with_reducible apply canonical_foldl

theorem State.poisonOpen_canonical (s : State) (a1 : Nat) (h0 : s.Canonical) :
    (State.poisonOpen s a1).Canonical := by
  unfold State.poisonOpen
  repeat' first
    | with_reducible assumption | intro _ | (simp only [canonical_mk]; refine canonical_fold ?_)
    | with_reducible apply State.poisonLine_canonical | with_reducible apply canonical_foldl

theorem State.failHelds_canonical (s : State) (a1 : Nat → Bool) (h0 : s.Canonical) :
    (State.failHelds s a1).Canonical := by
  unfold State.failHelds
  repeat' first
    | with_reducible assumption | intro _ | (simp only [canonical_mk]; refine canonical_fold ?_)
    | with_reducible apply State.castTo_canonical | with_reducible apply canonical_foldl

theorem State.loseGroup_canonical (s : State) (a1 : Group) (h0 : s.Canonical) :
    (State.loseGroup s a1).Canonical := by
  unfold State.loseGroup
  repeat' first
    | with_reducible assumption | (simp only [canonical_mk]; refine canonical_fold ?_) | with_reducible apply State.setGroup_canonical
    | with_reducible apply State.endGroup_canonical | with_reducible apply canonical_ite

theorem State.clearDie_canonical (s : State) (a1 : Nat) (h0 : s.Canonical) :
    (State.clearDie s a1).Canonical := by
  unfold State.clearDie
  repeat' first
    | with_reducible assumption | (simp only [canonical_mk]; refine canonical_fold ?_)

theorem State.clearArrays_canonical (s : State) (a1 : Nat) (h0 : s.Canonical) :
    (State.clearArrays s a1).Canonical := by
  unfold State.clearArrays
  repeat' first
    | with_reducible assumption | (simp only [canonical_mk]; refine canonical_fold ?_)

theorem State.setCdis_canonical (s : State) (a1 : Nat) (h0 : s.Canonical) :
    (State.setCdis s a1).Canonical := by
  unfold State.setCdis
  repeat' first
    | with_reducible assumption | with_reducible apply State.setField_canonical

theorem State.loseDie_canonical (s : State) (a1 : Nat) (h0 : s.Canonical) :
    (State.loseDie s a1).Canonical := by
  unfold State.loseDie
  repeat' first
    | with_reducible assumption | intro _ | (simp only [canonical_mk]; refine canonical_fold ?_)
    | with_reducible apply State.poisonOpen_canonical | with_reducible apply State.poisonHeld_canonical
    | with_reducible apply State.endReqs_canonical | with_reducible apply State.failHelds_canonical
    | with_reducible apply State.loseGroup_canonical | with_reducible apply State.copyGone_canonical
    | with_reducible apply State.clearArrays_canonical | with_reducible apply State.clearDie_canonical
    | with_reducible apply State.setCdis_canonical | with_reducible apply State.setDie_canonical | with_reducible apply canonical_foldl
    | split

theorem State.loseRemote_canonical (s : State) (a1 : Nat) (h0 : s.Canonical) :
    (State.loseRemote s a1).Canonical := by
  unfold State.loseRemote
  repeat' first
    | with_reducible assumption | (simp only [canonical_mk]; refine canonical_fold ?_) | with_reducible apply State.endReqs_canonical
    | with_reducible apply State.failHelds_canonical | with_reducible apply State.setRemote_canonical | split

theorem execControlResend_canonical (s : State) (h0 : s.Canonical) :
    outCanonical (execControlResend s) := by
  unfold execControlResend
  repeat' first
    | with_reducible assumption | intro _ | (simp only [canonical_mk]; refine canonical_fold ?_) | with_reducible apply whenDue_canonical
    | with_reducible apply optCanonical_none | with_reducible apply optCanonical_some | with_reducible apply optCanonical_ite
    | with_reducible apply optCanonical_bind

theorem execDomdead_canonical (s : State) (h0 : s.Canonical) :
    outCanonical (execDomdead s) := by
  unfold execDomdead
  repeat' first
    | with_reducible assumption | intro _ | with_reducible apply whenDue_canonical | with_reducible apply State.nextIncarnation_canonical
    | with_reducible apply State.machineCheck_canonical | with_reducible apply State.loseDie_canonical
    | with_reducible apply State.copyGone_canonical | with_reducible apply State.poisonHeld_canonical
    | with_reducible apply State.machineCheckTo_canonical | with_reducible apply State.loseRemote_canonical
    | with_reducible apply optCanonical_none | with_reducible apply optCanonical_some | with_reducible apply optCanonical_ite
    | with_reducible apply canonical_foldl | split

theorem execLate_canonical (s : State) (h0 : s.Canonical) :
    outCanonical (execLate s) := by
  unfold execLate
  repeat' first
    | with_reducible assumption | with_reducible apply whenDue_canonical | with_reducible apply State.sendRecord_canonical
    | with_reducible apply optCanonical_none | with_reducible apply optCanonical_some | with_reducible apply optCanonical_ite

theorem State.endBlock_canonical (s : State) (a1 : Bool) (a2 : Block) (h0 : s.Canonical) :
    (State.endBlock s a1 a2).Canonical := by
  unfold State.endBlock
  repeat' first
    | with_reducible assumption | intro _ | (simp only [canonical_mk]; refine canonical_fold ?_)
    | with_reducible apply State.endGroup_canonical | with_reducible apply State.retire_canonical
    | with_reducible apply State.setGrid_canonical | with_reducible apply canonical_ite | with_reducible apply canonical_foldl | split

theorem State.evacuate_canonical (s : State) (a1 : Bool) (a2 : List Block) (h0 : s.Canonical) :
    (State.evacuate s a1 a2).Canonical := by
  unfold State.evacuate
  repeat' first
    | with_reducible assumption | intro _ | with_reducible apply State.requestSave_canonical
    | with_reducible apply State.endBlock_canonical | with_reducible apply canonical_ite | with_reducible apply canonical_foldl | split

theorem execDieReset_canonical (s : State) (h0 : s.Canonical) :
    outCanonical (execDieReset s) := by
  unfold execDieReset
  repeat' first
    | with_reducible assumption | (simp only [canonical_mk]; refine canonical_fold ?_) | with_reducible apply whenDue_canonical
    | with_reducible apply State.setReg_canonical | with_reducible apply State.evacuate_canonical | with_reducible apply optCanonical_none
    | with_reducible apply optCanonical_some | with_reducible apply optCanonical_ite

theorem State.flushDie_canonical (s : State) (a1 : Nat) (h0 : s.Canonical) :
    (State.flushDie s a1).Canonical := by
  unfold State.flushDie
  repeat' first
    | with_reducible assumption | intro _ | (simp only [canonical_mk]; refine canonical_fold ?_)
    | with_reducible apply State.closeLine_canonical | with_reducible apply State.evictL1_canonical
    | with_reducible apply State.copyGone_canonical | with_reducible apply canonical_foldl

theorem State.testCore_canonical (s : State) (a1 : Nat) (a2 : Byte) (h0 : s.Canonical) :
    (State.testCore s a1 a2).Canonical := by
  unfold State.testCore
  repeat' first
    | with_reducible assumption | (simp only [canonical_mk]; refine canonical_fold ?_) | with_reducible apply State.setMatrix_canonical
    | with_reducible apply State.setCore_canonical

theorem State.resetCore_canonical (s : State) (a1 : Nat) (h0 : s.Canonical) :
    (State.resetCore s a1).Canonical := by
  unfold State.resetCore
  repeat' first
    | with_reducible assumption | (simp only [canonical_mk]; refine canonical_fold ?_) | with_reducible apply State.setCore_canonical

theorem State.restartDie_canonical (s : State) (a1 : Nat) (h0 : s.Canonical) :
    (State.restartDie s a1).Canonical := by
  unfold State.restartDie
  repeat' first
    | with_reducible assumption | intro _ | (simp only [canonical_mk]; refine canonical_fold ?_)
    | with_reducible apply State.setDie_canonical | with_reducible apply State.resetCore_canonical
    | with_reducible apply State.setCore_canonical | with_reducible apply State.testCore_canonical | with_reducible apply canonical_ite
    | with_reducible apply canonical_foldl

theorem execDieEvacuated_canonical (s : State) (h0 : s.Canonical) :
    outCanonical (execDieEvacuated s) := by
  unfold execDieEvacuated
  repeat' first
    | with_reducible assumption | intro _ | (simp only [canonical_mk]; refine canonical_fold ?_) | with_reducible apply whenDue_canonical
    | with_reducible apply State.nextIncarnation_canonical | with_reducible apply State.flushDie_canonical
    | with_reducible apply State.clearDie_canonical | with_reducible apply State.setField_canonical
    | with_reducible apply State.setCdis_canonical | with_reducible apply State.setDie_canonical
    | with_reducible apply State.restartDie_canonical | with_reducible apply optCanonical_none | with_reducible apply optCanonical_some
    | with_reducible apply optCanonical_ite | with_reducible apply optCanonical_bind

theorem execDieResetTimeout_canonical (s : State) (h0 : s.Canonical) :
    outCanonical (execDieResetTimeout s) := by
  unfold execDieResetTimeout
  repeat' first
    | with_reducible assumption | intro _ | (simp only [canonical_mk]; refine canonical_fold ?_) | with_reducible apply whenDue_canonical
    | with_reducible apply State.nextIncarnation_canonical | with_reducible apply State.setField_canonical
    | with_reducible apply State.loseDie_canonical | with_reducible apply optCanonical_none | with_reducible apply optCanonical_some
    | with_reducible apply optCanonical_ite | with_reducible apply optCanonical_bind

theorem execEgressWaitTimeout_canonical (s : State) (h0 : s.Canonical) :
    outCanonical (execEgressWaitTimeout s) := by
  unfold execEgressWaitTimeout
  repeat' first
    | with_reducible assumption | intro _ | with_reducible apply whenDue_canonical | with_reducible apply State.endReq_canonical
    | with_reducible apply optCanonical_none | with_reducible apply optCanonical_some | with_reducible apply optCanonical_ite
    | with_reducible apply optCanonical_bind | split

theorem execFlitCrcError_canonical (s : State) (h0 : s.Canonical) :
    outCanonical (execFlitCrcError s) := by
  unfold execFlitCrcError
  repeat' first
    | with_reducible assumption | with_reducible apply whenDue_canonical | with_reducible apply State.setField_canonical
    | with_reducible apply optCanonical_none | with_reducible apply optCanonical_some | with_reducible apply optCanonical_ite

theorem execLinkRetrain_canonical (s : State) (h0 : s.Canonical) :
    outCanonical (execLinkRetrain s) := by
  unfold execLinkRetrain
  repeat' first
    | with_reducible assumption | (simp only [canonical_mk]; refine canonical_fold ?_) | with_reducible apply whenDue_canonical
    | with_reducible apply State.setField_canonical | with_reducible apply State.setDie_canonical | with_reducible apply optCanonical_none
    | with_reducible apply optCanonical_some | with_reducible apply optCanonical_ite

theorem execLinkdown_canonical (s : State) (h0 : s.Canonical) :
    outCanonical (execLinkdown s) := by
  unfold execLinkdown
  repeat' first
    | with_reducible assumption | (simp only [canonical_mk]; refine canonical_fold ?_) | with_reducible apply whenDue_canonical
    | with_reducible apply State.setDie_canonical | with_reducible apply State.machineCheck_canonical
    | with_reducible apply optCanonical_none | with_reducible apply optCanonical_some | with_reducible apply optCanonical_ite

theorem State.peerHolds_canonical (s : State) (a1 : Nat) (a2 : List Nat) (h0 : s.Canonical) :
    (State.peerHolds s a1 a2).Canonical := by
  fun_induction State.peerHolds s a1 a2 <;>
  repeat' first
    | with_reducible assumption | with_reducible apply State.storeBytes_canonical | with_reducible apply State.setRemote_canonical
    | with_reducible apply_assumption -exfalso -symm | split | dsimp +zetaDelta only

theorem execLinkTrained_canonical (s : State) (h0 : s.Canonical) :
    outCanonical (execLinkTrained s) := by
  unfold execLinkTrained
  repeat' first
    | with_reducible assumption | (simp only [canonical_mk]; refine canonical_fold ?_) | with_reducible apply whenDue_canonical
    | with_reducible apply State.setDie_canonical | with_reducible apply State.setField_canonical
    | with_reducible apply State.setRemote_canonical | with_reducible apply State.peerHolds_canonical
    | with_reducible apply optCanonical_none | with_reducible apply optCanonical_some | with_reducible apply optCanonical_ite | split

theorem execLinepoison_canonical (s : State) (h0 : s.Canonical) :
    outCanonical (execLinepoison s) := by
  unfold execLinepoison
  repeat' first
    | with_reducible assumption | with_reducible apply whenDue_canonical | with_reducible apply State.machineCheck_canonical
    | with_reducible apply State.poisonLine_canonical | with_reducible apply optCanonical_none | with_reducible apply optCanonical_some
    | with_reducible apply optCanonical_ite

theorem execPclr_canonical (s : State) (h0 : s.Canonical) :
    outCanonical (execPclr s) := by
  unfold execPclr
  repeat' first
    | with_reducible assumption | intro _ | (simp only [canonical_mk]; refine canonical_fold ?_) | with_reducible apply whenDue_canonical
    | with_reducible apply State.copyGone_canonical | with_reducible apply State.storeBytes_canonical
    | with_reducible apply optCanonical_none | with_reducible apply optCanonical_some | with_reducible apply optCanonical_ite
    | with_reducible apply canonical_foldl

theorem execSpmark_canonical (s : State) (h0 : s.Canonical) :
    outCanonical (execSpmark s) := by
  unfold execSpmark
  repeat' first
    | with_reducible assumption | (simp only [canonical_mk]; refine canonical_fold ?_) | with_reducible apply whenDue_canonical
    | with_reducible apply State.setCore_canonical | with_reducible apply State.coreCheck_canonical
    | with_reducible apply optCanonical_none | with_reducible apply optCanonical_some | with_reducible apply optCanonical_ite | split

theorem State.tierErr_canonical (s : State) (a1 : Tier) (a2 : Nat) (a3 : Nat) (h0 : s.Canonical) :
    (State.tierErr s a1 a2 a3).Canonical := by
  unfold State.tierErr
  repeat' first
    | with_reducible assumption | with_reducible apply State.setField_canonical

theorem State.tierBusy_canonical (s : State) (a1 : Tier) (a2 : Nat) (a3 : Bool) (h0 : s.Canonical) :
    (State.tierBusy s a1 a2 a3).Canonical := by
  unfold State.tierBusy
  repeat' first
    | with_reducible assumption | with_reducible apply State.setField_canonical

theorem State.setHold_canonical (s : State) (a1 : Tier) (a2 : Nat) (a3 : Nat) (a4 : Bool) (h0 : s.Canonical) :
    (State.setHold s a1 a2 a3 a4).Canonical := by
  unfold State.setHold
  repeat' first
    | with_reducible assumption | (simp only [canonical_mk]; refine canonical_fold ?_) | with_reducible apply State.closeLine_canonical
    | with_reducible apply State.putEntry_canonical | with_reducible apply canonical_ite

theorem execHold_canonical (s : State) (h0 : s.Canonical) :
    outCanonical (execHold s) := by
  unfold execHold
  repeat' first
    | with_reducible assumption | intro _ | with_reducible apply whenDue_canonical | with_reducible apply State.setHold_canonical
    | with_reducible apply optCanonical_some | with_reducible refine State.command_canonical (by assumption) ?_
    | with_reducible apply optCanonical_bind

theorem execRelease_canonical (s : State) (h0 : s.Canonical) :
    outCanonical (execRelease s) := by
  unfold execRelease
  repeat' first
    | with_reducible assumption | intro _ | with_reducible apply whenDue_canonical | with_reducible apply State.setHold_canonical
    | with_reducible apply optCanonical_some | with_reducible refine State.command_canonical (by assumption) ?_
    | with_reducible apply optCanonical_bind

theorem execInval_canonical (s : State) (h0 : s.Canonical) :
    outCanonical (execInval s) := by
  unfold execInval
  repeat' first
    | with_reducible assumption | intro _ | with_reducible apply whenDue_canonical | with_reducible apply State.dropCached_canonical
    | with_reducible apply optCanonical_some | with_reducible refine State.command_canonical (by assumption) ?_
    | with_reducible apply optCanonical_bind

theorem execWrite_canonical (s : State) (h0 : s.Canonical) :
    outCanonical (execWrite s) := by
  unfold execWrite
  repeat' first
    | with_reducible assumption | intro _ | (simp only [canonical_mk]; refine canonical_fold ?_) | with_reducible apply whenDue_canonical
    | with_reducible apply State.closeLine_canonical | with_reducible apply State.tierErr_canonical
    | with_reducible apply State.dropCached_canonical | with_reducible apply State.putEntry_canonical
    | with_reducible apply optCanonical_some | with_reducible refine State.command_canonical (by assumption) ?_
    | with_reducible apply optCanonical_ite | with_reducible apply optCanonical_bind

theorem State.beginCmd_canonical (s : State) (a1 : Tier) (a2 : Nat) (a3 : Nat) (a4 : Nat) (h0 : s.Canonical) :
    (State.beginCmd s a1 a2 a3 a4).Canonical := by
  unfold State.beginCmd
  repeat' first
    | with_reducible assumption | (simp only [canonical_mk]; refine canonical_fold ?_) | with_reducible apply State.tierBusy_canonical

theorem State.endCmd_canonical (s : State) (a1 : TierCmd) (h0 : s.Canonical) :
    (State.endCmd s a1).Canonical := by
  unfold State.endCmd
  repeat' first
    | with_reducible assumption | (simp only [canonical_mk]; refine canonical_fold ?_) | with_reducible apply State.tierBusy_canonical

theorem execDrain_canonical (s : State) (h0 : s.Canonical) :
    outCanonical (execDrain s) := by
  unfold execDrain
  repeat' first
    | with_reducible assumption | intro _ | with_reducible apply whenDue_canonical | with_reducible apply State.endCmd_canonical
    | with_reducible apply State.beginCmd_canonical | with_reducible apply optCanonical_none | with_reducible apply optCanonical_some
    | with_reducible refine State.command_canonical (by assumption) ?_ | with_reducible apply canonical_ite
    | with_reducible apply optCanonical_ite | with_reducible apply optCanonical_bind | split

theorem execDrainTimeout_canonical (s : State) (h0 : s.Canonical) :
    outCanonical (execDrainTimeout s) := by
  unfold execDrainTimeout
  repeat' first
    | with_reducible assumption | intro _ | with_reducible apply whenDue_canonical | with_reducible apply State.tierErr_canonical
    | with_reducible apply State.endCmd_canonical | with_reducible apply optCanonical_none | with_reducible apply optCanonical_some
    | with_reducible apply optCanonical_ite | with_reducible apply optCanonical_bind

theorem State.forceEntry_canonical (s : State) (a1 : Tier) (a2 : Nat) (a3 : Nat) (h0 : s.Canonical) :
    (State.forceEntry s a1 a2 a3).Canonical := by
  unfold State.forceEntry
  repeat' first
    | with_reducible assumption | intro _ | (simp only [canonical_mk]; refine canonical_fold ?_)
    | with_reducible apply State.unmerge_canonical | with_reducible apply State.setReq_canonical
    | with_reducible apply State.finishReq_canonical | with_reducible apply State.settleFail_canonical
    | with_reducible apply canonical_ite | with_reducible apply canonical_foldl | split

theorem execForce_canonical (s : State) (h0 : s.Canonical) :
    outCanonical (execForce s) := by
  unfold execForce
  repeat' first
    | with_reducible assumption | intro _ | with_reducible apply whenDue_canonical | with_reducible apply State.forceEntry_canonical
    | with_reducible apply optCanonical_some | with_reducible refine State.command_canonical (by assumption) ?_
    | with_reducible apply optCanonical_bind

theorem State.shootRange_canonical (s : State) (a1 : Nat) (a2 : Nat) (h0 : s.Canonical) :
    (State.shootRange s a1 a2).Canonical := by
  unfold State.shootRange
  repeat' first
    | with_reducible assumption | intro _ | (simp only [canonical_mk]; refine canonical_fold ?_)
    | with_reducible apply State.closeLine_canonical | with_reducible apply State.evictL1_canonical
    | with_reducible apply State.copyGone_canonical | with_reducible apply canonical_foldl

theorem State.shootLost_canonical (s : State) (a1 : Tier) (a2 : Nat) (a3 : List Nat) (h0 : s.Canonical) :
    (State.shootLost s a1 a2 a3).Canonical := by
  fun_induction State.shootLost s a1 a2 a3 <;>
  repeat' first
    | with_reducible assumption | (simp only [canonical_mk]; refine canonical_fold ?_) | with_reducible apply State.loseDie_canonical
    | with_reducible apply State.nextIncarnation_canonical | with_reducible apply State.tierErr_canonical
    | with_reducible apply State.machineCheck_canonical | with_reducible apply canonical_ite
    | with_reducible apply_assumption -exfalso -symm

theorem execShoot_canonical (s : State) (h0 : s.Canonical) :
    outCanonical (execShoot s) := by
  unfold execShoot
  repeat' first
    | with_reducible assumption | intro _ | (simp only [canonical_mk]; refine canonical_fold ?_) | with_reducible apply whenDue_canonical
    | with_reducible apply State.shootRange_canonical | with_reducible apply State.shootLost_canonical
    | with_reducible apply State.endCmd_canonical | with_reducible apply State.beginCmd_canonical | with_reducible apply optCanonical_none
    | with_reducible apply optCanonical_some | with_reducible refine State.command_canonical (by assumption) ?_
    | with_reducible apply canonical_ite | with_reducible apply optCanonical_ite | with_reducible apply optCanonical_bind | split

theorem State.retryReq_canonical (s : State) (a1 : Req) (h0 : s.Canonical) :
    (State.retryReq s a1).Canonical := by
  unfold State.retryReq
  repeat' first
    | with_reducible assumption | (simp only [canonical_mk]; refine canonical_fold ?_) | with_reducible apply State.setReq_canonical
    | with_reducible apply canonical_ite | split

theorem State.failReq_canonical (s : State) (a1 : Req) (h0 : s.Canonical) :
    (State.failReq s a1).Canonical := by
  unfold State.failReq
  repeat' first
    | with_reducible assumption | with_reducible apply State.setReq_canonical | with_reducible apply State.settleFail_canonical
    | with_reducible apply canonical_ite | split

theorem State.verdictTag_canonical (s : State) (a1 : Nat) (a2 : DWord) (h0 : s.Canonical) :
    (State.verdictTag s a1 a2).Canonical := by
  unfold State.verdictTag
  repeat' first
    | with_reducible assumption | with_reducible apply State.setReg_canonical | with_reducible apply canonical_ite

theorem State.judge_canonical (s : State) (a1 : Nat) (a2 : DWord) (a3 : State → Req → State) (h0 : s.Canonical) (h3 : ∀ x0 x1, x0.Canonical → (a3 x0 x1).Canonical) :
    (State.judge s a1 a2 a3).Canonical := by
  unfold State.judge
  repeat' first
    | with_reducible assumption | intro _ | with_reducible apply h3 | with_reducible apply canonical_ite
    | with_reducible apply canonical_foldl | split

theorem execVerdictRetry_canonical (s : State) (h0 : s.Canonical) :
    outCanonical (execVerdictRetry s) := by
  unfold execVerdictRetry
  repeat' first
    | with_reducible assumption | intro _ | with_reducible apply whenDue_canonical | with_reducible apply State.verdictTag_canonical
    | with_reducible apply State.judge_canonical | with_reducible apply State.retryReq_canonical
    | with_reducible apply State.setCopyReq_canonical | with_reducible apply optCanonical_none | with_reducible apply optCanonical_some
    | with_reducible apply optCanonical_ite | split | dsimp +zetaDelta only

theorem execVerdictFail_canonical (s : State) (h0 : s.Canonical) :
    outCanonical (execVerdictFail s) := by
  unfold execVerdictFail
  repeat' first
    | with_reducible assumption | intro _ | with_reducible apply whenDue_canonical | with_reducible apply State.verdictTag_canonical
    | with_reducible apply State.judge_canonical | with_reducible apply State.failReq_canonical
    | with_reducible apply State.stopCopy_canonical | with_reducible apply optCanonical_none | with_reducible apply optCanonical_some
    | with_reducible apply optCanonical_ite | split | dsimp +zetaDelta only

theorem execVerdictTimeout_canonical (s : State) (h0 : s.Canonical) :
    outCanonical (execVerdictTimeout s) := by
  unfold execVerdictTimeout
  repeat' first
    | with_reducible assumption | with_reducible apply whenDue_canonical | with_reducible apply State.failReq_canonical
    | with_reducible apply State.stopCopy_canonical | with_reducible apply optCanonical_none | with_reducible apply optCanonical_some
    | with_reducible apply optCanonical_ite | split

theorem State.putWord_canonical (s : State) (a1 : Nat) (a2 : Nat) (h0 : s.Canonical) :
    (State.putWord s a1 a2).Canonical := by
  unfold State.putWord
  repeat' first
    | with_reducible assumption | (simp only [canonical_mk]; refine canonical_fold ?_) | with_reducible apply State.fdiePut_canonical

theorem State.scanPage_canonical (s : State) (a1 : Nat) (a2 : Nat) (a3 : Nat) (a4 : Nat) (a5 : Nat) (a6 : Nat) (h0 : s.Canonical) :
    (State.scanPage s a1 a2 a3 a4 a5 a6).1.Canonical := by
  unfold State.scanPage
  repeat' first
    | with_reducible assumption | (simp only [canonical_mk]; refine canonical_fold ?_) | with_reducible apply State.walk_canonical
    | with_reducible apply State.putWord_canonical | with_reducible apply State.shootRange_canonical
    | with_reducible apply canonical_itePair

theorem State.scanPages_canonical (s : State) (a1 : Nat) (a2 : Nat) (a3 : Nat) (a4 : Nat) (a5 : Nat) (a6 : List Nat) (h0 : s.Canonical) :
    (State.scanPages s a1 a2 a3 a4 a5 a6).1.Canonical := by
  fun_induction State.scanPages s a1 a2 a3 a4 a5 a6 <;>
  repeat' first
    | with_reducible assumption | (simp only [canonical_mk]; refine canonical_fold ?_) | with_reducible apply State.scanPage_canonical
    | with_reducible refine canonical_of_pair (by assumption) ?_ | with_reducible apply_assumption -exfalso -symm

theorem State.scanList_canonical (s : State) (a1 : Nat) (a2 : List Nat) (h0 : s.Canonical) :
    (State.scanList s a1 a2).1.Canonical := by
  fun_induction State.scanList s a1 a2 <;>
  repeat' first
    | with_reducible assumption | (simp only [canonical_mk]; refine canonical_fold ?_) | with_reducible apply State.readClosing_canonical
    | with_reducible apply State.scanPages_canonical | with_reducible refine canonical_of_pair (by assumption) ?_
    | with_reducible apply_assumption -exfalso -symm

theorem execWbScan_canonical (s : State) (h0 : s.Canonical) :
    outCanonical (execWbScan s) := by
  unfold execWbScan
  repeat' first
    | with_reducible assumption | (simp only [canonical_mk]; refine canonical_fold ?_) | with_reducible apply whenDue_canonical
    | with_reducible apply State.setDie_canonical | with_reducible apply State.scanList_canonical
    | with_reducible apply State.setField_canonical | with_reducible apply optCanonical_none | with_reducible apply optCanonical_some
    | with_reducible apply optCanonical_ite

theorem execStorageWriteDone_canonical (s : State) (h0 : s.Canonical) :
    outCanonical (execStorageWriteDone s) := by
  unfold execStorageWriteDone
  repeat' first
    | with_reducible assumption | intro _ | (simp only [canonical_mk]; refine canonical_fold ?_) | with_reducible apply whenDue_canonical
    | with_reducible apply State.interrupt_canonical | with_reducible apply State.closeLine_canonical
    | with_reducible apply State.putWord_canonical | with_reducible apply optCanonical_some | with_reducible apply canonical_ite
    | with_reducible apply optCanonical_ite | with_reducible apply optCanonical_bind

theorem State.trainLinks_canonical (s : State) (a1 : List Nat) (h0 : s.Canonical) :
    (State.trainLinks s a1).Canonical := by
  unfold State.trainLinks
  repeat' first
    | with_reducible assumption | intro _ | with_reducible apply State.setField_canonical | with_reducible apply canonical_foldl

theorem State.retrainLinks_canonical (s : State) (a1 : List Nat) (h0 : s.Canonical) :
    (State.retrainLinks s a1).Canonical := by
  unfold State.retrainLinks
  repeat' first
    | with_reducible assumption | with_reducible apply State.trainLinks_canonical

theorem State.disableUnreached_canonical (s : State) (a1 : List Nat) (h0 : s.Canonical) :
    (State.disableUnreached s a1).Canonical := by
  unfold State.disableUnreached
  repeat' first
    | with_reducible assumption | intro _ | (simp only [canonical_mk]; refine canonical_fold ?_)
    | with_reducible apply State.setDie_canonical | with_reducible apply State.setCdis_canonical | with_reducible apply canonical_ite
    | with_reducible apply canonical_foldl

theorem State.powerless_canonical (s : State) (h0 : s.Canonical) :
    (State.powerless s).Canonical :=
  ⟨Sparse.wfFrom_filter _ _ 0 h0.1, reset_mmio_wf⟩

theorem execMainPowerLoss_canonical (s : State) (h0 : s.Canonical) :
    outCanonical (execMainPowerLoss s) := by
  unfold execMainPowerLoss
  repeat' first
    | with_reducible assumption | with_reducible apply whenDue_canonical | with_reducible apply State.powerless_canonical
    | with_reducible apply optCanonical_none | with_reducible apply optCanonical_some | with_reducible apply optCanonical_ite

theorem State.setBootstat_canonical (s : State) (a1 : Nat) (a2 : Nat) (a3 : Bool) (a4 : Bool) (h0 : s.Canonical) :
    (State.setBootstat s a1 a2 a3 a4).Canonical := by
  unfold State.setBootstat
  repeat' first
    | with_reducible assumption | (simp only [canonical_mk]; refine canonical_fold ?_) | with_reducible apply State.setField_canonical

theorem State.testParts_canonical (s : State) (h0 : s.Canonical) :
    (State.testParts s).Canonical := by
  unfold State.testParts
  repeat' first
    | with_reducible assumption | intro _ | (simp only [canonical_mk]; refine canonical_fold ?_)
    | with_reducible apply State.setCore_canonical | with_reducible apply State.testCore_canonical | with_reducible apply canonical_foldl

theorem State.gateAll_canonical (s : State) (a1 : Bool) (h0 : s.Canonical) :
    (State.gateAll s a1).Canonical := by
  unfold State.gateAll
  repeat' first
    | with_reducible assumption | (simp only [canonical_mk]; refine canonical_fold ?_)

theorem State.applyConfig_canonical (s : State) (h0 : s.Canonical) :
    (State.applyConfig s).Canonical := by
  unfold State.applyConfig
  repeat' first
    | with_reducible assumption | intro _ | (simp only [canonical_mk]; refine canonical_fold ?_)
    | with_reducible apply State.setReg_canonical | with_reducible apply State.setDie_canonical
    | with_reducible apply State.setField_canonical | with_reducible apply canonical_foldl

theorem State.coldWork_canonical (s : State) (a1 : Nat) (a2 : List Nat) (h0 : s.Canonical) :
    (State.coldWork s a1 a2).Canonical := by
  unfold State.coldWork
  repeat' first
    | with_reducible assumption | (simp only [canonical_mk]; refine canonical_fold ?_)
    | with_reducible apply State.disableUnreached_canonical | with_reducible apply State.trainLinks_canonical
    | with_reducible apply State.testParts_canonical | with_reducible apply canonical_ite

theorem State.coldFailed_canonical (s : State) (a1 : Nat) (a2 : Nat) (a3 : List Nat) (h0 : s.Canonical) :
    (State.coldFailed s a1 a2 a3).Canonical := by
  unfold State.coldFailed
  repeat' first
    | with_reducible assumption | (simp only [canonical_mk]; refine canonical_fold ?_) | with_reducible apply State.coldWork_canonical
    | with_reducible apply State.gateAll_canonical | with_reducible apply State.setBootstat_canonical

theorem State.runRecovery_canonical (s : State) (h0 : s.Canonical) :
    (State.runRecovery s).Canonical := by
  unfold State.runRecovery
  repeat' first
    | with_reducible assumption | (simp only [canonical_mk]; refine canonical_fold ?_) | with_reducible apply State.gateAll_canonical
    | with_reducible apply State.setBootstat_canonical

theorem State.recoveryFailed_canonical (s : State) (a1 : Nat) (a2 : Nat) (h0 : s.Canonical) :
    (State.recoveryFailed s a1 a2).Canonical := by
  unfold State.recoveryFailed
  repeat' first
    | with_reducible assumption | (simp only [canonical_mk]; refine canonical_fold ?_) | with_reducible apply State.gateAll_canonical
    | with_reducible apply State.setBootstat_canonical

theorem State.coldDone_canonical (s : State) (a1 : List Nat) (h0 : s.Canonical) :
    (State.coldDone s a1).Canonical := by
  unfold State.coldDone
  repeat' first
    | with_reducible assumption | (simp only [canonical_mk]; refine canonical_fold ?_) | with_reducible apply State.coldWork_canonical
    | with_reducible apply State.applyConfig_canonical | with_reducible apply State.setBootstat_canonical

theorem State.beginTransition_canonical (s : State) (a1 : List Nat) (a2 : Bool) (h0 : s.Canonical) :
    (State.beginTransition s a1 a2).Canonical := by
  unfold State.beginTransition
  repeat' first
    | with_reducible assumption | (simp only [canonical_mk]; refine canonical_fold ?_) | with_reducible apply State.setField_canonical
    | with_reducible apply State.evacuate_canonical | with_reducible apply canonical_ite

theorem execEvacuationTimeout_canonical (s : State) (h0 : s.Canonical) :
    outCanonical (execEvacuationTimeout s) := by
  unfold execEvacuationTimeout
  repeat' first
    | with_reducible assumption | intro _ | with_reducible apply whenDue_canonical | with_reducible apply State.endBlock_canonical
    | with_reducible apply optCanonical_none | with_reducible apply optCanonical_some | with_reducible apply optCanonical_ite
    | with_reducible apply canonical_foldl | with_reducible apply optCanonical_bind

theorem State.flushAll_canonical (s : State) (h0 : s.Canonical) :
    (State.flushAll s).Canonical := by
  unfold State.flushAll
  repeat' first
    | with_reducible assumption | intro _ | with_reducible apply State.flushDie_canonical | with_reducible apply canonical_foldl

theorem State.resetDies_canonical (s : State) (h0 : s.Canonical) :
    (State.resetDies s).Canonical := by
  unfold State.resetDies
  repeat' first
    | with_reducible assumption | intro _ | (simp only [canonical_mk]; refine canonical_fold ?_)
    | with_reducible apply State.clearDie_canonical | with_reducible apply State.flushAll_canonical | with_reducible apply canonical_foldl

theorem State.restartDies_canonical (s : State) (h0 : s.Canonical) :
    (State.restartDies s).Canonical := by
  unfold State.restartDies
  repeat' first
    | with_reducible assumption | intro _ | (simp only [canonical_mk]; refine canonical_fold ?_)
    | with_reducible apply State.restartDie_canonical | with_reducible apply State.setField_canonical
    | with_reducible apply canonical_foldl

theorem execWarmStart_canonical (s : State) (h0 : s.Canonical) :
    outCanonical (execWarmStart s) := by
  unfold execWarmStart
  repeat' first
    | with_reducible assumption | (simp only [canonical_mk]; refine canonical_fold ?_) | with_reducible apply whenDue_canonical
    | with_reducible apply State.beginTransition_canonical | with_reducible apply optCanonical_none
    | with_reducible apply optCanonical_some | with_reducible apply optCanonical_ite

theorem execModuleState_canonical (s : State) (h0 : s.Canonical) :
    outCanonical (execModuleState s) := by
  unfold execModuleState
  repeat' first
    | with_reducible assumption | with_reducible apply whenDue_canonical | with_reducible apply State.setField_canonical
    | with_reducible apply State.beginTransition_canonical | with_reducible apply optCanonical_none
    | with_reducible apply optCanonical_some | with_reducible apply optCanonical_ite

theorem execPdie_canonical (s : State) (h0 : s.Canonical) :
    outCanonical (execPdie s) := by
  unfold execPdie
  repeat' first
    | with_reducible assumption | intro _ | (simp only [canonical_mk]; refine canonical_fold ?_) | with_reducible apply whenDue_canonical
    | with_reducible apply State.setField_canonical | with_reducible apply State.setDie_canonical
    | with_reducible apply State.beginTransition_canonical | with_reducible apply optCanonical_none
    | with_reducible apply optCanonical_some | with_reducible apply canonical_ite | with_reducible apply optCanonical_ite
    | with_reducible apply canonical_foldl

theorem execClgate_canonical (s : State) (h0 : s.Canonical) :
    outCanonical (execClgate s) := by
  unfold execClgate
  repeat' first
    | with_reducible assumption | intro _ | with_reducible apply whenDue_canonical | with_reducible apply State.setReg_canonical
    | with_reducible apply State.resetCore_canonical | with_reducible apply State.failSubArrays_canonical
    | with_reducible apply State.beginTransition_canonical | with_reducible apply optCanonical_none
    | with_reducible apply optCanonical_some | with_reducible apply optCanonical_ite | with_reducible apply canonical_foldl

theorem State.enterM3_canonical (s : State) (h0 : s.Canonical) :
    (State.enterM3 s).Canonical := by
  unfold State.enterM3
  repeat' first
    | with_reducible assumption | intro _ | (simp only [canonical_mk]; refine canonical_fold ?_)
    | with_reducible apply State.powerless_canonical | with_reducible apply State.gateAll_canonical
    | with_reducible apply State.setField_canonical | with_reducible apply State.setReg_canonical | with_reducible apply canonical_foldl

theorem State.enterState_canonical (s : State) (a1 : Nat) (a2 : Nat) (a3 : List Nat) (h0 : s.Canonical) :
    (State.enterState s a1 a2 a3).Canonical := by
  unfold State.enterState
  repeat' first
    | with_reducible assumption | (simp only [canonical_mk]; refine canonical_fold ?_) | with_reducible apply State.setField_canonical
    | with_reducible apply State.gateAll_canonical | with_reducible apply State.resetDies_canonical
    | with_reducible apply State.enterM3_canonical | with_reducible apply State.restartDies_canonical
    | with_reducible apply State.disableUnreached_canonical | with_reducible apply State.retrainLinks_canonical
    | with_reducible apply canonical_ite | split

theorem State.warmDone_canonical (s : State) (a1 : Nat) (a2 : List Nat) (h0 : s.Canonical) :
    (State.warmDone s a1 a2).Canonical := by
  unfold State.warmDone
  repeat' first
    | with_reducible assumption | (simp only [canonical_mk]; refine canonical_fold ?_) | with_reducible apply State.resetDies_canonical
    | with_reducible apply State.gateAll_canonical | with_reducible apply State.setBootstat_canonical
    | with_reducible apply State.restartDies_canonical | with_reducible apply State.disableUnreached_canonical
    | with_reducible apply State.retrainLinks_canonical | split

theorem execColdStart_canonical (s : State) (h0 : s.Canonical) :
    outCanonical (execColdStart s) := by
  unfold execColdStart
  repeat' first
    | with_reducible assumption | intro _ | (simp only [canonical_mk]; refine canonical_fold ?_) | with_reducible apply whenDue_canonical
    | with_reducible apply State.powerless_canonical | with_reducible apply State.setReg_canonical
    | with_reducible apply State.setField_canonical | with_reducible apply State.runRecovery_canonical
    | with_reducible apply State.coldDone_canonical | with_reducible apply State.enterM3_canonical
    | with_reducible apply State.setBootstat_canonical | with_reducible apply State.coldWork_canonical
    | with_reducible apply State.recoveryFailed_canonical | with_reducible apply State.coldFailed_canonical
    | with_reducible apply optCanonical_none | with_reducible apply optCanonical_some | with_reducible apply canonical_ite
    | with_reducible apply optCanonical_ite | with_reducible apply optCanonical_bind

theorem execPowerTransitionDone_canonical (s : State) (h0 : s.Canonical) :
    outCanonical (execPowerTransitionDone s) := by
  unfold execPowerTransitionDone
  repeat' first
    | with_reducible assumption | intro _ | (simp only [canonical_mk]; refine canonical_fold ?_) | with_reducible apply whenDue_canonical
    | with_reducible apply State.setField_canonical | with_reducible apply State.enterState_canonical
    | with_reducible apply State.warmDone_canonical | with_reducible apply State.gateAll_canonical
    | with_reducible apply State.evictL1_canonical | with_reducible apply optCanonical_none | with_reducible apply optCanonical_some
    | with_reducible apply canonical_ite | with_reducible apply optCanonical_ite | with_reducible apply canonical_foldl | split
    | dsimp +zetaDelta only

theorem execItripClear_canonical (s : State) (h0 : s.Canonical) :
    outCanonical (execItripClear s) := by
  unfold execItripClear
  repeat' first
    | with_reducible assumption | (simp only [canonical_mk]; refine canonical_fold ?_) | with_reducible apply whenDue_canonical
    | with_reducible apply State.setDie_canonical | with_reducible apply State.setField_canonical | with_reducible apply optCanonical_none
    | with_reducible apply optCanonical_some | with_reducible apply optCanonical_ite

theorem State.readSensor_canonical (s : State) (a1 : Nat) (a2 : Nat) (h0 : s.Canonical) :
    (State.readSensor s a1 a2).Canonical := by
  unfold State.readSensor
  repeat' first
    | with_reducible assumption | (simp only [canonical_mk]; refine canonical_fold ?_)

theorem execThermalWarning_canonical (s : State) (h0 : s.Canonical) :
    outCanonical (execThermalWarning s) := by
  unfold execThermalWarning
  repeat' first
    | with_reducible assumption | with_reducible apply whenDue_canonical | with_reducible apply State.readSensor_canonical
    | with_reducible apply State.interrupt_canonical | with_reducible apply State.setField_canonical
    | with_reducible apply optCanonical_none | with_reducible apply optCanonical_some | with_reducible apply optCanonical_ite

theorem execCriticalThermalTrip_canonical (s : State) (h0 : s.Canonical) :
    outCanonical (execCriticalThermalTrip s) := by
  unfold execCriticalThermalTrip
  repeat' first
    | with_reducible assumption | intro _ | (simp only [canonical_mk]; refine canonical_fold ?_) | with_reducible apply whenDue_canonical
    | with_reducible apply State.readSensor_canonical | with_reducible apply State.endBlock_canonical
    | with_reducible apply State.setField_canonical | with_reducible apply State.enterM3_canonical
    | with_reducible apply optCanonical_none | with_reducible apply optCanonical_some | with_reducible apply optCanonical_ite
    | with_reducible apply canonical_foldl

theorem execCurrentLimitTrip_canonical (s : State) (h0 : s.Canonical) :
    outCanonical (execCurrentLimitTrip s) := by
  unfold execCurrentLimitTrip
  repeat' first
    | with_reducible assumption | (simp only [canonical_mk]; refine canonical_fold ?_) | with_reducible apply whenDue_canonical
    | with_reducible apply State.setDie_canonical | with_reducible apply State.setField_canonical | with_reducible apply optCanonical_none
    | with_reducible apply optCanonical_some | with_reducible apply optCanonical_ite

theorem execRecoveryImageUpdate_canonical (s : State) (h0 : s.Canonical) :
    outCanonical (execRecoveryImageUpdate s) := by
  unfold execRecoveryImageUpdate
  repeat' first
    | with_reducible assumption | (simp only [canonical_mk]; refine canonical_fold ?_) | with_reducible apply whenDue_canonical
    | with_reducible apply optCanonical_none | with_reducible apply optCanonical_some | with_reducible apply optCanonical_ite

theorem execRegisterWrite_canonical (s : State) (h0 : s.Canonical) :
    outCanonical (execRegisterWrite s) := by
  unfold execRegisterWrite
  repeat' first
    | with_reducible assumption | with_reducible apply whenDue_canonical | with_reducible apply State.writeReg_canonical
    | with_reducible apply optCanonical_none | with_reducible apply optCanonical_some | with_reducible apply optCanonical_ite

theorem State.aDieStore_canonical (s : State) (a1 : Nat) (a2 : Nat) (a3 : Nat) (a4 : List Byte) (h0 : s.Canonical) :
    (State.aDieStore s a1 a2 a3 a4).Canonical := by
  unfold State.aDieStore
  repeat' first
    | with_reducible assumption | (simp only [canonical_mk]; refine canonical_fold ?_) | with_reducible apply State.closeLine_canonical
    | with_reducible apply State.publish_canonical | with_reducible apply State.invalidateOn_canonical
    | with_reducible apply State.grantLine_canonical

theorem State.clearEnabled_canonical (s : State) (s1 : State) (h0 : s.Canonical) (h1 : s1.Canonical) :
    (State.clearEnabled s s1).Canonical := by
  unfold State.clearEnabled
  repeat' first
    | with_reducible assumption | intro _ | with_reducible apply State.storeN_canonical | with_reducible apply canonical_ite
    | with_reducible apply canonical_foldl

theorem execADieAccess_canonical (s : State) (h0 : s.Canonical) :
    outCanonical (execADieAccess s) := by
  unfold execADieAccess
  repeat' first
    | with_reducible assumption | (simp only [canonical_mk]; refine canonical_fold ?_) | with_reducible apply whenDue_canonical
    | with_reducible apply State.interrupt_canonical | with_reducible apply State.setDie_canonical
    | with_reducible apply State.clearEnabled_canonical | with_reducible apply State.aDieStore_canonical
    | with_reducible apply State.grantLine_canonical | with_reducible apply State.closeLine_canonical
    | with_reducible apply State.storeBytes_canonical | with_reducible apply optCanonical_none | with_reducible apply optCanonical_some
    | with_reducible apply optCanonical_ite | split | dsimp +zetaDelta only

theorem execSpanPortEnable_canonical (s : State) (h0 : s.Canonical) :
    outCanonical (execSpanPortEnable s) := by
  unfold execSpanPortEnable
  repeat' first
    | with_reducible assumption | (simp only [canonical_mk]; refine canonical_fold ?_) | with_reducible apply whenDue_canonical
    | with_reducible apply State.setField_canonical | with_reducible apply State.setDie_canonical | with_reducible apply optCanonical_none
    | with_reducible apply optCanonical_some | with_reducible apply optCanonical_ite

theorem State.writeBlock_canonical (s : State) (a1 : Tier) (a2 : Nat) (a3 : Nat) (a4 : Bool) (h0 : s.Canonical) :
    (State.writeBlock s a1 a2 a3 a4).Canonical := by
  unfold State.writeBlock
  repeat' first
    | with_reducible assumption | (simp only [canonical_mk]; refine canonical_fold ?_) | with_reducible apply State.dropCached_canonical
    | with_reducible apply State.putEntry_canonical

theorem State.holdPort_canonical (s : State) (a1 : Nat) (h0 : s.Canonical) :
    (State.holdPort s a1).Canonical := by
  unfold State.holdPort
  repeat' first
    | with_reducible assumption | with_reducible apply State.setHold_canonical

theorem State.blockPort_canonical (s : State) (a1 : Nat) (h0 : s.Canonical) :
    (State.blockPort s a1).Canonical := by
  unfold State.blockPort
  repeat' first
    | with_reducible assumption | (simp only [canonical_mk]; refine canonical_fold ?_) | with_reducible apply State.writeBlock_canonical
    | with_reducible apply canonical_ite

theorem execRevoke_canonical (s : State) (h0 : s.Canonical) :
    outCanonical (execRevoke s) := by
  unfold execRevoke
  repeat' first
    | with_reducible assumption | intro _ | with_reducible apply whenDue_canonical | with_reducible apply State.setRemote_canonical
    | with_reducible apply State.blockPort_canonical | with_reducible apply State.sendControl_canonical
    | with_reducible apply State.holdPort_canonical | with_reducible apply optCanonical_none | with_reducible apply optCanonical_some
    | with_reducible apply optCanonical_ite | with_reducible apply canonical_foldl | with_reducible apply optCanonical_bind

theorem execRevokeDeadline_canonical (s : State) (h0 : s.Canonical) :
    outCanonical (execRevokeDeadline s) := by
  unfold execRevokeDeadline
  repeat' first
    | with_reducible assumption | intro _ | with_reducible apply whenDue_canonical | with_reducible apply State.setRemote_canonical
    | with_reducible apply State.writeBlock_canonical | with_reducible apply State.forceEntry_canonical
    | with_reducible apply optCanonical_none | with_reducible apply optCanonical_some | with_reducible apply optCanonical_ite
    | with_reducible apply optCanonical_bind

theorem execFlashPromote_canonical (s : State) (h0 : s.Canonical) :
    outCanonical (execFlashPromote s) := by
  unfold execFlashPromote
  repeat' first
    | with_reducible assumption | intro _ | with_reducible apply whenDue_canonical | with_reducible apply State.setRemote_canonical
    | with_reducible apply optCanonical_none | with_reducible apply optCanonical_some | with_reducible apply optCanonical_ite
    | with_reducible apply optCanonical_bind

theorem execFlashDemotion_canonical (s : State) (h0 : s.Canonical) :
    outCanonical (execFlashDemotion s) := by
  unfold execFlashDemotion
  repeat' first
    | with_reducible assumption | intro _ | with_reducible apply whenDue_canonical | with_reducible apply State.setRemote_canonical
    | with_reducible apply optCanonical_none | with_reducible apply optCanonical_some | with_reducible apply optCanonical_ite
    | with_reducible apply optCanonical_bind

theorem execVersionReclaim_canonical (s : State) (h0 : s.Canonical) :
    outCanonical (execVersionReclaim s) := by
  unfold execVersionReclaim
  repeat' first
    | with_reducible assumption | intro _ | with_reducible apply whenDue_canonical | with_reducible apply State.setRemote_canonical
    | with_reducible apply optCanonical_none | with_reducible apply optCanonical_some | with_reducible apply optCanonical_ite
    | with_reducible apply optCanonical_bind

theorem execScorepadInterval_canonical (s : State) (h0 : s.Canonical) :
    outCanonical (execScorepadInterval s) := by
  unfold execScorepadInterval
  repeat' first
    | with_reducible assumption | (simp only [canonical_mk]; refine canonical_fold ?_) | with_reducible apply whenDue_canonical
    | with_reducible apply optCanonical_none | with_reducible apply optCanonical_some | with_reducible apply optCanonical_ite

theorem State.emit_canonical (s : State) (a1 : List Byte) (h0 : s.Canonical) :
    (State.emit s a1).Canonical := by
  unfold State.emit
  repeat' first
    | with_reducible assumption | (simp only [canonical_mk]; refine canonical_fold ?_)

theorem State.reply_canonical (s : State) (a1 : Nat) (a2 : Nat) (a3 : List Byte) (h0 : s.Canonical) :
    (State.reply s a1 a2 a3).Canonical := by
  unfold State.reply
  repeat' first
    | with_reducible assumption | with_reducible apply State.emit_canonical

theorem execInfo_canonical (s : State) (h0 : s.Canonical) :
    outCanonical (execInfo s) := by
  unfold execInfo
  repeat' first
    | with_reducible assumption | with_reducible apply whenDue_canonical | with_reducible apply State.reply_canonical
    | with_reducible apply optCanonical_some | with_reducible apply optCanonical_ite

theorem execReadlive_canonical (s : State) (h0 : s.Canonical) :
    outCanonical (execReadlive s) := by
  unfold execReadlive
  repeat' first
    | with_reducible assumption | (simp only [canonical_mk]; refine canonical_fold ?_) | with_reducible apply whenDue_canonical
    | with_reducible apply State.reply_canonical | with_reducible apply optCanonical_some | with_reducible apply optCanonical_ite | split

theorem execReadret_canonical (s : State) (h0 : s.Canonical) :
    outCanonical (execReadret s) := by
  unfold execReadret
  repeat' first
    | with_reducible assumption | (simp only [canonical_mk]; refine canonical_fold ?_) | with_reducible apply whenDue_canonical
    | with_reducible apply State.reply_canonical | with_reducible apply optCanonical_some | with_reducible apply optCanonical_ite

theorem execAck_canonical (s : State) (h0 : s.Canonical) :
    outCanonical (execAck s) := by
  unfold execAck
  repeat' first
    | with_reducible assumption | (simp only [canonical_mk]; refine canonical_fold ?_) | with_reducible apply whenDue_canonical
    | with_reducible apply State.reply_canonical | with_reducible apply optCanonical_some | with_reducible apply optCanonical_ite

theorem execTotals_canonical (s : State) (h0 : s.Canonical) :
    outCanonical (execTotals s) := by
  unfold execTotals
  repeat' first
    | with_reducible assumption | with_reducible apply whenDue_canonical | with_reducible apply State.reply_canonical
    | with_reducible apply optCanonical_some | with_reducible apply optCanonical_ite

theorem execHealth_canonical (s : State) (h0 : s.Canonical) :
    outCanonical (execHealth s) := by
  unfold execHealth
  repeat' first
    | with_reducible assumption | with_reducible apply whenDue_canonical | with_reducible apply State.reply_canonical
    | with_reducible apply optCanonical_some | with_reducible apply optCanonical_ite

theorem execCeiling_canonical (s : State) (h0 : s.Canonical) :
    outCanonical (execCeiling s) := by
  unfold execCeiling
  repeat' first
    | with_reducible assumption | (simp only [canonical_mk]; refine canonical_fold ?_) | with_reducible apply whenDue_canonical
    | with_reducible apply State.reply_canonical | with_reducible apply optCanonical_some | with_reducible apply optCanonical_ite

theorem execSetmodid_canonical (s : State) (h0 : s.Canonical) :
    outCanonical (execSetmodid s) := by
  unfold execSetmodid
  repeat' first
    | with_reducible assumption | with_reducible apply whenDue_canonical | with_reducible apply State.reply_canonical
    | with_reducible apply State.setReg_canonical | with_reducible apply optCanonical_some | with_reducible apply optCanonical_ite

theorem execStart_canonical (s : State) (h0 : s.Canonical) :
    outCanonical (execStart s) := by
  unfold execStart
  repeat' first
    | with_reducible assumption | (simp only [canonical_mk]; refine canonical_fold ?_) | with_reducible apply whenDue_canonical
    | with_reducible apply State.reply_canonical | with_reducible apply State.setField_canonical | with_reducible apply optCanonical_some
    | with_reducible apply optCanonical_ite

theorem execMctpControl_canonical (s : State) (h0 : s.Canonical) :
    outCanonical (execMctpControl s) := by
  unfold execMctpControl
  repeat' first
    | with_reducible assumption | with_reducible apply whenDue_canonical | with_reducible apply State.emit_canonical
    | with_reducible apply optCanonical_some

theorem State.heard_canonical (s : State) (a1 : Nat) (a2 : Nat) (a3 : Nat) (a4 : List Byte) (h0 : s.Canonical) :
    (State.heard s a1 a2 a3 a4).Canonical := by
  unfold State.heard
  repeat' first
    | with_reducible assumption | (simp only [canonical_mk]; refine canonical_fold ?_)

theorem State.respond_canonical (s : State) (a1 : Nat) (a2 : Nat) (a3 : Nat) (a4 : List Byte) (h0 : s.Canonical) :
    (State.respond s a1 a2 a3 a4).Canonical := by
  unfold State.respond
  repeat' first
    | with_reducible assumption | (simp only [canonical_mk]; refine canonical_fold ?_) | with_reducible apply State.emit_canonical

theorem State.spdmError_canonical (s : State) (a1 : Nat) (h0 : s.Canonical) :
    (State.spdmError s a1).Canonical := by
  unfold State.spdmError
  repeat' first
    | with_reducible assumption | with_reducible apply State.emit_canonical

theorem execGetVersion_canonical (s : State) (h0 : s.Canonical) :
    outCanonical (execGetVersion s) := by
  unfold execGetVersion
  repeat' first
    | with_reducible assumption | (simp only [canonical_mk]; refine canonical_fold ?_) | with_reducible apply whenDue_canonical
    | with_reducible apply State.respond_canonical | with_reducible apply State.heard_canonical | with_reducible apply optCanonical_some

theorem execGetCapabilities_canonical (s : State) (h0 : s.Canonical) :
    outCanonical (execGetCapabilities s) := by
  unfold execGetCapabilities
  repeat' first
    | with_reducible assumption | (simp only [canonical_mk]; refine canonical_fold ?_) | with_reducible apply whenDue_canonical
    | with_reducible apply State.spdmError_canonical | with_reducible apply State.respond_canonical
    | with_reducible apply State.heard_canonical | with_reducible apply optCanonical_some | with_reducible apply optCanonical_ite

theorem execNegotiateAlgorithms_canonical (s : State) (h0 : s.Canonical) :
    outCanonical (execNegotiateAlgorithms s) := by
  unfold execNegotiateAlgorithms
  repeat' first
    | with_reducible assumption | (simp only [canonical_mk]; refine canonical_fold ?_) | with_reducible apply whenDue_canonical
    | with_reducible apply State.spdmError_canonical | with_reducible apply State.respond_canonical
    | with_reducible apply State.heard_canonical | with_reducible apply optCanonical_some | with_reducible apply optCanonical_ite

theorem execGetDigests_canonical (s : State) (h0 : s.Canonical) :
    outCanonical (execGetDigests s) := by
  unfold execGetDigests
  repeat' first
    | with_reducible assumption | with_reducible apply whenDue_canonical | with_reducible apply State.spdmError_canonical
    | with_reducible apply State.respond_canonical | with_reducible apply State.heard_canonical | with_reducible apply optCanonical_some
    | with_reducible apply optCanonical_ite

theorem execGetCertificate_canonical (s : State) (h0 : s.Canonical) :
    outCanonical (execGetCertificate s) := by
  unfold execGetCertificate
  repeat' first
    | with_reducible assumption | with_reducible apply whenDue_canonical | with_reducible apply State.spdmError_canonical
    | with_reducible apply State.respond_canonical | with_reducible apply State.heard_canonical | with_reducible apply optCanonical_some
    | with_reducible apply optCanonical_ite

theorem execChallenge_canonical (s : State) (h0 : s.Canonical) :
    outCanonical (execChallenge s) := by
  unfold execChallenge
  repeat' first
    | with_reducible assumption | with_reducible apply whenDue_canonical | with_reducible apply State.spdmError_canonical
    | with_reducible apply State.heard_canonical | with_reducible apply State.respond_canonical | with_reducible apply optCanonical_some
    | with_reducible apply optCanonical_ite

theorem execGetMeasurements_canonical (s : State) (h0 : s.Canonical) :
    outCanonical (execGetMeasurements s) := by
  unfold execGetMeasurements
  repeat' first
    | with_reducible assumption | with_reducible apply whenDue_canonical | with_reducible apply State.spdmError_canonical
    | with_reducible apply State.heard_canonical | with_reducible apply State.respond_canonical | with_reducible apply optCanonical_some
    | with_reducible apply optCanonical_ite | split

theorem execUnsupportedRequest_canonical (s : State) (h0 : s.Canonical) :
    outCanonical (execUnsupportedRequest s) := by
  unfold execUnsupportedRequest
  repeat' first
    | with_reducible assumption | with_reducible apply whenDue_canonical | with_reducible apply State.spdmError_canonical
    | with_reducible apply State.emit_canonical | with_reducible apply optCanonical_none | with_reducible apply optCanonical_some
    | with_reducible apply optCanonical_ite

end Sys2Proof.Machine
end

