-- ==== Sys2Proof/Laws/CanonicalStep.lean ====
section
/-! SUPPORT. State.Canonical is kept by exec and the parts of step: one lemma per operation. -/
namespace Sys2Proof.Machine
open Sys2Proof
set_option linter.unusedSimpArgs false

theorem exec_canonical (a0 : Instr) (s : State) (h1 : s.Canonical) :
    outCanonical (exec a0 s) := by
  unfold exec
  repeat' first
    | with_reducible assumption | with_reducible apply execNop_canonical | with_reducible apply execExit_canonical
    | with_reducible apply execKill_canonical | with_reducible apply execTrap_canonical | with_reducible apply execEret_canonical
    | with_reducible apply execBrk_canonical | with_reducible apply execSleep_canonical | with_reducible apply execPmark_canonical
    | with_reducible apply execBra_canonical | with_reducible apply execBrc_canonical | with_reducible apply execBrx_canonical
    | with_reducible apply execCall_canonical | with_reducible apply execCallx_canonical | with_reducible apply execRet_canonical
    | with_reducible apply execLoops_canonical | with_reducible apply execElect_canonical | with_reducible apply execVoteOr_canonical
    | with_reducible apply execVoteAnd_canonical | with_reducible apply execVoteMask_canonical
    | with_reducible apply execVoteSame_canonical | with_reducible apply execVoteRank_canonical | with_reducible apply execRdsrV_canonical
    | with_reducible apply execRdsrS_canonical | with_reducible apply execWrsr_canonical | with_reducible apply execFmtset_canonical
    | with_reducible apply execFmtget_canonical | with_reducible apply execYield_canonical | with_reducible apply execSadd_canonical
    | with_reducible apply execSaddImm_canonical | with_reducible apply execSsub_canonical | with_reducible apply execSsubImm_canonical
    | with_reducible apply execSmul_canonical | with_reducible apply execSmulImm_canonical | with_reducible apply execSmulh_canonical
    | with_reducible apply execSmulhImm_canonical | with_reducible apply execSdiv_canonical | with_reducible apply execSdivImm_canonical
    | with_reducible apply execSrem_canonical | with_reducible apply execSremImm_canonical | with_reducible apply execSand_canonical
    | with_reducible apply execSandImm_canonical | with_reducible apply execSor_canonical | with_reducible apply execSorImm_canonical
    | with_reducible apply execSxor_canonical | with_reducible apply execSxorImm_canonical | with_reducible apply execSshl_canonical
    | with_reducible apply execSshlImm_canonical | with_reducible apply execSshr_canonical | with_reducible apply execSshrImm_canonical
    | with_reducible apply execSsra_canonical | with_reducible apply execSsraImm_canonical | with_reducible apply execSmin_canonical
    | with_reducible apply execSminImm_canonical | with_reducible apply execSmax_canonical | with_reducible apply execSmaxImm_canonical
    | with_reducible apply execScmp_canonical | with_reducible apply execScmpImm_canonical | with_reducible apply execSsel_canonical
    | with_reducible apply execSselImm_canonical | with_reducible apply execSmov_canonical | with_reducible apply execSmovi_canonical
    | with_reducible apply execSbfx_canonical | with_reducible apply execSbfi_canonical | with_reducible apply execSpopc_canonical
    | with_reducible apply execSclz_canonical | with_reducible apply execKset_canonical | with_reducible apply execKget_canonical
    | with_reducible apply execKpush_canonical | with_reducible apply execKpop_canonical | with_reducible apply execKswap_canonical
    | with_reducible apply execKdepth_canonical | with_reducible apply execIadd_canonical | with_reducible apply execIaddImm_canonical
    | with_reducible apply execIsub_canonical | with_reducible apply execIsubImm_canonical | with_reducible apply execImul_canonical
    | with_reducible apply execImulImm_canonical | with_reducible apply execImulh_canonical | with_reducible apply execImad_canonical
    | with_reducible apply execImadw_canonical | with_reducible apply execIaddc_canonical | with_reducible apply execIshl_canonical
    | with_reducible apply execIshlImm_canonical | with_reducible apply execIshr_canonical | with_reducible apply execIshrImm_canonical
    | with_reducible apply execIsra_canonical | with_reducible apply execIsraImm_canonical | with_reducible apply execIshf_canonical
    | with_reducible apply execIand_canonical | with_reducible apply execIandImm_canonical | with_reducible apply execIor_canonical
    | with_reducible apply execIorImm_canonical | with_reducible apply execIxor_canonical | with_reducible apply execIxorImm_canonical
    | with_reducible apply execIlop3_canonical | with_reducible apply execImin_canonical | with_reducible apply execIminImm_canonical
    | with_reducible apply execImax_canonical | with_reducible apply execImaxImm_canonical | with_reducible apply execIabs_canonical
    | with_reducible apply execIcmp_canonical | with_reducible apply execIsel_canonical | with_reducible apply execIpopc_canonical
    | with_reducible apply execIclz_canonical | with_reducible apply execIbrev_canonical | with_reducible apply execIbfx_canonical
    | with_reducible apply execIbfi_canonical | with_reducible apply execIdot4_canonical | with_reducible apply execMov_canonical
    | with_reducible apply execMovs_canonical | with_reducible apply execPrmt_canonical | with_reducible apply execLea_canonical
    | with_reducible apply execMovi_canonical | with_reducible apply execRdlane_canonical | with_reducible apply execShflIdx_canonical
    | with_reducible apply execShflRot_canonical | with_reducible apply execShflShift_canonical
    | with_reducible apply execShflXor_canonical | with_reducible apply execXch_canonical | with_reducible apply execFadd_canonical
    | with_reducible apply execFaddImm_canonical | with_reducible apply execFsub_canonical | with_reducible apply execFsubImm_canonical
    | with_reducible apply execFmul_canonical | with_reducible apply execFmulImm_canonical | with_reducible apply execFfma_canonical
    | with_reducible apply execFmin_canonical | with_reducible apply execFminImm_canonical | with_reducible apply execFmax_canonical
    | with_reducible apply execFmaxImm_canonical | with_reducible apply execFcmp_canonical | with_reducible apply execFclass_canonical
    | with_reducible apply execFrnd_canonical | with_reducible apply execFscale_canonical | with_reducible apply execFdot2_canonical
    | with_reducible apply execFrcp_canonical | with_reducible apply execFrsq_canonical | with_reducible apply execFsqrt_canonical
    | with_reducible apply execFdiv_canonical | with_reducible apply execFexp2_canonical | with_reducible apply execFlog2_canonical
    | with_reducible apply execFsin_canonical | with_reducible apply execFcos_canonical | with_reducible apply execFtanh_canonical
    | with_reducible apply execCvt_canonical | with_reducible apply execCvtp_canonical | with_reducible apply execCvtb_canonical
    | with_reducible apply execCvtx_canonical | with_reducible apply execLd_canonical | with_reducible apply execLdSx_canonical
    | with_reducible apply execSt_canonical | with_reducible apply execLdu_canonical | with_reducible apply execLduSx_canonical
    | with_reducible apply execStu_canonical | with_reducible apply execPrf_canonical | with_reducible apply execMhint_canonical
    | with_reducible apply execCctlInv_canonical | with_reducible apply execCctlWb_canonical
    | with_reducible apply execCctlInvall_canonical | with_reducible apply execLds_canonical | with_reducible apply execLdsSx_canonical
    | with_reducible apply execSts_canonical | with_reducible apply execAtomAdd_canonical | with_reducible apply execAtomAnd_canonical
    | with_reducible apply execAtomOr_canonical | with_reducible apply execAtomXor_canonical | with_reducible apply execAtomMinS_canonical
    | with_reducible apply execAtomMaxS_canonical | with_reducible apply execAtomMinU_canonical
    | with_reducible apply execAtomMaxU_canonical | with_reducible apply execAtomExch_canonical
    | with_reducible apply execAtomCas_canonical | with_reducible apply execAtomInc_canonical | with_reducible apply execAtomDec_canonical
    | with_reducible apply execAtomFadd_canonical | with_reducible apply execAtomsAdd_canonical
    | with_reducible apply execAtomsAnd_canonical | with_reducible apply execAtomsOr_canonical
    | with_reducible apply execAtomsXor_canonical | with_reducible apply execAtomsMinS_canonical
    | with_reducible apply execAtomsMaxS_canonical | with_reducible apply execAtomsMinU_canonical
    | with_reducible apply execAtomsMaxU_canonical | with_reducible apply execAtomsExch_canonical
    | with_reducible apply execAtomsCas_canonical | with_reducible apply execAtomsInc_canonical
    | with_reducible apply execAtomsDec_canonical | with_reducible apply execAtomsFadd_canonical
    | with_reducible apply execRedAdd_canonical | with_reducible apply execRedAnd_canonical | with_reducible apply execRedOr_canonical
    | with_reducible apply execRedXor_canonical | with_reducible apply execRedMinS_canonical | with_reducible apply execRedMaxS_canonical
    | with_reducible apply execRedMinU_canonical | with_reducible apply execRedMaxU_canonical | with_reducible apply execRedFadd_canonical
    | with_reducible apply execUpdIadd32_canonical | with_reducible apply execUpdIadd64_canonical
    | with_reducible apply execUpdFadd32_canonical | with_reducible apply execUpdFadd64_canonical
    | with_reducible apply execUpdSmax32_canonical | with_reducible apply execUpdSmin32_canonical
    | with_reducible apply execUpdZmax32_canonical | with_reducible apply execUpdZmin32_canonical
    | with_reducible apply execUpdFmax32_canonical | with_reducible apply execUpdFmin32_canonical
    | with_reducible apply execUpdAnd64_canonical | with_reducible apply execUpdOr64_canonical
    | with_reducible apply execUpdXor64_canonical | with_reducible apply execFence_canonical | with_reducible apply execMxacq_canonical
    | with_reducible apply execMxacqPair_canonical | with_reducible apply execMxrel_canonical | with_reducible apply execMxrdy_canonical
    | with_reducible apply execMma_canonical | with_reducible apply execMmab_canonical | with_reducible apply execMxwait_canonical
    | with_reducible apply execMxrd_canonical | with_reducible apply execMxwr_canonical | with_reducible apply execMxzero_canonical
    | with_reducible apply execMxst_canonical | with_reducible apply execMxtest_canonical | with_reducible apply execCpyLd_canonical
    | with_reducible apply execCpySt_canonical | with_reducible apply execCpseal_canonical | with_reducible apply execCpwait_canonical
    | with_reducible apply execMcjoin_canonical | with_reducible apply execMcleave_canonical | with_reducible apply execMcld_canonical
    | with_reducible apply execBar_canonical | with_reducible apply execBara_canonical | with_reducible apply execBarw_canonical
    | with_reducible apply execBoinit_canonical | with_reducible apply execBoarr_canonical | with_reducible apply execBowait_canonical
    | with_reducible apply execQinit_canonical | with_reducible apply execQpush_canonical | with_reducible apply execQpop_canonical
    | with_reducible apply execWaitc_canonical | with_reducible apply execWaitw_canonical | with_reducible apply execRgrow_canonical
    | with_reducible apply execRshrink_canonical | with_reducible apply execLaunch_canonical
    | with_reducible apply execXchTimeout_canonical | with_reducible apply execMxOpRetire_canonical
    | with_reducible apply execCopyRequestDone_canonical | with_reducible apply execHeldEntryEnter_canonical
    | with_reducible apply execHeldEntryTimer_canonical | with_reducible apply execFillDelivery_canonical
    | with_reducible apply execWatchWake_canonical | with_reducible apply execWaitwPoll_canonical
    | with_reducible apply execWaitwSaveThreshold_canonical | with_reducible apply execSleepWake_canonical
    | with_reducible apply execSpillMoveDone_canonical | with_reducible apply execLineRefetch_canonical
    | with_reducible apply execLoadReply_canonical | with_reducible apply execStorePerformed_canonical
    | with_reducible apply execSpAccessDone_canonical | with_reducible apply execAtomReply_canonical
    | with_reducible apply execRedAck_canonical | with_reducible apply execPrfAccept_canonical
    | with_reducible apply execTierLookup_canonical | with_reducible apply execL2MissFill_canonical
    | with_reducible apply execTokenRequest_canonical | with_reducible apply execPersistentRequest_canonical
    | with_reducible apply execInvalidationArrive_canonical | with_reducible apply execInvalidationApply_canonical
    | with_reducible apply execL1DirtyWriteback_canonical | with_reducible apply execDirectoryGrant_canonical
    | with_reducible apply execInvalidationAck_canonical | with_reducible apply execRegionMerge_canonical
    | with_reducible apply execAtomAtHome_canonical | with_reducible apply execSwitchCombine_canonical
    | with_reducible apply execDecombine_canonical | with_reducible apply execLostsplit_canonical
    | with_reducible apply execRetired_canonical | with_reducible apply execAtomlost_canonical
    | with_reducible apply execAtomlostTimeout_canonical | with_reducible apply execUpdOpen_canonical
    | with_reducible apply execLineClose_canonical | with_reducible apply execUCopyEvict_canonical
    | with_reducible apply execMaquetteTest_canonical | with_reducible apply execBlockRelease_canonical
    | with_reducible apply execQueueDoorbell_canonical | with_reducible apply execQueuePacketRead_canonical
    | with_reducible apply execQueueErrClear_canonical | with_reducible apply execHostdone_canonical
    | with_reducible apply execHostPacket_canonical | with_reducible apply execCopyPacket_canonical
    | with_reducible apply execDsqRead_canonical | with_reducible apply execDsqValidTimeout_canonical
    | with_reducible apply execBlockPlace_canonical | with_reducible apply execAffinityTimeout_canonical
    | with_reducible apply execSaveRequest_canonical | with_reducible apply execBlockSaved_canonical
    | with_reducible apply execBlockResume_canonical | with_reducible apply execGangReserve_canonical
    | with_reducible apply execGangEvict_canonical | with_reducible apply execGangTimeout_canonical
    | with_reducible apply execWorkComplete_canonical | with_reducible apply execContextActivate_canonical
    | with_reducible apply execContextInvalidate_canonical | with_reducible apply execContextRetire_canonical
    | with_reducible apply execScorepadInterval_canonical | with_reducible apply execVerdictRetry_canonical
    | with_reducible apply execVerdictFail_canonical | with_reducible apply execVerdictTimeout_canonical
    | with_reducible apply execHold_canonical | with_reducible apply execDrain_canonical | with_reducible apply execDrainTimeout_canonical
    | with_reducible apply execShoot_canonical | with_reducible apply execWrite_canonical | with_reducible apply execRelease_canonical
    | with_reducible apply execForce_canonical | with_reducible apply execInval_canonical | with_reducible apply execWbScan_canonical
    | with_reducible apply execStorageWriteDone_canonical | with_reducible apply execControlResend_canonical
    | with_reducible apply execDomdead_canonical | with_reducible apply execLate_canonical | with_reducible apply execDieReset_canonical
    | with_reducible apply execDieEvacuated_canonical | with_reducible apply execDieResetTimeout_canonical
    | with_reducible apply execEgressWaitTimeout_canonical | with_reducible apply execFlitCrcError_canonical
    | with_reducible apply execLinkRetrain_canonical | with_reducible apply execLinkdown_canonical
    | with_reducible apply execLinepoison_canonical | with_reducible apply execPclr_canonical | with_reducible apply execSpmark_canonical
    | with_reducible apply execColdStart_canonical | with_reducible apply execWarmStart_canonical
    | with_reducible apply execModuleState_canonical | with_reducible apply execPdie_canonical | with_reducible apply execClgate_canonical
    | with_reducible apply execItripClear_canonical | with_reducible apply execThermalWarning_canonical
    | with_reducible apply execCriticalThermalTrip_canonical | with_reducible apply execCurrentLimitTrip_canonical
    | with_reducible apply execSpanPortEnable_canonical | with_reducible apply execRevoke_canonical
    | with_reducible apply execRevokeDeadline_canonical | with_reducible apply execFlashPromote_canonical
    | with_reducible apply execVersionReclaim_canonical | with_reducible apply execInfo_canonical
    | with_reducible apply execReadlive_canonical | with_reducible apply execReadret_canonical | with_reducible apply execAck_canonical
    | with_reducible apply execTotals_canonical | with_reducible apply execHealth_canonical | with_reducible apply execCeiling_canonical
    | with_reducible apply execSetmodid_canonical | with_reducible apply execStart_canonical
    | with_reducible apply execMctpControl_canonical | with_reducible apply execGetVersion_canonical
    | with_reducible apply execGetCapabilities_canonical | with_reducible apply execNegotiateAlgorithms_canonical
    | with_reducible apply execGetDigests_canonical | with_reducible apply execGetCertificate_canonical
    | with_reducible apply execChallenge_canonical | with_reducible apply execGetMeasurements_canonical
    | with_reducible apply execRegisterWrite_canonical | with_reducible apply execMainPowerLoss_canonical
    | with_reducible apply execEvacuationTimeout_canonical | with_reducible apply execPowerTransitionDone_canonical
    | with_reducible apply execLinkTrained_canonical | with_reducible apply execADieAccess_canonical
    | with_reducible apply execRecoveryImageUpdate_canonical | with_reducible apply execFlashDemotion_canonical
    | with_reducible apply execUnsupportedRequest_canonical | split

theorem State.turnOver_canonical (s : State) (h0 : s.Canonical) :
    (State.turnOver s).Canonical := by
  unfold State.turnOver
  repeat' first
    | with_reducible assumption | (simp only [canonical_mk]; refine canonical_fold ?_)

theorem finishIssue_canonical (a0 : Host.Outcome State Fault Refusal) (h0 : outCanonical a0) :
    outCanonical (finishIssue a0) := by
  unfold finishIssue
  repeat' first
    | with_reducible assumption | with_reducible apply State.turnOver_canonical | with_reducible apply State.afterIssue_canonical
    | with_reducible apply outCanonical_next | with_reducible refine canonical_ofNext (by assumption) | split

theorem finishEvent_canonical (s : State) (a1 : Host.Outcome State Fault Refusal) (h0 : s.Canonical) (h1 : outCanonical a1) :
    outCanonical (finishEvent s a1) := by
  unfold finishEvent
  repeat' first
    | with_reducible assumption | with_reducible apply State.turnOver_canonical | with_reducible apply outCanonical_next
    | with_reducible refine canonical_ofNext (by assumption) | split

theorem State.runPartner_canonical (s : State) (s1 : State) (a2 : Partner) (h0 : s.Canonical) (h1 : s1.Canonical) :
    outCanonical (State.runPartner s s1 a2) := by
  unfold State.runPartner
  repeat' first
    | with_reducible assumption | with_reducible apply finishIssue_canonical | with_reducible apply exec_canonical
    | with_reducible apply State.endPair_canonical | with_reducible apply outCanonical_next
    | with_reducible refine State.pairSecond_canonical (by assumption) ?_ | with_reducible refine canonical_of_next (by assumption) ?_
    | split

theorem State.runIssue_canonical (s : State) (a1 : Instr) (a2 : Option Partner) (h0 : s.Canonical) :
    outCanonical (State.runIssue s a1 a2) := by
  unfold State.runIssue
  repeat' first
    | with_reducible assumption | with_reducible apply exec_canonical | with_reducible apply State.runPartner_canonical
    | with_reducible apply finishIssue_canonical | with_reducible refine canonical_of_next (by assumption) ?_ | split

theorem State.issueFrom_canonical (s : State) (a1 : Nat) (a2 : Nat) (h0 : s.Canonical) :
    outCanonical (State.issueFrom s a1 a2) := by
  unfold State.issueFrom
  repeat' first
    | with_reducible assumption | with_reducible apply State.quadTurn_canonical | with_reducible apply State.ageQuad_canonical
    | with_reducible apply State.turnOver_canonical | with_reducible apply State.runIssue_canonical
    | with_reducible apply outCanonical_next | with_reducible refine canonical_of_held (by assumption) ?_
    | with_reducible refine canonical_of_ended (by assumption) ?_ | with_reducible refine canonical_of_run (by assumption) ?_
    | with_reducible apply outCanonical_ite | split

theorem State.resumeFrom_canonical (s : State) (a1 : Nat) (a2 : SlotName) (h0 : s.Canonical) :
    outCanonical (State.resumeFrom s a1 a2) := by
  unfold State.resumeFrom
  repeat' first
    | with_reducible assumption | (simp only [canonical_mk]; refine canonical_fold ?_) | with_reducible apply State.turnOver_canonical
    | with_reducible apply State.lateVerdict_canonical | with_reducible apply finishIssue_canonical | with_reducible apply exec_canonical
    | with_reducible apply outCanonical_next | with_reducible refine canonical_of_some (by assumption) ?_
    | with_reducible refine canonical_of_next (by assumption) ?_ | with_reducible apply canonical_ite | split

theorem State.move_canonical (s : State) (a1 : Move) (h0 : s.Canonical) :
    outCanonical (State.move s a1) := by
  unfold State.move
  repeat' first
    | with_reducible assumption | (simp only [canonical_mk]; refine canonical_fold ?_) | with_reducible apply State.turnOver_canonical
    | with_reducible apply State.pass_canonical | with_reducible apply State.noteGangs_canonical
    | with_reducible apply State.issueFrom_canonical | with_reducible apply State.resumeFrom_canonical
    | with_reducible apply finishEvent_canonical | with_reducible apply exec_canonical | with_reducible apply outCanonical_next | split

theorem State.withFetchWord_canonical (s : State) (a1 : Nat) (a2 : Nat) (h0 : s.Canonical) :
    (State.withFetchWord s a1 a2).Canonical := by
  unfold State.withFetchWord
  repeat' first
    | with_reducible assumption | (simp only [canonical_mk]; refine canonical_fold ?_) | with_reducible apply State.layProgram_canonical

end Sys2Proof.Machine
end

