-- ==== Sys2Proof/Laws/State.lean ====
section
/-! SUPPORT. What each update of the state leaves in each field: one lemma per field per update. -/
namespace Sys2Proof.Machine
open Sys2Proof

/-! ## State.setGroup -/

@[simp] theorem State.setGroup_turn (s : State) (g : Group) : (s.setGroup g).turn = s.turn := rfl
@[simp] theorem State.setGroup_agenda (s : State) (g : Group) : (s.setGroup g).agenda = s.agenda := rfl
@[simp] theorem State.setGroup_args (s : State) (g : Group) : (s.setGroup g).args = s.args := rfl
@[simp] theorem State.setGroup_issuer (s : State) (g : Group) : (s.setGroup g).issuer = s.issuer := rfl
@[simp] theorem State.setGroup_nextId (s : State) (g : Group) : (s.setGroup g).nextId = s.nextId := rfl
@[simp] theorem State.setGroup_fc (s : State) (g : Group) : (s.setGroup g).fc = s.fc := rfl
@[simp] theorem State.setGroup_dies (s : State) (g : Group) : (s.setGroup g).dies = s.dies := rfl
@[simp] theorem State.setGroup_groups (s : State) (g : Group) : (s.setGroup g).groups = s.groups.map (fun x => if x.id = g.id then g else x) := rfl
@[simp] theorem State.setGroup_blocks (s : State) (g : Group) : (s.setGroup g).blocks = s.blocks := rfl
@[simp] theorem State.setGroup_grids (s : State) (g : Group) : (s.setGroup g).grids = s.grids := rfl
@[simp] theorem State.setGroup_works (s : State) (g : Group) : (s.setGroup g).works = s.works := rfl
@[simp] theorem State.setGroup_gangs (s : State) (g : Group) : (s.setGroup g).gangs = s.gangs := rfl
@[simp] theorem State.setGroup_windows (s : State) (g : Group) : (s.setGroup g).windows = s.windows := rfl
@[simp] theorem State.setGroup_cores (s : State) (g : Group) : (s.setGroup g).cores = s.cores := rfl
@[simp] theorem State.setGroup_mem (s : State) (g : Group) : (s.setGroup g).mem = s.mem := rfl
@[simp] theorem State.setGroup_poison (s : State) (g : Group) : (s.setGroup g).poison = s.poison := rfl
@[simp] theorem State.setGroup_mmio (s : State) (g : Group) : (s.setGroup g).mmio = s.mmio := rfl
@[simp] theorem State.setGroup_reqs (s : State) (g : Group) : (s.setGroup g).reqs = s.reqs := rfl
@[simp] theorem State.setGroup_spReqs (s : State) (g : Group) : (s.setGroup g).spReqs = s.spReqs := rfl
@[simp] theorem State.setGroup_records (s : State) (g : Group) : (s.setGroup g).records = s.records := rfl
@[simp] theorem State.setGroup_journal (s : State) (g : Group) : (s.setGroup g).journal = s.journal := rfl
@[simp] theorem State.setGroup_l1 (s : State) (g : Group) : (s.setGroup g).l1 = s.l1 := rfl
@[simp] theorem State.setGroup_l2 (s : State) (g : Group) : (s.setGroup g).l2 = s.l2 := rfl
@[simp] theorem State.setGroup_staleCopies (s : State) (g : Group) : (s.setGroup g).staleCopies = s.staleCopies := rfl
@[simp] theorem State.setGroup_regions (s : State) (g : Group) : (s.setGroup g).regions = s.regions := rfl
@[simp] theorem State.setGroup_persistent (s : State) (g : Group) : (s.setGroup g).persistent = s.persistent := rfl
@[simp] theorem State.setGroup_opens (s : State) (g : Group) : (s.setGroup g).opens = s.opens := rfl
@[simp] theorem State.setGroup_published (s : State) (g : Group) : (s.setGroup g).published = s.published := rfl
@[simp] theorem State.setGroup_queueWait (s : State) (g : Group) : (s.setGroup g).queueWait = s.queueWait := rfl
@[simp] theorem State.setGroup_dsqWait (s : State) (g : Group) : (s.setGroup g).dsqWait = s.dsqWait := rfl
@[simp] theorem State.setGroup_poolWait (s : State) (g : Group) : (s.setGroup g).poolWait = s.poolWait := rfl
@[simp] theorem State.setGroup_copyReqs (s : State) (g : Group) : (s.setGroup g).copyReqs = s.copyReqs := rfl
@[simp] theorem State.setGroup_engineSeq (s : State) (g : Group) : (s.setGroup g).engineSeq = s.engineSeq := rfl
@[simp] theorem State.setGroup_mgroups (s : State) (g : Group) : (s.setGroup g).mgroups = s.mgroups := rfl
@[simp] theorem State.setGroup_helds (s : State) (g : Group) : (s.setGroup g).helds = s.helds := rfl
@[simp] theorem State.setGroup_fills (s : State) (g : Group) : (s.setGroup g).fills = s.fills := rfl
@[simp] theorem State.setGroup_watches (s : State) (g : Group) : (s.setGroup g).watches = s.watches := rfl
@[simp] theorem State.setGroup_barriers (s : State) (g : Group) : (s.setGroup g).barriers = s.barriers := rfl
@[simp] theorem State.setGroup_cache (s : State) (g : Group) : (s.setGroup g).cache = s.cache := rfl
@[simp] theorem State.setGroup_cmds (s : State) (g : Group) : (s.setGroup g).cmds = s.cmds := rfl
@[simp] theorem State.setGroup_controls (s : State) (g : Group) : (s.setGroup g).controls = s.controls := rfl
@[simp] theorem State.setGroup_incarnations (s : State) (g : Group) : (s.setGroup g).incarnations = s.incarnations := rfl
@[simp] theorem State.setGroup_dieReset (s : State) (g : Group) : (s.setGroup g).dieReset = s.dieReset := rfl
@[simp] theorem State.setGroup_storage (s : State) (g : Group) : (s.setGroup g).storage = s.storage := rfl
@[simp] theorem State.setGroup_flclk (s : State) (g : Group) : (s.setGroup g).flclk = s.flclk := rfl
@[simp] theorem State.setGroup_boot (s : State) (g : Group) : (s.setGroup g).boot = s.boot := rfl
@[simp] theorem State.setGroup_fleet (s : State) (g : Group) : (s.setGroup g).fleet = s.fleet := rfl
@[simp] theorem State.setGroup_remotes (s : State) (g : Group) : (s.setGroup g).remotes = s.remotes := rfl

/-! ## State.setCore -/

@[simp] theorem State.setCore_turn (s : State) (n : Nat) (c : Core) : (s.setCore n c).turn = s.turn := rfl
@[simp] theorem State.setCore_agenda (s : State) (n : Nat) (c : Core) : (s.setCore n c).agenda = s.agenda := rfl
@[simp] theorem State.setCore_args (s : State) (n : Nat) (c : Core) : (s.setCore n c).args = s.args := rfl
@[simp] theorem State.setCore_issuer (s : State) (n : Nat) (c : Core) : (s.setCore n c).issuer = s.issuer := rfl
@[simp] theorem State.setCore_nextId (s : State) (n : Nat) (c : Core) : (s.setCore n c).nextId = s.nextId := rfl
@[simp] theorem State.setCore_fc (s : State) (n : Nat) (c : Core) : (s.setCore n c).fc = s.fc := rfl
@[simp] theorem State.setCore_dies (s : State) (n : Nat) (c : Core) : (s.setCore n c).dies = s.dies := rfl
@[simp] theorem State.setCore_groups (s : State) (n : Nat) (c : Core) : (s.setCore n c).groups = s.groups := rfl
@[simp] theorem State.setCore_blocks (s : State) (n : Nat) (c : Core) : (s.setCore n c).blocks = s.blocks := rfl
@[simp] theorem State.setCore_grids (s : State) (n : Nat) (c : Core) : (s.setCore n c).grids = s.grids := rfl
@[simp] theorem State.setCore_works (s : State) (n : Nat) (c : Core) : (s.setCore n c).works = s.works := rfl
@[simp] theorem State.setCore_gangs (s : State) (n : Nat) (c : Core) : (s.setCore n c).gangs = s.gangs := rfl
@[simp] theorem State.setCore_windows (s : State) (n : Nat) (c : Core) : (s.setCore n c).windows = s.windows := rfl
@[simp] theorem State.setCore_cores (s : State) (n : Nat) (c : Core) : (s.setCore n c).cores = putCore n c s.cores := rfl
@[simp] theorem State.setCore_mem (s : State) (n : Nat) (c : Core) : (s.setCore n c).mem = s.mem := rfl
@[simp] theorem State.setCore_poison (s : State) (n : Nat) (c : Core) : (s.setCore n c).poison = s.poison := rfl
@[simp] theorem State.setCore_mmio (s : State) (n : Nat) (c : Core) : (s.setCore n c).mmio = s.mmio := rfl
@[simp] theorem State.setCore_reqs (s : State) (n : Nat) (c : Core) : (s.setCore n c).reqs = s.reqs := rfl
@[simp] theorem State.setCore_spReqs (s : State) (n : Nat) (c : Core) : (s.setCore n c).spReqs = s.spReqs := rfl
@[simp] theorem State.setCore_records (s : State) (n : Nat) (c : Core) : (s.setCore n c).records = s.records := rfl
@[simp] theorem State.setCore_journal (s : State) (n : Nat) (c : Core) : (s.setCore n c).journal = s.journal := rfl
@[simp] theorem State.setCore_l1 (s : State) (n : Nat) (c : Core) : (s.setCore n c).l1 = s.l1 := rfl
@[simp] theorem State.setCore_l2 (s : State) (n : Nat) (c : Core) : (s.setCore n c).l2 = s.l2 := rfl
@[simp] theorem State.setCore_staleCopies (s : State) (n : Nat) (c : Core) : (s.setCore n c).staleCopies = s.staleCopies := rfl
@[simp] theorem State.setCore_regions (s : State) (n : Nat) (c : Core) : (s.setCore n c).regions = s.regions := rfl
@[simp] theorem State.setCore_persistent (s : State) (n : Nat) (c : Core) : (s.setCore n c).persistent = s.persistent := rfl
@[simp] theorem State.setCore_opens (s : State) (n : Nat) (c : Core) : (s.setCore n c).opens = s.opens := rfl
@[simp] theorem State.setCore_published (s : State) (n : Nat) (c : Core) : (s.setCore n c).published = s.published := rfl
@[simp] theorem State.setCore_queueWait (s : State) (n : Nat) (c : Core) : (s.setCore n c).queueWait = s.queueWait := rfl
@[simp] theorem State.setCore_dsqWait (s : State) (n : Nat) (c : Core) : (s.setCore n c).dsqWait = s.dsqWait := rfl
@[simp] theorem State.setCore_poolWait (s : State) (n : Nat) (c : Core) : (s.setCore n c).poolWait = s.poolWait := rfl
@[simp] theorem State.setCore_copyReqs (s : State) (n : Nat) (c : Core) : (s.setCore n c).copyReqs = s.copyReqs := rfl
@[simp] theorem State.setCore_engineSeq (s : State) (n : Nat) (c : Core) : (s.setCore n c).engineSeq = s.engineSeq := rfl
@[simp] theorem State.setCore_mgroups (s : State) (n : Nat) (c : Core) : (s.setCore n c).mgroups = s.mgroups := rfl
@[simp] theorem State.setCore_helds (s : State) (n : Nat) (c : Core) : (s.setCore n c).helds = s.helds := rfl
@[simp] theorem State.setCore_fills (s : State) (n : Nat) (c : Core) : (s.setCore n c).fills = s.fills := rfl
@[simp] theorem State.setCore_watches (s : State) (n : Nat) (c : Core) : (s.setCore n c).watches = s.watches := rfl
@[simp] theorem State.setCore_barriers (s : State) (n : Nat) (c : Core) : (s.setCore n c).barriers = s.barriers := rfl
@[simp] theorem State.setCore_cache (s : State) (n : Nat) (c : Core) : (s.setCore n c).cache = s.cache := rfl
@[simp] theorem State.setCore_cmds (s : State) (n : Nat) (c : Core) : (s.setCore n c).cmds = s.cmds := rfl
@[simp] theorem State.setCore_controls (s : State) (n : Nat) (c : Core) : (s.setCore n c).controls = s.controls := rfl
@[simp] theorem State.setCore_incarnations (s : State) (n : Nat) (c : Core) : (s.setCore n c).incarnations = s.incarnations := rfl
@[simp] theorem State.setCore_dieReset (s : State) (n : Nat) (c : Core) : (s.setCore n c).dieReset = s.dieReset := rfl
@[simp] theorem State.setCore_storage (s : State) (n : Nat) (c : Core) : (s.setCore n c).storage = s.storage := rfl
@[simp] theorem State.setCore_flclk (s : State) (n : Nat) (c : Core) : (s.setCore n c).flclk = s.flclk := rfl
@[simp] theorem State.setCore_boot (s : State) (n : Nat) (c : Core) : (s.setCore n c).boot = s.boot := rfl
@[simp] theorem State.setCore_fleet (s : State) (n : Nat) (c : Core) : (s.setCore n c).fleet = s.fleet := rfl
@[simp] theorem State.setCore_remotes (s : State) (n : Nat) (c : Core) : (s.setCore n c).remotes = s.remotes := rfl

/-! ## State.setBlock -/

@[simp] theorem State.setBlock_turn (s : State) (b : Block) : (s.setBlock b).turn = s.turn := rfl
@[simp] theorem State.setBlock_agenda (s : State) (b : Block) : (s.setBlock b).agenda = s.agenda := rfl
@[simp] theorem State.setBlock_args (s : State) (b : Block) : (s.setBlock b).args = s.args := rfl
@[simp] theorem State.setBlock_issuer (s : State) (b : Block) : (s.setBlock b).issuer = s.issuer := rfl
@[simp] theorem State.setBlock_nextId (s : State) (b : Block) : (s.setBlock b).nextId = s.nextId := rfl
@[simp] theorem State.setBlock_fc (s : State) (b : Block) : (s.setBlock b).fc = s.fc := rfl
@[simp] theorem State.setBlock_dies (s : State) (b : Block) : (s.setBlock b).dies = s.dies := rfl
@[simp] theorem State.setBlock_groups (s : State) (b : Block) : (s.setBlock b).groups = s.groups := rfl
@[simp] theorem State.setBlock_blocks (s : State) (b : Block) : (s.setBlock b).blocks = s.blocks.map (fun x => if x.id = b.id then b else x) := rfl
@[simp] theorem State.setBlock_grids (s : State) (b : Block) : (s.setBlock b).grids = s.grids := rfl
@[simp] theorem State.setBlock_works (s : State) (b : Block) : (s.setBlock b).works = s.works := rfl
@[simp] theorem State.setBlock_gangs (s : State) (b : Block) : (s.setBlock b).gangs = s.gangs := rfl
@[simp] theorem State.setBlock_windows (s : State) (b : Block) : (s.setBlock b).windows = s.windows := rfl
@[simp] theorem State.setBlock_cores (s : State) (b : Block) : (s.setBlock b).cores = s.cores := rfl
@[simp] theorem State.setBlock_mem (s : State) (b : Block) : (s.setBlock b).mem = s.mem := rfl
@[simp] theorem State.setBlock_poison (s : State) (b : Block) : (s.setBlock b).poison = s.poison := rfl
@[simp] theorem State.setBlock_mmio (s : State) (b : Block) : (s.setBlock b).mmio = s.mmio := rfl
@[simp] theorem State.setBlock_reqs (s : State) (b : Block) : (s.setBlock b).reqs = s.reqs := rfl
@[simp] theorem State.setBlock_spReqs (s : State) (b : Block) : (s.setBlock b).spReqs = s.spReqs := rfl
@[simp] theorem State.setBlock_records (s : State) (b : Block) : (s.setBlock b).records = s.records := rfl
@[simp] theorem State.setBlock_journal (s : State) (b : Block) : (s.setBlock b).journal = s.journal := rfl
@[simp] theorem State.setBlock_l1 (s : State) (b : Block) : (s.setBlock b).l1 = s.l1 := rfl
@[simp] theorem State.setBlock_l2 (s : State) (b : Block) : (s.setBlock b).l2 = s.l2 := rfl
@[simp] theorem State.setBlock_staleCopies (s : State) (b : Block) : (s.setBlock b).staleCopies = s.staleCopies := rfl
@[simp] theorem State.setBlock_regions (s : State) (b : Block) : (s.setBlock b).regions = s.regions := rfl
@[simp] theorem State.setBlock_persistent (s : State) (b : Block) : (s.setBlock b).persistent = s.persistent := rfl
@[simp] theorem State.setBlock_opens (s : State) (b : Block) : (s.setBlock b).opens = s.opens := rfl
@[simp] theorem State.setBlock_published (s : State) (b : Block) : (s.setBlock b).published = s.published := rfl
@[simp] theorem State.setBlock_queueWait (s : State) (b : Block) : (s.setBlock b).queueWait = s.queueWait := rfl
@[simp] theorem State.setBlock_dsqWait (s : State) (b : Block) : (s.setBlock b).dsqWait = s.dsqWait := rfl
@[simp] theorem State.setBlock_poolWait (s : State) (b : Block) : (s.setBlock b).poolWait = s.poolWait := rfl
@[simp] theorem State.setBlock_copyReqs (s : State) (b : Block) : (s.setBlock b).copyReqs = s.copyReqs := rfl
@[simp] theorem State.setBlock_engineSeq (s : State) (b : Block) : (s.setBlock b).engineSeq = s.engineSeq := rfl
@[simp] theorem State.setBlock_mgroups (s : State) (b : Block) : (s.setBlock b).mgroups = s.mgroups := rfl
@[simp] theorem State.setBlock_helds (s : State) (b : Block) : (s.setBlock b).helds = s.helds := rfl
@[simp] theorem State.setBlock_fills (s : State) (b : Block) : (s.setBlock b).fills = s.fills := rfl
@[simp] theorem State.setBlock_watches (s : State) (b : Block) : (s.setBlock b).watches = s.watches := rfl
@[simp] theorem State.setBlock_barriers (s : State) (b : Block) : (s.setBlock b).barriers = s.barriers := rfl
@[simp] theorem State.setBlock_cache (s : State) (b : Block) : (s.setBlock b).cache = s.cache := rfl
@[simp] theorem State.setBlock_cmds (s : State) (b : Block) : (s.setBlock b).cmds = s.cmds := rfl
@[simp] theorem State.setBlock_controls (s : State) (b : Block) : (s.setBlock b).controls = s.controls := rfl
@[simp] theorem State.setBlock_incarnations (s : State) (b : Block) : (s.setBlock b).incarnations = s.incarnations := rfl
@[simp] theorem State.setBlock_dieReset (s : State) (b : Block) : (s.setBlock b).dieReset = s.dieReset := rfl
@[simp] theorem State.setBlock_storage (s : State) (b : Block) : (s.setBlock b).storage = s.storage := rfl
@[simp] theorem State.setBlock_flclk (s : State) (b : Block) : (s.setBlock b).flclk = s.flclk := rfl
@[simp] theorem State.setBlock_boot (s : State) (b : Block) : (s.setBlock b).boot = s.boot := rfl
@[simp] theorem State.setBlock_fleet (s : State) (b : Block) : (s.setBlock b).fleet = s.fleet := rfl
@[simp] theorem State.setBlock_remotes (s : State) (b : Block) : (s.setBlock b).remotes = s.remotes := rfl

/-! ## State.setGrid -/

@[simp] theorem State.setGrid_turn (s : State) (g : Grid) : (s.setGrid g).turn = s.turn := rfl
@[simp] theorem State.setGrid_agenda (s : State) (g : Grid) : (s.setGrid g).agenda = s.agenda := rfl
@[simp] theorem State.setGrid_args (s : State) (g : Grid) : (s.setGrid g).args = s.args := rfl
@[simp] theorem State.setGrid_issuer (s : State) (g : Grid) : (s.setGrid g).issuer = s.issuer := rfl
@[simp] theorem State.setGrid_nextId (s : State) (g : Grid) : (s.setGrid g).nextId = s.nextId := rfl
@[simp] theorem State.setGrid_fc (s : State) (g : Grid) : (s.setGrid g).fc = s.fc := rfl
@[simp] theorem State.setGrid_dies (s : State) (g : Grid) : (s.setGrid g).dies = s.dies := rfl
@[simp] theorem State.setGrid_groups (s : State) (g : Grid) : (s.setGrid g).groups = s.groups := rfl
@[simp] theorem State.setGrid_blocks (s : State) (g : Grid) : (s.setGrid g).blocks = s.blocks := rfl
@[simp] theorem State.setGrid_grids (s : State) (g : Grid) : (s.setGrid g).grids = s.grids.map (fun x => if x.id = g.id then g else x) := rfl
@[simp] theorem State.setGrid_works (s : State) (g : Grid) : (s.setGrid g).works = s.works := rfl
@[simp] theorem State.setGrid_gangs (s : State) (g : Grid) : (s.setGrid g).gangs = s.gangs := rfl
@[simp] theorem State.setGrid_windows (s : State) (g : Grid) : (s.setGrid g).windows = s.windows := rfl
@[simp] theorem State.setGrid_cores (s : State) (g : Grid) : (s.setGrid g).cores = s.cores := rfl
@[simp] theorem State.setGrid_mem (s : State) (g : Grid) : (s.setGrid g).mem = s.mem := rfl
@[simp] theorem State.setGrid_poison (s : State) (g : Grid) : (s.setGrid g).poison = s.poison := rfl
@[simp] theorem State.setGrid_mmio (s : State) (g : Grid) : (s.setGrid g).mmio = s.mmio := rfl
@[simp] theorem State.setGrid_reqs (s : State) (g : Grid) : (s.setGrid g).reqs = s.reqs := rfl
@[simp] theorem State.setGrid_spReqs (s : State) (g : Grid) : (s.setGrid g).spReqs = s.spReqs := rfl
@[simp] theorem State.setGrid_records (s : State) (g : Grid) : (s.setGrid g).records = s.records := rfl
@[simp] theorem State.setGrid_journal (s : State) (g : Grid) : (s.setGrid g).journal = s.journal := rfl
@[simp] theorem State.setGrid_l1 (s : State) (g : Grid) : (s.setGrid g).l1 = s.l1 := rfl
@[simp] theorem State.setGrid_l2 (s : State) (g : Grid) : (s.setGrid g).l2 = s.l2 := rfl
@[simp] theorem State.setGrid_staleCopies (s : State) (g : Grid) : (s.setGrid g).staleCopies = s.staleCopies := rfl
@[simp] theorem State.setGrid_regions (s : State) (g : Grid) : (s.setGrid g).regions = s.regions := rfl
@[simp] theorem State.setGrid_persistent (s : State) (g : Grid) : (s.setGrid g).persistent = s.persistent := rfl
@[simp] theorem State.setGrid_opens (s : State) (g : Grid) : (s.setGrid g).opens = s.opens := rfl
@[simp] theorem State.setGrid_published (s : State) (g : Grid) : (s.setGrid g).published = s.published := rfl
@[simp] theorem State.setGrid_queueWait (s : State) (g : Grid) : (s.setGrid g).queueWait = s.queueWait := rfl
@[simp] theorem State.setGrid_dsqWait (s : State) (g : Grid) : (s.setGrid g).dsqWait = s.dsqWait := rfl
@[simp] theorem State.setGrid_poolWait (s : State) (g : Grid) : (s.setGrid g).poolWait = s.poolWait := rfl
@[simp] theorem State.setGrid_copyReqs (s : State) (g : Grid) : (s.setGrid g).copyReqs = s.copyReqs := rfl
@[simp] theorem State.setGrid_engineSeq (s : State) (g : Grid) : (s.setGrid g).engineSeq = s.engineSeq := rfl
@[simp] theorem State.setGrid_mgroups (s : State) (g : Grid) : (s.setGrid g).mgroups = s.mgroups := rfl
@[simp] theorem State.setGrid_helds (s : State) (g : Grid) : (s.setGrid g).helds = s.helds := rfl
@[simp] theorem State.setGrid_fills (s : State) (g : Grid) : (s.setGrid g).fills = s.fills := rfl
@[simp] theorem State.setGrid_watches (s : State) (g : Grid) : (s.setGrid g).watches = s.watches := rfl
@[simp] theorem State.setGrid_barriers (s : State) (g : Grid) : (s.setGrid g).barriers = s.barriers := rfl
@[simp] theorem State.setGrid_cache (s : State) (g : Grid) : (s.setGrid g).cache = s.cache := rfl
@[simp] theorem State.setGrid_cmds (s : State) (g : Grid) : (s.setGrid g).cmds = s.cmds := rfl
@[simp] theorem State.setGrid_controls (s : State) (g : Grid) : (s.setGrid g).controls = s.controls := rfl
@[simp] theorem State.setGrid_incarnations (s : State) (g : Grid) : (s.setGrid g).incarnations = s.incarnations := rfl
@[simp] theorem State.setGrid_dieReset (s : State) (g : Grid) : (s.setGrid g).dieReset = s.dieReset := rfl
@[simp] theorem State.setGrid_storage (s : State) (g : Grid) : (s.setGrid g).storage = s.storage := rfl
@[simp] theorem State.setGrid_flclk (s : State) (g : Grid) : (s.setGrid g).flclk = s.flclk := rfl
@[simp] theorem State.setGrid_boot (s : State) (g : Grid) : (s.setGrid g).boot = s.boot := rfl
@[simp] theorem State.setGrid_fleet (s : State) (g : Grid) : (s.setGrid g).fleet = s.fleet := rfl
@[simp] theorem State.setGrid_remotes (s : State) (g : Grid) : (s.setGrid g).remotes = s.remotes := rfl

/-! ## State.setDie -/

@[simp] theorem State.setDie_turn (s : State) (d : Nat) (x : Die) : (s.setDie d x).turn = s.turn := rfl
@[simp] theorem State.setDie_agenda (s : State) (d : Nat) (x : Die) : (s.setDie d x).agenda = s.agenda := rfl
@[simp] theorem State.setDie_args (s : State) (d : Nat) (x : Die) : (s.setDie d x).args = s.args := rfl
@[simp] theorem State.setDie_issuer (s : State) (d : Nat) (x : Die) : (s.setDie d x).issuer = s.issuer := rfl
@[simp] theorem State.setDie_nextId (s : State) (d : Nat) (x : Die) : (s.setDie d x).nextId = s.nextId := rfl
@[simp] theorem State.setDie_fc (s : State) (d : Nat) (x : Die) : (s.setDie d x).fc = s.fc := rfl
@[simp] theorem State.setDie_dies (s : State) (d : Nat) (x : Die) : (s.setDie d x).dies = s.dies.set d x := rfl
@[simp] theorem State.setDie_groups (s : State) (d : Nat) (x : Die) : (s.setDie d x).groups = s.groups := rfl
@[simp] theorem State.setDie_blocks (s : State) (d : Nat) (x : Die) : (s.setDie d x).blocks = s.blocks := rfl
@[simp] theorem State.setDie_grids (s : State) (d : Nat) (x : Die) : (s.setDie d x).grids = s.grids := rfl
@[simp] theorem State.setDie_works (s : State) (d : Nat) (x : Die) : (s.setDie d x).works = s.works := rfl
@[simp] theorem State.setDie_gangs (s : State) (d : Nat) (x : Die) : (s.setDie d x).gangs = s.gangs := rfl
@[simp] theorem State.setDie_windows (s : State) (d : Nat) (x : Die) : (s.setDie d x).windows = s.windows := rfl
@[simp] theorem State.setDie_cores (s : State) (d : Nat) (x : Die) : (s.setDie d x).cores = s.cores := rfl
@[simp] theorem State.setDie_mem (s : State) (d : Nat) (x : Die) : (s.setDie d x).mem = s.mem := rfl
@[simp] theorem State.setDie_poison (s : State) (d : Nat) (x : Die) : (s.setDie d x).poison = s.poison := rfl
@[simp] theorem State.setDie_mmio (s : State) (d : Nat) (x : Die) : (s.setDie d x).mmio = s.mmio := rfl
@[simp] theorem State.setDie_reqs (s : State) (d : Nat) (x : Die) : (s.setDie d x).reqs = s.reqs := rfl
@[simp] theorem State.setDie_spReqs (s : State) (d : Nat) (x : Die) : (s.setDie d x).spReqs = s.spReqs := rfl
@[simp] theorem State.setDie_records (s : State) (d : Nat) (x : Die) : (s.setDie d x).records = s.records := rfl
@[simp] theorem State.setDie_journal (s : State) (d : Nat) (x : Die) : (s.setDie d x).journal = s.journal := rfl
@[simp] theorem State.setDie_l1 (s : State) (d : Nat) (x : Die) : (s.setDie d x).l1 = s.l1 := rfl
@[simp] theorem State.setDie_l2 (s : State) (d : Nat) (x : Die) : (s.setDie d x).l2 = s.l2 := rfl
@[simp] theorem State.setDie_staleCopies (s : State) (d : Nat) (x : Die) : (s.setDie d x).staleCopies = s.staleCopies := rfl
@[simp] theorem State.setDie_regions (s : State) (d : Nat) (x : Die) : (s.setDie d x).regions = s.regions := rfl
@[simp] theorem State.setDie_persistent (s : State) (d : Nat) (x : Die) : (s.setDie d x).persistent = s.persistent := rfl
@[simp] theorem State.setDie_opens (s : State) (d : Nat) (x : Die) : (s.setDie d x).opens = s.opens := rfl
@[simp] theorem State.setDie_published (s : State) (d : Nat) (x : Die) : (s.setDie d x).published = s.published := rfl
@[simp] theorem State.setDie_queueWait (s : State) (d : Nat) (x : Die) : (s.setDie d x).queueWait = s.queueWait := rfl
@[simp] theorem State.setDie_dsqWait (s : State) (d : Nat) (x : Die) : (s.setDie d x).dsqWait = s.dsqWait := rfl
@[simp] theorem State.setDie_poolWait (s : State) (d : Nat) (x : Die) : (s.setDie d x).poolWait = s.poolWait := rfl
@[simp] theorem State.setDie_copyReqs (s : State) (d : Nat) (x : Die) : (s.setDie d x).copyReqs = s.copyReqs := rfl
@[simp] theorem State.setDie_engineSeq (s : State) (d : Nat) (x : Die) : (s.setDie d x).engineSeq = s.engineSeq := rfl
@[simp] theorem State.setDie_mgroups (s : State) (d : Nat) (x : Die) : (s.setDie d x).mgroups = s.mgroups := rfl
@[simp] theorem State.setDie_helds (s : State) (d : Nat) (x : Die) : (s.setDie d x).helds = s.helds := rfl
@[simp] theorem State.setDie_fills (s : State) (d : Nat) (x : Die) : (s.setDie d x).fills = s.fills := rfl
@[simp] theorem State.setDie_watches (s : State) (d : Nat) (x : Die) : (s.setDie d x).watches = s.watches := rfl
@[simp] theorem State.setDie_barriers (s : State) (d : Nat) (x : Die) : (s.setDie d x).barriers = s.barriers := rfl
@[simp] theorem State.setDie_cache (s : State) (d : Nat) (x : Die) : (s.setDie d x).cache = s.cache := rfl
@[simp] theorem State.setDie_cmds (s : State) (d : Nat) (x : Die) : (s.setDie d x).cmds = s.cmds := rfl
@[simp] theorem State.setDie_controls (s : State) (d : Nat) (x : Die) : (s.setDie d x).controls = s.controls := rfl
@[simp] theorem State.setDie_incarnations (s : State) (d : Nat) (x : Die) : (s.setDie d x).incarnations = s.incarnations := rfl
@[simp] theorem State.setDie_dieReset (s : State) (d : Nat) (x : Die) : (s.setDie d x).dieReset = s.dieReset := rfl
@[simp] theorem State.setDie_storage (s : State) (d : Nat) (x : Die) : (s.setDie d x).storage = s.storage := rfl
@[simp] theorem State.setDie_flclk (s : State) (d : Nat) (x : Die) : (s.setDie d x).flclk = s.flclk := rfl
@[simp] theorem State.setDie_boot (s : State) (d : Nat) (x : Die) : (s.setDie d x).boot = s.boot := rfl
@[simp] theorem State.setDie_fleet (s : State) (d : Nat) (x : Die) : (s.setDie d x).fleet = s.fleet := rfl
@[simp] theorem State.setDie_remotes (s : State) (d : Nat) (x : Die) : (s.setDie d x).remotes = s.remotes := rfl

/-! ## State.storeBytes -/

@[simp] theorem State.storeBytes_turn (s : State) (a : Nat) (bs : List Byte) : (s.storeBytes a bs).turn = s.turn := rfl
@[simp] theorem State.storeBytes_agenda (s : State) (a : Nat) (bs : List Byte) : (s.storeBytes a bs).agenda = s.agenda := rfl
@[simp] theorem State.storeBytes_args (s : State) (a : Nat) (bs : List Byte) : (s.storeBytes a bs).args = s.args := rfl
@[simp] theorem State.storeBytes_issuer (s : State) (a : Nat) (bs : List Byte) : (s.storeBytes a bs).issuer = s.issuer := rfl
@[simp] theorem State.storeBytes_nextId (s : State) (a : Nat) (bs : List Byte) : (s.storeBytes a bs).nextId = s.nextId := rfl
@[simp] theorem State.storeBytes_fc (s : State) (a : Nat) (bs : List Byte) : (s.storeBytes a bs).fc = s.fc := rfl
@[simp] theorem State.storeBytes_dies (s : State) (a : Nat) (bs : List Byte) : (s.storeBytes a bs).dies = s.dies := rfl
@[simp] theorem State.storeBytes_groups (s : State) (a : Nat) (bs : List Byte) : (s.storeBytes a bs).groups = s.groups := rfl
@[simp] theorem State.storeBytes_blocks (s : State) (a : Nat) (bs : List Byte) : (s.storeBytes a bs).blocks = s.blocks := rfl
@[simp] theorem State.storeBytes_grids (s : State) (a : Nat) (bs : List Byte) : (s.storeBytes a bs).grids = s.grids := rfl
@[simp] theorem State.storeBytes_works (s : State) (a : Nat) (bs : List Byte) : (s.storeBytes a bs).works = s.works := rfl
@[simp] theorem State.storeBytes_gangs (s : State) (a : Nat) (bs : List Byte) : (s.storeBytes a bs).gangs = s.gangs := rfl
@[simp] theorem State.storeBytes_windows (s : State) (a : Nat) (bs : List Byte) : (s.storeBytes a bs).windows = s.windows := rfl
@[simp] theorem State.storeBytes_cores (s : State) (a : Nat) (bs : List Byte) : (s.storeBytes a bs).cores = s.cores := rfl
@[simp] theorem State.storeBytes_mem (s : State) (a : Nat) (bs : List Byte) : (s.storeBytes a bs).mem = Sparse.setMany s.mem a bs := rfl
@[simp] theorem State.storeBytes_poison (s : State) (a : Nat) (bs : List Byte) : (s.storeBytes a bs).poison = s.poison := rfl
@[simp] theorem State.storeBytes_mmio (s : State) (a : Nat) (bs : List Byte) : (s.storeBytes a bs).mmio = s.mmio := rfl
@[simp] theorem State.storeBytes_reqs (s : State) (a : Nat) (bs : List Byte) : (s.storeBytes a bs).reqs = s.reqs := rfl
@[simp] theorem State.storeBytes_spReqs (s : State) (a : Nat) (bs : List Byte) : (s.storeBytes a bs).spReqs = s.spReqs := rfl
@[simp] theorem State.storeBytes_records (s : State) (a : Nat) (bs : List Byte) : (s.storeBytes a bs).records = s.records := rfl
@[simp] theorem State.storeBytes_journal (s : State) (a : Nat) (bs : List Byte) : (s.storeBytes a bs).journal = s.journal := rfl
@[simp] theorem State.storeBytes_l1 (s : State) (a : Nat) (bs : List Byte) : (s.storeBytes a bs).l1 = s.l1 := rfl
@[simp] theorem State.storeBytes_l2 (s : State) (a : Nat) (bs : List Byte) : (s.storeBytes a bs).l2 = s.l2 := rfl
@[simp] theorem State.storeBytes_staleCopies (s : State) (a : Nat) (bs : List Byte) : (s.storeBytes a bs).staleCopies = s.staleCopies := rfl
@[simp] theorem State.storeBytes_regions (s : State) (a : Nat) (bs : List Byte) : (s.storeBytes a bs).regions = s.regions := rfl
@[simp] theorem State.storeBytes_persistent (s : State) (a : Nat) (bs : List Byte) : (s.storeBytes a bs).persistent = s.persistent := rfl
@[simp] theorem State.storeBytes_opens (s : State) (a : Nat) (bs : List Byte) : (s.storeBytes a bs).opens = s.opens := rfl
@[simp] theorem State.storeBytes_published (s : State) (a : Nat) (bs : List Byte) : (s.storeBytes a bs).published = s.published := rfl
@[simp] theorem State.storeBytes_queueWait (s : State) (a : Nat) (bs : List Byte) : (s.storeBytes a bs).queueWait = s.queueWait := rfl
@[simp] theorem State.storeBytes_dsqWait (s : State) (a : Nat) (bs : List Byte) : (s.storeBytes a bs).dsqWait = s.dsqWait := rfl
@[simp] theorem State.storeBytes_poolWait (s : State) (a : Nat) (bs : List Byte) : (s.storeBytes a bs).poolWait = s.poolWait := rfl
@[simp] theorem State.storeBytes_copyReqs (s : State) (a : Nat) (bs : List Byte) : (s.storeBytes a bs).copyReqs = s.copyReqs := rfl
@[simp] theorem State.storeBytes_engineSeq (s : State) (a : Nat) (bs : List Byte) : (s.storeBytes a bs).engineSeq = s.engineSeq := rfl
@[simp] theorem State.storeBytes_mgroups (s : State) (a : Nat) (bs : List Byte) : (s.storeBytes a bs).mgroups = s.mgroups := rfl
@[simp] theorem State.storeBytes_helds (s : State) (a : Nat) (bs : List Byte) : (s.storeBytes a bs).helds = s.helds := rfl
@[simp] theorem State.storeBytes_fills (s : State) (a : Nat) (bs : List Byte) : (s.storeBytes a bs).fills = s.fills := rfl
@[simp] theorem State.storeBytes_barriers (s : State) (a : Nat) (bs : List Byte) : (s.storeBytes a bs).barriers = s.barriers := rfl
@[simp] theorem State.storeBytes_cache (s : State) (a : Nat) (bs : List Byte) : (s.storeBytes a bs).cache = s.cache := rfl
@[simp] theorem State.storeBytes_cmds (s : State) (a : Nat) (bs : List Byte) : (s.storeBytes a bs).cmds = s.cmds := rfl
@[simp] theorem State.storeBytes_controls (s : State) (a : Nat) (bs : List Byte) : (s.storeBytes a bs).controls = s.controls := rfl
@[simp] theorem State.storeBytes_incarnations (s : State) (a : Nat) (bs : List Byte) : (s.storeBytes a bs).incarnations = s.incarnations := rfl
@[simp] theorem State.storeBytes_dieReset (s : State) (a : Nat) (bs : List Byte) : (s.storeBytes a bs).dieReset = s.dieReset := rfl
@[simp] theorem State.storeBytes_storage (s : State) (a : Nat) (bs : List Byte) : (s.storeBytes a bs).storage = s.storage := rfl
@[simp] theorem State.storeBytes_flclk (s : State) (a : Nat) (bs : List Byte) : (s.storeBytes a bs).flclk = s.flclk := rfl
@[simp] theorem State.storeBytes_boot (s : State) (a : Nat) (bs : List Byte) : (s.storeBytes a bs).boot = s.boot := rfl
@[simp] theorem State.storeBytes_fleet (s : State) (a : Nat) (bs : List Byte) : (s.storeBytes a bs).fleet = s.fleet := rfl
@[simp] theorem State.storeBytes_remotes (s : State) (a : Nat) (bs : List Byte) : (s.storeBytes a bs).remotes = s.remotes := rfl

/-! ## State.setReg -/

@[simp] theorem State.setReg_turn (s : State) (off : Nat) (v : DWord) : (s.setReg off v).turn = s.turn := rfl
@[simp] theorem State.setReg_agenda (s : State) (off : Nat) (v : DWord) : (s.setReg off v).agenda = s.agenda := rfl
@[simp] theorem State.setReg_args (s : State) (off : Nat) (v : DWord) : (s.setReg off v).args = s.args := rfl
@[simp] theorem State.setReg_issuer (s : State) (off : Nat) (v : DWord) : (s.setReg off v).issuer = s.issuer := rfl
@[simp] theorem State.setReg_nextId (s : State) (off : Nat) (v : DWord) : (s.setReg off v).nextId = s.nextId := rfl
@[simp] theorem State.setReg_fc (s : State) (off : Nat) (v : DWord) : (s.setReg off v).fc = s.fc := rfl
@[simp] theorem State.setReg_dies (s : State) (off : Nat) (v : DWord) : (s.setReg off v).dies = s.dies := rfl
@[simp] theorem State.setReg_groups (s : State) (off : Nat) (v : DWord) : (s.setReg off v).groups = s.groups := rfl
@[simp] theorem State.setReg_blocks (s : State) (off : Nat) (v : DWord) : (s.setReg off v).blocks = s.blocks := rfl
@[simp] theorem State.setReg_grids (s : State) (off : Nat) (v : DWord) : (s.setReg off v).grids = s.grids := rfl
@[simp] theorem State.setReg_works (s : State) (off : Nat) (v : DWord) : (s.setReg off v).works = s.works := rfl
@[simp] theorem State.setReg_gangs (s : State) (off : Nat) (v : DWord) : (s.setReg off v).gangs = s.gangs := rfl
@[simp] theorem State.setReg_windows (s : State) (off : Nat) (v : DWord) : (s.setReg off v).windows = s.windows := rfl
@[simp] theorem State.setReg_cores (s : State) (off : Nat) (v : DWord) : (s.setReg off v).cores = s.cores := rfl
@[simp] theorem State.setReg_mem (s : State) (off : Nat) (v : DWord) : (s.setReg off v).mem = s.mem := rfl
@[simp] theorem State.setReg_poison (s : State) (off : Nat) (v : DWord) : (s.setReg off v).poison = s.poison := rfl
@[simp] theorem State.setReg_mmio (s : State) (off : Nat) (v : DWord) : (s.setReg off v).mmio = Sparse.set s.mmio off v := rfl
@[simp] theorem State.setReg_reqs (s : State) (off : Nat) (v : DWord) : (s.setReg off v).reqs = s.reqs := rfl
@[simp] theorem State.setReg_spReqs (s : State) (off : Nat) (v : DWord) : (s.setReg off v).spReqs = s.spReqs := rfl
@[simp] theorem State.setReg_records (s : State) (off : Nat) (v : DWord) : (s.setReg off v).records = s.records := rfl
@[simp] theorem State.setReg_journal (s : State) (off : Nat) (v : DWord) : (s.setReg off v).journal = s.journal := rfl
@[simp] theorem State.setReg_l1 (s : State) (off : Nat) (v : DWord) : (s.setReg off v).l1 = s.l1 := rfl
@[simp] theorem State.setReg_l2 (s : State) (off : Nat) (v : DWord) : (s.setReg off v).l2 = s.l2 := rfl
@[simp] theorem State.setReg_staleCopies (s : State) (off : Nat) (v : DWord) : (s.setReg off v).staleCopies = s.staleCopies := rfl
@[simp] theorem State.setReg_regions (s : State) (off : Nat) (v : DWord) : (s.setReg off v).regions = s.regions := rfl
@[simp] theorem State.setReg_persistent (s : State) (off : Nat) (v : DWord) : (s.setReg off v).persistent = s.persistent := rfl
@[simp] theorem State.setReg_opens (s : State) (off : Nat) (v : DWord) : (s.setReg off v).opens = s.opens := rfl
@[simp] theorem State.setReg_published (s : State) (off : Nat) (v : DWord) : (s.setReg off v).published = s.published := rfl
@[simp] theorem State.setReg_queueWait (s : State) (off : Nat) (v : DWord) : (s.setReg off v).queueWait = s.queueWait := rfl
@[simp] theorem State.setReg_dsqWait (s : State) (off : Nat) (v : DWord) : (s.setReg off v).dsqWait = s.dsqWait := rfl
@[simp] theorem State.setReg_poolWait (s : State) (off : Nat) (v : DWord) : (s.setReg off v).poolWait = s.poolWait := rfl
@[simp] theorem State.setReg_copyReqs (s : State) (off : Nat) (v : DWord) : (s.setReg off v).copyReqs = s.copyReqs := rfl
@[simp] theorem State.setReg_engineSeq (s : State) (off : Nat) (v : DWord) : (s.setReg off v).engineSeq = s.engineSeq := rfl
@[simp] theorem State.setReg_mgroups (s : State) (off : Nat) (v : DWord) : (s.setReg off v).mgroups = s.mgroups := rfl
@[simp] theorem State.setReg_helds (s : State) (off : Nat) (v : DWord) : (s.setReg off v).helds = s.helds := rfl
@[simp] theorem State.setReg_fills (s : State) (off : Nat) (v : DWord) : (s.setReg off v).fills = s.fills := rfl
@[simp] theorem State.setReg_watches (s : State) (off : Nat) (v : DWord) : (s.setReg off v).watches = s.watches := rfl
@[simp] theorem State.setReg_barriers (s : State) (off : Nat) (v : DWord) : (s.setReg off v).barriers = s.barriers := rfl
@[simp] theorem State.setReg_cache (s : State) (off : Nat) (v : DWord) : (s.setReg off v).cache = s.cache := rfl
@[simp] theorem State.setReg_cmds (s : State) (off : Nat) (v : DWord) : (s.setReg off v).cmds = s.cmds := rfl
@[simp] theorem State.setReg_controls (s : State) (off : Nat) (v : DWord) : (s.setReg off v).controls = s.controls := rfl
@[simp] theorem State.setReg_incarnations (s : State) (off : Nat) (v : DWord) : (s.setReg off v).incarnations = s.incarnations := rfl
@[simp] theorem State.setReg_dieReset (s : State) (off : Nat) (v : DWord) : (s.setReg off v).dieReset = s.dieReset := rfl
@[simp] theorem State.setReg_storage (s : State) (off : Nat) (v : DWord) : (s.setReg off v).storage = s.storage := rfl
@[simp] theorem State.setReg_flclk (s : State) (off : Nat) (v : DWord) : (s.setReg off v).flclk = s.flclk := rfl
@[simp] theorem State.setReg_boot (s : State) (off : Nat) (v : DWord) : (s.setReg off v).boot = s.boot := rfl
@[simp] theorem State.setReg_fleet (s : State) (off : Nat) (v : DWord) : (s.setReg off v).fleet = s.fleet := rfl
@[simp] theorem State.setReg_remotes (s : State) (off : Nat) (v : DWord) : (s.setReg off v).remotes = s.remotes := rfl

/-! ## State.turnOver -/

@[simp] theorem State.turnOver_turn (s : State) : s.turnOver.turn = s.turn + 1 := rfl
@[simp] theorem State.turnOver_agenda (s : State) : s.turnOver.agenda = s.agenda := rfl
@[simp] theorem State.turnOver_args (s : State) : s.turnOver.args = [] := rfl
@[simp] theorem State.turnOver_issuer (s : State) : s.turnOver.issuer = s.issuer := rfl
@[simp] theorem State.turnOver_nextId (s : State) : s.turnOver.nextId = s.nextId := rfl
@[simp] theorem State.turnOver_fc (s : State) : s.turnOver.fc = s.fc := rfl
@[simp] theorem State.turnOver_dies (s : State) : s.turnOver.dies = s.dies := rfl
@[simp] theorem State.turnOver_groups (s : State) : s.turnOver.groups = s.groups := rfl
@[simp] theorem State.turnOver_blocks (s : State) : s.turnOver.blocks = s.blocks := rfl
@[simp] theorem State.turnOver_grids (s : State) : s.turnOver.grids = s.grids := rfl
@[simp] theorem State.turnOver_works (s : State) : s.turnOver.works = s.works := rfl
@[simp] theorem State.turnOver_gangs (s : State) : s.turnOver.gangs = s.gangs := rfl
@[simp] theorem State.turnOver_windows (s : State) : s.turnOver.windows = s.windows := rfl
@[simp] theorem State.turnOver_cores (s : State) : s.turnOver.cores = s.cores := rfl
@[simp] theorem State.turnOver_mem (s : State) : s.turnOver.mem = s.mem := rfl
@[simp] theorem State.turnOver_poison (s : State) : s.turnOver.poison = s.poison := rfl
@[simp] theorem State.turnOver_mmio (s : State) : s.turnOver.mmio = s.mmio := rfl
@[simp] theorem State.turnOver_reqs (s : State) : s.turnOver.reqs = s.reqs := rfl
@[simp] theorem State.turnOver_spReqs (s : State) : s.turnOver.spReqs = s.spReqs := rfl
@[simp] theorem State.turnOver_records (s : State) : s.turnOver.records = s.records := rfl
@[simp] theorem State.turnOver_journal (s : State) : s.turnOver.journal = s.journal := rfl
@[simp] theorem State.turnOver_l1 (s : State) : s.turnOver.l1 = s.l1 := rfl
@[simp] theorem State.turnOver_l2 (s : State) : s.turnOver.l2 = s.l2 := rfl
@[simp] theorem State.turnOver_staleCopies (s : State) : s.turnOver.staleCopies = s.staleCopies := rfl
@[simp] theorem State.turnOver_regions (s : State) : s.turnOver.regions = s.regions := rfl
@[simp] theorem State.turnOver_persistent (s : State) : s.turnOver.persistent = s.persistent := rfl
@[simp] theorem State.turnOver_opens (s : State) : s.turnOver.opens = s.opens := rfl
@[simp] theorem State.turnOver_published (s : State) : s.turnOver.published = s.published := rfl
@[simp] theorem State.turnOver_queueWait (s : State) : s.turnOver.queueWait = s.queueWait := rfl
@[simp] theorem State.turnOver_dsqWait (s : State) : s.turnOver.dsqWait = s.dsqWait := rfl
@[simp] theorem State.turnOver_poolWait (s : State) : s.turnOver.poolWait = s.poolWait := rfl
@[simp] theorem State.turnOver_copyReqs (s : State) : s.turnOver.copyReqs = s.copyReqs := rfl
@[simp] theorem State.turnOver_engineSeq (s : State) : s.turnOver.engineSeq = s.engineSeq := rfl
@[simp] theorem State.turnOver_mgroups (s : State) : s.turnOver.mgroups = s.mgroups := rfl
@[simp] theorem State.turnOver_helds (s : State) : s.turnOver.helds = s.helds := rfl
@[simp] theorem State.turnOver_fills (s : State) : s.turnOver.fills = s.fills := rfl
@[simp] theorem State.turnOver_watches (s : State) : s.turnOver.watches = s.watches := rfl
@[simp] theorem State.turnOver_barriers (s : State) : s.turnOver.barriers = s.barriers := rfl
@[simp] theorem State.turnOver_cache (s : State) : s.turnOver.cache = s.cache := rfl
@[simp] theorem State.turnOver_cmds (s : State) : s.turnOver.cmds = s.cmds := rfl
@[simp] theorem State.turnOver_controls (s : State) : s.turnOver.controls = s.controls := rfl
@[simp] theorem State.turnOver_incarnations (s : State) : s.turnOver.incarnations = s.incarnations := rfl
@[simp] theorem State.turnOver_dieReset (s : State) : s.turnOver.dieReset = s.dieReset := rfl
@[simp] theorem State.turnOver_storage (s : State) : s.turnOver.storage = s.storage := rfl
@[simp] theorem State.turnOver_flclk (s : State) : s.turnOver.flclk = s.flclk := rfl
@[simp] theorem State.turnOver_boot (s : State) : s.turnOver.boot = s.boot := rfl
@[simp] theorem State.turnOver_fleet (s : State) : s.turnOver.fleet = s.fleet := rfl
@[simp] theorem State.turnOver_remotes (s : State) : s.turnOver.remotes = s.remotes := rfl

/-! ## Group.setSlot and Group.poke -/

@[simp] theorem Group.setSlot_id (g : Group) (n : SlotName) (x : Slot) : (g.setSlot n x).id = g.id := by cases n <;> rfl
@[simp] theorem Group.setSlot_core (g : Group) (n : SlotName) (x : Slot) : (g.setSlot n x).core = g.core := by cases n <;> rfl
@[simp] theorem Group.setSlot_grp (g : Group) (n : SlotName) (x : Slot) : (g.setSlot n x).grp = g.grp := by cases n <;> rfl
@[simp] theorem Group.setSlot_cid (g : Group) (n : SlotName) (x : Slot) : (g.setSlot n x).cid = g.cid := by cases n <;> rfl
@[simp] theorem Group.setSlot_block (g : Group) (n : SlotName) (x : Slot) : (g.setSlot n x).block = g.block := by cases n <;> rfl
@[simp] theorem Group.setSlot_index (g : Group) (n : SlotName) (x : Slot) : (g.setSlot n x).index = g.index := by cases n <;> rfl
@[simp] theorem Group.setSlot_lvlIdx (g : Group) (n : SlotName) (x : Slot) : (g.setSlot n x).lvlIdx = g.lvlIdx := by cases n <;> rfl
@[simp] theorem Group.setSlot_lvlDim (g : Group) (n : SlotName) (x : Slot) : (g.setSlot n x).lvlDim = g.lvlDim := by cases n <;> rfl
@[simp] theorem Group.setSlot_life (g : Group) (n : SlotName) (x : Slot) : (g.setSlot n x).life = g.life := by cases n <;> rfl
@[simp] theorem Group.setSlot_slabs (g : Group) (n : SlotName) (x : Slot) : (g.setSlot n x).slabs = g.slabs := by cases n <;> rfl
@[simp] theorem Group.setSlot_v (g : Group) (n : SlotName) (x : Slot) : (g.setSlot n x).v = g.v := by cases n <;> rfl
@[simp] theorem Group.setSlot_s (g : Group) (n : SlotName) (x : Slot) : (g.setSlot n x).s = g.s := by cases n <;> rfl
@[simp] theorem Group.setSlot_k (g : Group) (n : SlotName) (x : Slot) : (g.setSlot n x).k = g.k := by cases n <;> rfl
@[simp] theorem Group.setSlot_p (g : Group) (n : SlotName) (x : Slot) : (g.setSlot n x).p = g.p := by cases n <;> rfl
@[simp] theorem Group.setSlot_q (g : Group) (n : SlotName) (x : Slot) : (g.setSlot n x).q = g.q := by cases n <;> rfl
@[simp] theorem Group.setSlot_stale (g : Group) (n : SlotName) (x : Slot) : (g.setSlot n x).stale = g.stale := by cases n <;> rfl
@[simp] theorem Group.setSlot_late (g : Group) (n : SlotName) (x : Slot) : (g.setSlot n x).late = g.late := by cases n <;> rfl
@[simp] theorem Group.setSlot_wrote (g : Group) (n : SlotName) (x : Slot) : (g.setSlot n x).wrote = g.wrote := by cases n <;> rfl
@[simp] theorem Group.setSlot_accs (g : Group) (n : SlotName) (x : Slot) : (g.setSlot n x).accs = g.accs := by cases n <;> rfl
@[simp] theorem Group.setSlot_copies (g : Group) (n : SlotName) (x : Slot) : (g.setSlot n x).copies = g.copies := by cases n <;> rfl
@[simp] theorem Group.setSlot_openBatch (g : Group) (n : SlotName) (x : Slot) : (g.setSlot n x).openBatch = g.openBatch := by cases n <;> rfl
@[simp] theorem Group.setSlot_sealed (g : Group) (n : SlotName) (x : Slot) : (g.setSlot n x).sealed = g.sealed := by cases n <;> rfl
@[simp] theorem Group.setSlot_nextBatch (g : Group) (n : SlotName) (x : Slot) : (g.setSlot n x).nextBatch = g.nextBatch := by cases n <;> rfl
@[simp] theorem Group.setSlot_arrivals (g : Group) (n : SlotName) (x : Slot) : (g.setSlot n x).arrivals = g.arrivals := by cases n <;> rfl
@[simp] theorem Group.setSlot_mxErrors (g : Group) (n : SlotName) (x : Slot) : (g.setSlot n x).mxErrors = g.mxErrors := by cases n <;> rfl
@[simp] theorem Group.setSlot_feeding (g : Group) (n : SlotName) (x : Slot) : (g.setSlot n x).feeding = g.feeding := by cases n <;> rfl
@[simp] theorem Group.setSlot_relTurn (g : Group) (n : SlotName) (x : Slot) : (g.setSlot n x).relTurn = g.relTurn := by cases n <;> rfl
@[simp] theorem Group.poke_id (g : Group) (c : Cell) (x : DWord) : (g.poke c x).id = g.id := by
  cases c <;> unfold Group.poke <;> dsimp only; split <;> rfl
@[simp] theorem Group.poke_core (g : Group) (c : Cell) (x : DWord) : (g.poke c x).core = g.core := by
  cases c <;> unfold Group.poke <;> dsimp only; split <;> rfl
@[simp] theorem Group.poke_grp (g : Group) (c : Cell) (x : DWord) : (g.poke c x).grp = g.grp := by
  cases c <;> unfold Group.poke <;> dsimp only; split <;> rfl
@[simp] theorem Group.poke_cid (g : Group) (c : Cell) (x : DWord) : (g.poke c x).cid = g.cid := by
  cases c <;> unfold Group.poke <;> dsimp only; split <;> rfl
@[simp] theorem Group.poke_block (g : Group) (c : Cell) (x : DWord) : (g.poke c x).block = g.block := by
  cases c <;> unfold Group.poke <;> dsimp only; split <;> rfl
@[simp] theorem Group.poke_index (g : Group) (c : Cell) (x : DWord) : (g.poke c x).index = g.index := by
  cases c <;> unfold Group.poke <;> dsimp only; split <;> rfl
@[simp] theorem Group.poke_lvlIdx (g : Group) (c : Cell) (x : DWord) : (g.poke c x).lvlIdx = g.lvlIdx := by
  cases c <;> unfold Group.poke <;> dsimp only; split <;> rfl
@[simp] theorem Group.poke_lvlDim (g : Group) (c : Cell) (x : DWord) : (g.poke c x).lvlDim = g.lvlDim := by
  cases c <;> unfold Group.poke <;> dsimp only; split <;> rfl
@[simp] theorem Group.poke_life (g : Group) (c : Cell) (x : DWord) : (g.poke c x).life = g.life := by
  cases c <;> unfold Group.poke <;> dsimp only; split <;> rfl
@[simp] theorem Group.poke_slabs (g : Group) (c : Cell) (x : DWord) : (g.poke c x).slabs = g.slabs := by
  cases c <;> unfold Group.poke <;> dsimp only; split <;> rfl
@[simp] theorem Group.poke_a (g : Group) (c : Cell) (x : DWord) : (g.poke c x).a = g.a := by
  cases c <;> unfold Group.poke <;> dsimp only; split <;> rfl
@[simp] theorem Group.poke_b (g : Group) (c : Cell) (x : DWord) : (g.poke c x).b = g.b := by
  cases c <;> unfold Group.poke <;> dsimp only; split <;> rfl
@[simp] theorem Group.poke_stale (g : Group) (c : Cell) (x : DWord) : (g.poke c x).stale = g.stale := by
  cases c <;> unfold Group.poke <;> dsimp only; split <;> rfl
@[simp] theorem Group.poke_late (g : Group) (c : Cell) (x : DWord) : (g.poke c x).late = g.late := by
  cases c <;> unfold Group.poke <;> dsimp only; split <;> rfl
@[simp] theorem Group.poke_wrote (g : Group) (c : Cell) (x : DWord) : (g.poke c x).wrote = g.wrote := by
  cases c <;> unfold Group.poke <;> dsimp only; split <;> rfl
@[simp] theorem Group.poke_accs (g : Group) (c : Cell) (x : DWord) : (g.poke c x).accs = g.accs := by
  cases c <;> unfold Group.poke <;> dsimp only; split <;> rfl
@[simp] theorem Group.poke_copies (g : Group) (c : Cell) (x : DWord) : (g.poke c x).copies = g.copies := by
  cases c <;> unfold Group.poke <;> dsimp only; split <;> rfl
@[simp] theorem Group.poke_openBatch (g : Group) (c : Cell) (x : DWord) : (g.poke c x).openBatch = g.openBatch := by
  cases c <;> unfold Group.poke <;> dsimp only; split <;> rfl
@[simp] theorem Group.poke_sealed (g : Group) (c : Cell) (x : DWord) : (g.poke c x).sealed = g.sealed := by
  cases c <;> unfold Group.poke <;> dsimp only; split <;> rfl
@[simp] theorem Group.poke_nextBatch (g : Group) (c : Cell) (x : DWord) : (g.poke c x).nextBatch = g.nextBatch := by
  cases c <;> unfold Group.poke <;> dsimp only; split <;> rfl
@[simp] theorem Group.poke_arrivals (g : Group) (c : Cell) (x : DWord) : (g.poke c x).arrivals = g.arrivals := by
  cases c <;> unfold Group.poke <;> dsimp only; split <;> rfl
@[simp] theorem Group.poke_mxErrors (g : Group) (c : Cell) (x : DWord) : (g.poke c x).mxErrors = g.mxErrors := by
  cases c <;> unfold Group.poke <;> dsimp only; split <;> rfl
@[simp] theorem Group.poke_feeding (g : Group) (c : Cell) (x : DWord) : (g.poke c x).feeding = g.feeding := by
  cases c <;> unfold Group.poke <;> dsimp only; split <;> rfl
@[simp] theorem Group.poke_relTurn (g : Group) (c : Cell) (x : DWord) : (g.poke c x).relTurn = g.relTurn := by
  cases c <;> unfold Group.poke <;> dsimp only; split <;> rfl
@[simp] theorem Group.write_id (g : Group) (t : Nat) (m : Mask) (c : Cell) (x : DWord) : (g.write t m c x).id = g.id := by
  simp [Group.write]
@[simp] theorem Group.write_core (g : Group) (t : Nat) (m : Mask) (c : Cell) (x : DWord) : (g.write t m c x).core = g.core := by
  simp [Group.write]
@[simp] theorem Group.write_grp (g : Group) (t : Nat) (m : Mask) (c : Cell) (x : DWord) : (g.write t m c x).grp = g.grp := by
  simp [Group.write]
@[simp] theorem Group.write_cid (g : Group) (t : Nat) (m : Mask) (c : Cell) (x : DWord) : (g.write t m c x).cid = g.cid := by
  simp [Group.write]
@[simp] theorem Group.write_block (g : Group) (t : Nat) (m : Mask) (c : Cell) (x : DWord) : (g.write t m c x).block = g.block := by
  simp [Group.write]
@[simp] theorem Group.write_index (g : Group) (t : Nat) (m : Mask) (c : Cell) (x : DWord) : (g.write t m c x).index = g.index := by
  simp [Group.write]
@[simp] theorem Group.write_lvlIdx (g : Group) (t : Nat) (m : Mask) (c : Cell) (x : DWord) : (g.write t m c x).lvlIdx = g.lvlIdx := by
  simp [Group.write]
@[simp] theorem Group.write_lvlDim (g : Group) (t : Nat) (m : Mask) (c : Cell) (x : DWord) : (g.write t m c x).lvlDim = g.lvlDim := by
  simp [Group.write]
@[simp] theorem Group.write_life (g : Group) (t : Nat) (m : Mask) (c : Cell) (x : DWord) : (g.write t m c x).life = g.life := by
  simp [Group.write]
@[simp] theorem Group.write_slabs (g : Group) (t : Nat) (m : Mask) (c : Cell) (x : DWord) : (g.write t m c x).slabs = g.slabs := by
  simp [Group.write]
@[simp] theorem Group.write_a (g : Group) (t : Nat) (m : Mask) (c : Cell) (x : DWord) : (g.write t m c x).a = g.a := by
  simp [Group.write]
@[simp] theorem Group.write_b (g : Group) (t : Nat) (m : Mask) (c : Cell) (x : DWord) : (g.write t m c x).b = g.b := by
  simp [Group.write]
@[simp] theorem Group.write_accs (g : Group) (t : Nat) (m : Mask) (c : Cell) (x : DWord) : (g.write t m c x).accs = g.accs := by
  simp [Group.write]
@[simp] theorem Group.write_copies (g : Group) (t : Nat) (m : Mask) (c : Cell) (x : DWord) : (g.write t m c x).copies = g.copies := by
  simp [Group.write]
@[simp] theorem Group.write_openBatch (g : Group) (t : Nat) (m : Mask) (c : Cell) (x : DWord) : (g.write t m c x).openBatch = g.openBatch := by
  simp [Group.write]
@[simp] theorem Group.write_sealed (g : Group) (t : Nat) (m : Mask) (c : Cell) (x : DWord) : (g.write t m c x).sealed = g.sealed := by
  simp [Group.write]
@[simp] theorem Group.write_nextBatch (g : Group) (t : Nat) (m : Mask) (c : Cell) (x : DWord) : (g.write t m c x).nextBatch = g.nextBatch := by
  simp [Group.write]
@[simp] theorem Group.write_arrivals (g : Group) (t : Nat) (m : Mask) (c : Cell) (x : DWord) : (g.write t m c x).arrivals = g.arrivals := by
  simp [Group.write]
@[simp] theorem Group.write_mxErrors (g : Group) (t : Nat) (m : Mask) (c : Cell) (x : DWord) : (g.write t m c x).mxErrors = g.mxErrors := by
  simp [Group.write]
@[simp] theorem Group.write_feeding (g : Group) (t : Nat) (m : Mask) (c : Cell) (x : DWord) : (g.write t m c x).feeding = g.feeding := by
  simp [Group.write]
@[simp] theorem Group.write_relTurn (g : Group) (t : Nat) (m : Mask) (c : Cell) (x : DWord) : (g.write t m c x).relTurn = g.relTurn := by
  simp [Group.write]

end Sys2Proof.Machine
end

