-- ==== Sys2Proof/Laws/Completion.lean ====
section
/-! SUPPORT. Every Verric instruction answers a next state where a slot issues it; an event answers a next state or is passed over;
nothing is refused; fetching an instruction leaves every group as it was. -/
namespace Sys2Proof.Machine
open Sys2Proof

theorem goesOn_next (s : State) : goesOn (.next s) := ⟨s, rfl⟩

theorem goesOn_issue {s : State} {u : Issuer} (h : s.issuer? = some u) (k : Issuer → State) : goesOn (s.issue k) :=
  ⟨k u, by simp [State.issue, h]⟩

/-- What a meaning answers when no slot is named or the event is not due: a next state or a fault, never a refusal. -/
def notRefused (o : Host.Outcome State Fault Refusal) : Prop := ∀ r, o ≠ .refused r

theorem notRefused_issue (s : State) (k : Issuer → State) : notRefused (s.issue k) := by
  intro r
  unfold State.issue
  split <;> simp

theorem notRefused_whenDue (o : Option State) : notRefused (whenDue o) := by
  intro r
  unfold whenDue
  split <;> simp

/-- Every Verric instruction goes on where a slot is named as its issuer. -/
theorem exec_goesOn {i : Instr} (h : i.isCode = true) {s : State} {u : Issuer} (hu : s.issuer? = some u) : goesOn (exec i s) := by
  cases i with
  | nop f => exact (goesOn_issue hu _ : goesOn (execNop f s))
  | exit f => exact (goesOn_issue hu _ : goesOn (execExit f s))
  | kill f => exact (goesOn_issue hu _ : goesOn (execKill f s))
  | trap f => exact (goesOn_issue hu _ : goesOn (execTrap f s))
  | eret f => exact (goesOn_issue hu _ : goesOn (execEret f s))
  | brk f => exact (goesOn_issue hu _ : goesOn (execBrk f s))
  | sleep f => exact (goesOn_issue hu _ : goesOn (execSleep f s))
  | pmark f => exact (goesOn_issue hu _ : goesOn (execPmark f s))
  | bra f => exact (goesOn_issue hu _ : goesOn (execBra f s))
  | brc f => exact (goesOn_issue hu _ : goesOn (execBrc f s))
  | brx f => exact (goesOn_issue hu _ : goesOn (execBrx f s))
  | call f => exact (goesOn_issue hu _ : goesOn (execCall f s))
  | callx f => exact (goesOn_issue hu _ : goesOn (execCallx f s))
  | ret f => exact (goesOn_issue hu _ : goesOn (execRet f s))
  | loops f => exact (goesOn_issue hu _ : goesOn (execLoops f s))
  | elect f => exact (goesOn_issue hu _ : goesOn (execElect f s))
  | voteOr f => exact (goesOn_issue hu _ : goesOn (execVoteOr f s))
  | voteAnd f => exact (goesOn_issue hu _ : goesOn (execVoteAnd f s))
  | voteMask f => exact (goesOn_issue hu _ : goesOn (execVoteMask f s))
  | voteSame f => exact (goesOn_issue hu _ : goesOn (execVoteSame f s))
  | voteRank f => exact (goesOn_issue hu _ : goesOn (execVoteRank f s))
  | rdsrV f => exact (goesOn_issue hu _ : goesOn (execRdsrV f s))
  | rdsrS f => exact (goesOn_issue hu _ : goesOn (execRdsrS f s))
  | wrsr f => exact (goesOn_issue hu _ : goesOn (execWrsr f s))
  | fmtset f => exact (goesOn_issue hu _ : goesOn (execFmtset f s))
  | fmtget f => exact (goesOn_issue hu _ : goesOn (execFmtget f s))
  | yield f => exact (goesOn_issue hu _ : goesOn (execYield f s))
  | sadd f => exact (goesOn_issue hu _ : goesOn (execSadd f s))
  | saddImm f => exact (goesOn_issue hu _ : goesOn (execSaddImm f s))
  | ssub f => exact (goesOn_issue hu _ : goesOn (execSsub f s))
  | ssubImm f => exact (goesOn_issue hu _ : goesOn (execSsubImm f s))
  | smul f => exact (goesOn_issue hu _ : goesOn (execSmul f s))
  | smulImm f => exact (goesOn_issue hu _ : goesOn (execSmulImm f s))
  | smulh f => exact (goesOn_issue hu _ : goesOn (execSmulh f s))
  | smulhImm f => exact (goesOn_issue hu _ : goesOn (execSmulhImm f s))
  | sdiv f => exact (goesOn_issue hu _ : goesOn (execSdiv f s))
  | sdivImm f => exact (goesOn_issue hu _ : goesOn (execSdivImm f s))
  | srem f => exact (goesOn_issue hu _ : goesOn (execSrem f s))
  | sremImm f => exact (goesOn_issue hu _ : goesOn (execSremImm f s))
  | sand f => exact (goesOn_issue hu _ : goesOn (execSand f s))
  | sandImm f => exact (goesOn_issue hu _ : goesOn (execSandImm f s))
  | sor f => exact (goesOn_issue hu _ : goesOn (execSor f s))
  | sorImm f => exact (goesOn_issue hu _ : goesOn (execSorImm f s))
  | sxor f => exact (goesOn_issue hu _ : goesOn (execSxor f s))
  | sxorImm f => exact (goesOn_issue hu _ : goesOn (execSxorImm f s))
  | sshl f => exact (goesOn_issue hu _ : goesOn (execSshl f s))
  | sshlImm f => exact (goesOn_issue hu _ : goesOn (execSshlImm f s))
  | sshr f => exact (goesOn_issue hu _ : goesOn (execSshr f s))
  | sshrImm f => exact (goesOn_issue hu _ : goesOn (execSshrImm f s))
  | ssra f => exact (goesOn_issue hu _ : goesOn (execSsra f s))
  | ssraImm f => exact (goesOn_issue hu _ : goesOn (execSsraImm f s))
  | smin f => exact (goesOn_issue hu _ : goesOn (execSmin f s))
  | sminImm f => exact (goesOn_issue hu _ : goesOn (execSminImm f s))
  | smax f => exact (goesOn_issue hu _ : goesOn (execSmax f s))
  | smaxImm f => exact (goesOn_issue hu _ : goesOn (execSmaxImm f s))
  | scmp f => exact (goesOn_issue hu _ : goesOn (execScmp f s))
  | scmpImm f => exact (goesOn_issue hu _ : goesOn (execScmpImm f s))
  | ssel f => exact (goesOn_issue hu _ : goesOn (execSsel f s))
  | sselImm f => exact (goesOn_issue hu _ : goesOn (execSselImm f s))
  | smov f => exact (goesOn_issue hu _ : goesOn (execSmov f s))
  | smovi f => exact (goesOn_issue hu _ : goesOn (execSmovi f s))
  | sbfx f => exact (goesOn_issue hu _ : goesOn (execSbfx f s))
  | sbfi f => exact (goesOn_issue hu _ : goesOn (execSbfi f s))
  | spopc f => exact (goesOn_issue hu _ : goesOn (execSpopc f s))
  | sclz f => exact (goesOn_issue hu _ : goesOn (execSclz f s))
  | kset f => exact (goesOn_issue hu _ : goesOn (execKset f s))
  | kget f => exact (goesOn_issue hu _ : goesOn (execKget f s))
  | kpush f => exact (goesOn_issue hu _ : goesOn (execKpush f s))
  | kpop f => exact (goesOn_issue hu _ : goesOn (execKpop f s))
  | kswap f => exact (goesOn_issue hu _ : goesOn (execKswap f s))
  | kdepth f => exact (goesOn_issue hu _ : goesOn (execKdepth f s))
  | iadd f => exact (goesOn_issue hu _ : goesOn (execIadd f s))
  | iaddImm f => exact (goesOn_issue hu _ : goesOn (execIaddImm f s))
  | isub f => exact (goesOn_issue hu _ : goesOn (execIsub f s))
  | isubImm f => exact (goesOn_issue hu _ : goesOn (execIsubImm f s))
  | imul f => exact (goesOn_issue hu _ : goesOn (execImul f s))
  | imulImm f => exact (goesOn_issue hu _ : goesOn (execImulImm f s))
  | imulh f => exact (goesOn_issue hu _ : goesOn (execImulh f s))
  | imad f => exact (goesOn_issue hu _ : goesOn (execImad f s))
  | imadw f => exact (goesOn_issue hu _ : goesOn (execImadw f s))
  | iaddc f => exact (goesOn_issue hu _ : goesOn (execIaddc f s))
  | ishl f => exact (goesOn_issue hu _ : goesOn (execIshl f s))
  | ishlImm f => exact (goesOn_issue hu _ : goesOn (execIshlImm f s))
  | ishr f => exact (goesOn_issue hu _ : goesOn (execIshr f s))
  | ishrImm f => exact (goesOn_issue hu _ : goesOn (execIshrImm f s))
  | isra f => exact (goesOn_issue hu _ : goesOn (execIsra f s))
  | israImm f => exact (goesOn_issue hu _ : goesOn (execIsraImm f s))
  | ishf f => exact (goesOn_issue hu _ : goesOn (execIshf f s))
  | iand f => exact (goesOn_issue hu _ : goesOn (execIand f s))
  | iandImm f => exact (goesOn_issue hu _ : goesOn (execIandImm f s))
  | ior f => exact (goesOn_issue hu _ : goesOn (execIor f s))
  | iorImm f => exact (goesOn_issue hu _ : goesOn (execIorImm f s))
  | ixor f => exact (goesOn_issue hu _ : goesOn (execIxor f s))
  | ixorImm f => exact (goesOn_issue hu _ : goesOn (execIxorImm f s))
  | ilop3 f => exact (goesOn_issue hu _ : goesOn (execIlop3 f s))
  | imin f => exact (goesOn_issue hu _ : goesOn (execImin f s))
  | iminImm f => exact (goesOn_issue hu _ : goesOn (execIminImm f s))
  | imax f => exact (goesOn_issue hu _ : goesOn (execImax f s))
  | imaxImm f => exact (goesOn_issue hu _ : goesOn (execImaxImm f s))
  | iabs f => exact (goesOn_issue hu _ : goesOn (execIabs f s))
  | icmp f => exact (goesOn_issue hu _ : goesOn (execIcmp f s))
  | isel f => exact (goesOn_issue hu _ : goesOn (execIsel f s))
  | ipopc f => exact (goesOn_issue hu _ : goesOn (execIpopc f s))
  | iclz f => exact (goesOn_issue hu _ : goesOn (execIclz f s))
  | ibrev f => exact (goesOn_issue hu _ : goesOn (execIbrev f s))
  | ibfx f => exact (goesOn_issue hu _ : goesOn (execIbfx f s))
  | ibfi f => exact (goesOn_issue hu _ : goesOn (execIbfi f s))
  | idot4 f => exact (goesOn_issue hu _ : goesOn (execIdot4 f s))
  | mov f => exact (goesOn_issue hu _ : goesOn (execMov f s))
  | movs f => exact (goesOn_issue hu _ : goesOn (execMovs f s))
  | prmt f => exact (goesOn_issue hu _ : goesOn (execPrmt f s))
  | lea f => exact (goesOn_issue hu _ : goesOn (execLea f s))
  | movi f => exact (goesOn_issue hu _ : goesOn (execMovi f s))
  | rdlane f => exact (goesOn_issue hu _ : goesOn (execRdlane f s))
  | shflIdx f => exact (goesOn_issue hu _ : goesOn (execShflIdx f s))
  | shflRot f => exact (goesOn_issue hu _ : goesOn (execShflRot f s))
  | shflShift f => exact (goesOn_issue hu _ : goesOn (execShflShift f s))
  | shflXor f => exact (goesOn_issue hu _ : goesOn (execShflXor f s))
  | xch f => exact (goesOn_issue hu _ : goesOn (execXch f s))
  | fadd f => exact (goesOn_issue hu _ : goesOn (execFadd f s))
  | faddImm f => exact (goesOn_issue hu _ : goesOn (execFaddImm f s))
  | fsub f => exact (goesOn_issue hu _ : goesOn (execFsub f s))
  | fsubImm f => exact (goesOn_issue hu _ : goesOn (execFsubImm f s))
  | fmul f => exact (goesOn_issue hu _ : goesOn (execFmul f s))
  | fmulImm f => exact (goesOn_issue hu _ : goesOn (execFmulImm f s))
  | ffma f => exact (goesOn_issue hu _ : goesOn (execFfma f s))
  | fmin f => exact (goesOn_issue hu _ : goesOn (execFmin f s))
  | fminImm f => exact (goesOn_issue hu _ : goesOn (execFminImm f s))
  | fmax f => exact (goesOn_issue hu _ : goesOn (execFmax f s))
  | fmaxImm f => exact (goesOn_issue hu _ : goesOn (execFmaxImm f s))
  | fcmp f => exact (goesOn_issue hu _ : goesOn (execFcmp f s))
  | fclass f => exact (goesOn_issue hu _ : goesOn (execFclass f s))
  | frnd f => exact (goesOn_issue hu _ : goesOn (execFrnd f s))
  | fscale f => exact (goesOn_issue hu _ : goesOn (execFscale f s))
  | fdot2 f => exact (goesOn_issue hu _ : goesOn (execFdot2 f s))
  | frcp f => exact (goesOn_issue hu _ : goesOn (execFrcp f s))
  | frsq f => exact (goesOn_issue hu _ : goesOn (execFrsq f s))
  | fsqrt f => exact (goesOn_issue hu _ : goesOn (execFsqrt f s))
  | fdiv f => exact (goesOn_issue hu _ : goesOn (execFdiv f s))
  | fexp2 f => exact (goesOn_issue hu _ : goesOn (execFexp2 f s))
  | flog2 f => exact (goesOn_issue hu _ : goesOn (execFlog2 f s))
  | fsin f => exact (goesOn_issue hu _ : goesOn (execFsin f s))
  | fcos f => exact (goesOn_issue hu _ : goesOn (execFcos f s))
  | ftanh f => exact (goesOn_issue hu _ : goesOn (execFtanh f s))
  | cvt f => exact (goesOn_issue hu _ : goesOn (execCvt f s))
  | cvtp f => exact (goesOn_issue hu _ : goesOn (execCvtp f s))
  | cvtb f => exact (goesOn_issue hu _ : goesOn (execCvtb f s))
  | cvtx f => exact (goesOn_issue hu _ : goesOn (execCvtx f s))
  | ld f => exact (goesOn_issue hu _ : goesOn (execLd f s))
  | ldSx f => exact (goesOn_issue hu _ : goesOn (execLdSx f s))
  | st f => exact (goesOn_issue hu _ : goesOn (execSt f s))
  | ldu f => exact (goesOn_issue hu _ : goesOn (execLdu f s))
  | lduSx f => exact (goesOn_issue hu _ : goesOn (execLduSx f s))
  | stu f => exact (goesOn_issue hu _ : goesOn (execStu f s))
  | prf f => exact (goesOn_issue hu _ : goesOn (execPrf f s))
  | mhint f => exact (goesOn_issue hu _ : goesOn (execMhint f s))
  | cctlInv f => exact (goesOn_issue hu _ : goesOn (execCctlInv f s))
  | cctlWb f => exact (goesOn_issue hu _ : goesOn (execCctlWb f s))
  | cctlInvall f => exact (goesOn_issue hu _ : goesOn (execCctlInvall f s))
  | lds f => exact (goesOn_issue hu _ : goesOn (execLds f s))
  | ldsSx f => exact (goesOn_issue hu _ : goesOn (execLdsSx f s))
  | sts f => exact (goesOn_issue hu _ : goesOn (execSts f s))
  | atomAdd f => exact (goesOn_issue hu _ : goesOn (execAtomAdd f s))
  | atomAnd f => exact (goesOn_issue hu _ : goesOn (execAtomAnd f s))
  | atomOr f => exact (goesOn_issue hu _ : goesOn (execAtomOr f s))
  | atomXor f => exact (goesOn_issue hu _ : goesOn (execAtomXor f s))
  | atomMinS f => exact (goesOn_issue hu _ : goesOn (execAtomMinS f s))
  | atomMaxS f => exact (goesOn_issue hu _ : goesOn (execAtomMaxS f s))
  | atomMinU f => exact (goesOn_issue hu _ : goesOn (execAtomMinU f s))
  | atomMaxU f => exact (goesOn_issue hu _ : goesOn (execAtomMaxU f s))
  | atomExch f => exact (goesOn_issue hu _ : goesOn (execAtomExch f s))
  | atomCas f => exact (goesOn_issue hu _ : goesOn (execAtomCas f s))
  | atomInc f => exact (goesOn_issue hu _ : goesOn (execAtomInc f s))
  | atomDec f => exact (goesOn_issue hu _ : goesOn (execAtomDec f s))
  | atomFadd f => exact (goesOn_issue hu _ : goesOn (execAtomFadd f s))
  | atomsAdd f => exact (goesOn_issue hu _ : goesOn (execAtomsAdd f s))
  | atomsAnd f => exact (goesOn_issue hu _ : goesOn (execAtomsAnd f s))
  | atomsOr f => exact (goesOn_issue hu _ : goesOn (execAtomsOr f s))
  | atomsXor f => exact (goesOn_issue hu _ : goesOn (execAtomsXor f s))
  | atomsMinS f => exact (goesOn_issue hu _ : goesOn (execAtomsMinS f s))
  | atomsMaxS f => exact (goesOn_issue hu _ : goesOn (execAtomsMaxS f s))
  | atomsMinU f => exact (goesOn_issue hu _ : goesOn (execAtomsMinU f s))
  | atomsMaxU f => exact (goesOn_issue hu _ : goesOn (execAtomsMaxU f s))
  | atomsExch f => exact (goesOn_issue hu _ : goesOn (execAtomsExch f s))
  | atomsCas f => exact (goesOn_issue hu _ : goesOn (execAtomsCas f s))
  | atomsInc f => exact (goesOn_issue hu _ : goesOn (execAtomsInc f s))
  | atomsDec f => exact (goesOn_issue hu _ : goesOn (execAtomsDec f s))
  | atomsFadd f => exact (goesOn_issue hu _ : goesOn (execAtomsFadd f s))
  | redAdd f => exact (goesOn_issue hu _ : goesOn (execRedAdd f s))
  | redAnd f => exact (goesOn_issue hu _ : goesOn (execRedAnd f s))
  | redOr f => exact (goesOn_issue hu _ : goesOn (execRedOr f s))
  | redXor f => exact (goesOn_issue hu _ : goesOn (execRedXor f s))
  | redMinS f => exact (goesOn_issue hu _ : goesOn (execRedMinS f s))
  | redMaxS f => exact (goesOn_issue hu _ : goesOn (execRedMaxS f s))
  | redMinU f => exact (goesOn_issue hu _ : goesOn (execRedMinU f s))
  | redMaxU f => exact (goesOn_issue hu _ : goesOn (execRedMaxU f s))
  | redFadd f => exact (goesOn_issue hu _ : goesOn (execRedFadd f s))
  | updIadd32 f => exact (goesOn_issue hu _ : goesOn (execUpdIadd32 f s))
  | updIadd64 f => exact (goesOn_issue hu _ : goesOn (execUpdIadd64 f s))
  | updFadd32 f => exact (goesOn_issue hu _ : goesOn (execUpdFadd32 f s))
  | updFadd64 f => exact (goesOn_issue hu _ : goesOn (execUpdFadd64 f s))
  | updSmax32 f => exact (goesOn_issue hu _ : goesOn (execUpdSmax32 f s))
  | updSmin32 f => exact (goesOn_issue hu _ : goesOn (execUpdSmin32 f s))
  | updZmax32 f => exact (goesOn_issue hu _ : goesOn (execUpdZmax32 f s))
  | updZmin32 f => exact (goesOn_issue hu _ : goesOn (execUpdZmin32 f s))
  | updFmax32 f => exact (goesOn_issue hu _ : goesOn (execUpdFmax32 f s))
  | updFmin32 f => exact (goesOn_issue hu _ : goesOn (execUpdFmin32 f s))
  | updAnd64 f => exact (goesOn_issue hu _ : goesOn (execUpdAnd64 f s))
  | updOr64 f => exact (goesOn_issue hu _ : goesOn (execUpdOr64 f s))
  | updXor64 f => exact (goesOn_issue hu _ : goesOn (execUpdXor64 f s))
  | fence f => exact (goesOn_issue hu _ : goesOn (execFence f s))
  | mxacq f => exact (goesOn_issue hu _ : goesOn (execMxacq f s))
  | mxacqPair f => exact (goesOn_issue hu _ : goesOn (execMxacqPair f s))
  | mxrel f => exact (goesOn_issue hu _ : goesOn (execMxrel f s))
  | mxrdy f => exact (goesOn_issue hu _ : goesOn (execMxrdy f s))
  | mma f => exact (goesOn_issue hu _ : goesOn (execMma f s))
  | mmab f => exact (goesOn_issue hu _ : goesOn (execMmab f s))
  | mxwait f => exact (goesOn_issue hu _ : goesOn (execMxwait f s))
  | mxrd f => exact (goesOn_issue hu _ : goesOn (execMxrd f s))
  | mxwr f => exact (goesOn_issue hu _ : goesOn (execMxwr f s))
  | mxzero f => exact (goesOn_issue hu _ : goesOn (execMxzero f s))
  | mxst f => exact (goesOn_issue hu _ : goesOn (execMxst f s))
  | mxtest f => exact (goesOn_issue hu _ : goesOn (execMxtest f s))
  | cpyLd f => exact (goesOn_issue hu _ : goesOn (execCpyLd f s))
  | cpySt f => exact (goesOn_issue hu _ : goesOn (execCpySt f s))
  | cpseal f => exact (goesOn_issue hu _ : goesOn (execCpseal f s))
  | cpwait f => exact (goesOn_issue hu _ : goesOn (execCpwait f s))
  | mcjoin f => exact (goesOn_issue hu _ : goesOn (execMcjoin f s))
  | mcleave f => exact (goesOn_issue hu _ : goesOn (execMcleave f s))
  | mcld f => exact (goesOn_issue hu _ : goesOn (execMcld f s))
  | bar f => exact (goesOn_issue hu _ : goesOn (execBar f s))
  | bara f => exact (goesOn_issue hu _ : goesOn (execBara f s))
  | barw f => exact (goesOn_issue hu _ : goesOn (execBarw f s))
  | boinit f => exact (goesOn_issue hu _ : goesOn (execBoinit f s))
  | boarr f => exact (goesOn_issue hu _ : goesOn (execBoarr f s))
  | bowait f => exact (goesOn_issue hu _ : goesOn (execBowait f s))
  | qinit f => exact (goesOn_issue hu _ : goesOn (execQinit f s))
  | qpush f => exact (goesOn_issue hu _ : goesOn (execQpush f s))
  | qpop f => exact (goesOn_issue hu _ : goesOn (execQpop f s))
  | waitc f => exact (goesOn_issue hu _ : goesOn (execWaitc f s))
  | waitw f => exact (goesOn_issue hu _ : goesOn (execWaitw f s))
  | rgrow f => exact (goesOn_issue hu _ : goesOn (execRgrow f s))
  | rshrink f => exact (goesOn_issue hu _ : goesOn (execRshrink f s))
  | launch f => exact (goesOn_issue hu _ : goesOn (execLaunch f s))
  | xchTimeout => cases h
  | mxOpRetire => cases h
  | copyRequestDone => cases h
  | heldEntryEnter => cases h
  | heldEntryTimer => cases h
  | fillDelivery => cases h
  | watchWake => cases h
  | waitwPoll => cases h
  | waitwSaveThreshold => cases h
  | sleepWake => cases h
  | spillMoveDone => cases h
  | lineRefetch => cases h
  | loadReply => cases h
  | storePerformed => cases h
  | spAccessDone => cases h
  | atomReply => cases h
  | redAck => cases h
  | prfAccept => cases h
  | tierLookup => cases h
  | l2MissFill => cases h
  | tokenRequest => cases h
  | persistentRequest => cases h
  | invalidationArrive => cases h
  | invalidationApply => cases h
  | l1DirtyWriteback => cases h
  | directoryGrant => cases h
  | invalidationAck => cases h
  | regionMerge => cases h
  | atomAtHome => cases h
  | switchCombine => cases h
  | decombine => cases h
  | lostsplit => cases h
  | retired => cases h
  | atomlost => cases h
  | atomlostTimeout => cases h
  | updOpen => cases h
  | lineClose => cases h
  | uCopyEvict => cases h
  | maquetteTest => cases h
  | blockRelease => cases h
  | queueDoorbell => cases h
  | queuePacketRead => cases h
  | queueErrClear => cases h
  | hostdone => cases h
  | hostPacket => cases h
  | copyPacket => cases h
  | dsqRead => cases h
  | dsqValidTimeout => cases h
  | blockPlace => cases h
  | affinityTimeout => cases h
  | saveRequest => cases h
  | blockSaved => cases h
  | blockResume => cases h
  | gangReserve => cases h
  | gangEvict => cases h
  | gangTimeout => cases h
  | workComplete => cases h
  | contextActivate => cases h
  | contextInvalidate => cases h
  | contextRetire => cases h
  | scorepadInterval => cases h
  | verdictRetry => cases h
  | verdictFail => cases h
  | verdictTimeout => cases h
  | hold => cases h
  | drain => cases h
  | drainTimeout => cases h
  | shoot => cases h
  | write => cases h
  | release => cases h
  | force => cases h
  | inval => cases h
  | wbScan => cases h
  | storageWriteDone => cases h
  | controlResend => cases h
  | domdead => cases h
  | late => cases h
  | dieReset => cases h
  | dieEvacuated => cases h
  | dieResetTimeout => cases h
  | egressWaitTimeout => cases h
  | flitCrcError => cases h
  | linkRetrain => cases h
  | linkdown => cases h
  | linepoison => cases h
  | pclr => cases h
  | spmark => cases h
  | coldStart => cases h
  | warmStart => cases h
  | moduleState => cases h
  | pdie => cases h
  | clgate => cases h
  | itripClear => cases h
  | thermalWarning => cases h
  | criticalThermalTrip => cases h
  | currentLimitTrip => cases h
  | spanPortEnable => cases h
  | revoke => cases h
  | revokeDeadline => cases h
  | flashPromote => cases h
  | versionReclaim => cases h
  | info => cases h
  | readlive => cases h
  | readret => cases h
  | ack => cases h
  | totals => cases h
  | health => cases h
  | ceiling => cases h
  | setmodid => cases h
  | start => cases h
  | mctpControl => cases h
  | getVersion => cases h
  | getCapabilities => cases h
  | negotiateAlgorithms => cases h
  | getDigests => cases h
  | getCertificate => cases h
  | challenge => cases h
  | getMeasurements => cases h
  | registerWrite => cases h
  | mainPowerLoss => cases h
  | evacuationTimeout => cases h
  | powerTransitionDone => cases h
  | linkTrained => cases h
  | aDieAccess => cases h
  | recoveryImageUpdate => cases h
  | flashDemotion => cases h
  | unsupportedRequest => cases h

/-- No meaning refuses. -/
theorem exec_notRefused (i : Instr) (s : State) : notRefused (exec i s) := by
  cases i with
  | nop f => exact (notRefused_issue s _ : notRefused (execNop f s))
  | exit f => exact (notRefused_issue s _ : notRefused (execExit f s))
  | kill f => exact (notRefused_issue s _ : notRefused (execKill f s))
  | trap f => exact (notRefused_issue s _ : notRefused (execTrap f s))
  | eret f => exact (notRefused_issue s _ : notRefused (execEret f s))
  | brk f => exact (notRefused_issue s _ : notRefused (execBrk f s))
  | sleep f => exact (notRefused_issue s _ : notRefused (execSleep f s))
  | pmark f => exact (notRefused_issue s _ : notRefused (execPmark f s))
  | bra f => exact (notRefused_issue s _ : notRefused (execBra f s))
  | brc f => exact (notRefused_issue s _ : notRefused (execBrc f s))
  | brx f => exact (notRefused_issue s _ : notRefused (execBrx f s))
  | call f => exact (notRefused_issue s _ : notRefused (execCall f s))
  | callx f => exact (notRefused_issue s _ : notRefused (execCallx f s))
  | ret f => exact (notRefused_issue s _ : notRefused (execRet f s))
  | loops f => exact (notRefused_issue s _ : notRefused (execLoops f s))
  | elect f => exact (notRefused_issue s _ : notRefused (execElect f s))
  | voteOr f => exact (notRefused_issue s _ : notRefused (execVoteOr f s))
  | voteAnd f => exact (notRefused_issue s _ : notRefused (execVoteAnd f s))
  | voteMask f => exact (notRefused_issue s _ : notRefused (execVoteMask f s))
  | voteSame f => exact (notRefused_issue s _ : notRefused (execVoteSame f s))
  | voteRank f => exact (notRefused_issue s _ : notRefused (execVoteRank f s))
  | rdsrV f => exact (notRefused_issue s _ : notRefused (execRdsrV f s))
  | rdsrS f => exact (notRefused_issue s _ : notRefused (execRdsrS f s))
  | wrsr f => exact (notRefused_issue s _ : notRefused (execWrsr f s))
  | fmtset f => exact (notRefused_issue s _ : notRefused (execFmtset f s))
  | fmtget f => exact (notRefused_issue s _ : notRefused (execFmtget f s))
  | yield f => exact (notRefused_issue s _ : notRefused (execYield f s))
  | sadd f => exact (notRefused_issue s _ : notRefused (execSadd f s))
  | saddImm f => exact (notRefused_issue s _ : notRefused (execSaddImm f s))
  | ssub f => exact (notRefused_issue s _ : notRefused (execSsub f s))
  | ssubImm f => exact (notRefused_issue s _ : notRefused (execSsubImm f s))
  | smul f => exact (notRefused_issue s _ : notRefused (execSmul f s))
  | smulImm f => exact (notRefused_issue s _ : notRefused (execSmulImm f s))
  | smulh f => exact (notRefused_issue s _ : notRefused (execSmulh f s))
  | smulhImm f => exact (notRefused_issue s _ : notRefused (execSmulhImm f s))
  | sdiv f => exact (notRefused_issue s _ : notRefused (execSdiv f s))
  | sdivImm f => exact (notRefused_issue s _ : notRefused (execSdivImm f s))
  | srem f => exact (notRefused_issue s _ : notRefused (execSrem f s))
  | sremImm f => exact (notRefused_issue s _ : notRefused (execSremImm f s))
  | sand f => exact (notRefused_issue s _ : notRefused (execSand f s))
  | sandImm f => exact (notRefused_issue s _ : notRefused (execSandImm f s))
  | sor f => exact (notRefused_issue s _ : notRefused (execSor f s))
  | sorImm f => exact (notRefused_issue s _ : notRefused (execSorImm f s))
  | sxor f => exact (notRefused_issue s _ : notRefused (execSxor f s))
  | sxorImm f => exact (notRefused_issue s _ : notRefused (execSxorImm f s))
  | sshl f => exact (notRefused_issue s _ : notRefused (execSshl f s))
  | sshlImm f => exact (notRefused_issue s _ : notRefused (execSshlImm f s))
  | sshr f => exact (notRefused_issue s _ : notRefused (execSshr f s))
  | sshrImm f => exact (notRefused_issue s _ : notRefused (execSshrImm f s))
  | ssra f => exact (notRefused_issue s _ : notRefused (execSsra f s))
  | ssraImm f => exact (notRefused_issue s _ : notRefused (execSsraImm f s))
  | smin f => exact (notRefused_issue s _ : notRefused (execSmin f s))
  | sminImm f => exact (notRefused_issue s _ : notRefused (execSminImm f s))
  | smax f => exact (notRefused_issue s _ : notRefused (execSmax f s))
  | smaxImm f => exact (notRefused_issue s _ : notRefused (execSmaxImm f s))
  | scmp f => exact (notRefused_issue s _ : notRefused (execScmp f s))
  | scmpImm f => exact (notRefused_issue s _ : notRefused (execScmpImm f s))
  | ssel f => exact (notRefused_issue s _ : notRefused (execSsel f s))
  | sselImm f => exact (notRefused_issue s _ : notRefused (execSselImm f s))
  | smov f => exact (notRefused_issue s _ : notRefused (execSmov f s))
  | smovi f => exact (notRefused_issue s _ : notRefused (execSmovi f s))
  | sbfx f => exact (notRefused_issue s _ : notRefused (execSbfx f s))
  | sbfi f => exact (notRefused_issue s _ : notRefused (execSbfi f s))
  | spopc f => exact (notRefused_issue s _ : notRefused (execSpopc f s))
  | sclz f => exact (notRefused_issue s _ : notRefused (execSclz f s))
  | kset f => exact (notRefused_issue s _ : notRefused (execKset f s))
  | kget f => exact (notRefused_issue s _ : notRefused (execKget f s))
  | kpush f => exact (notRefused_issue s _ : notRefused (execKpush f s))
  | kpop f => exact (notRefused_issue s _ : notRefused (execKpop f s))
  | kswap f => exact (notRefused_issue s _ : notRefused (execKswap f s))
  | kdepth f => exact (notRefused_issue s _ : notRefused (execKdepth f s))
  | iadd f => exact (notRefused_issue s _ : notRefused (execIadd f s))
  | iaddImm f => exact (notRefused_issue s _ : notRefused (execIaddImm f s))
  | isub f => exact (notRefused_issue s _ : notRefused (execIsub f s))
  | isubImm f => exact (notRefused_issue s _ : notRefused (execIsubImm f s))
  | imul f => exact (notRefused_issue s _ : notRefused (execImul f s))
  | imulImm f => exact (notRefused_issue s _ : notRefused (execImulImm f s))
  | imulh f => exact (notRefused_issue s _ : notRefused (execImulh f s))
  | imad f => exact (notRefused_issue s _ : notRefused (execImad f s))
  | imadw f => exact (notRefused_issue s _ : notRefused (execImadw f s))
  | iaddc f => exact (notRefused_issue s _ : notRefused (execIaddc f s))
  | ishl f => exact (notRefused_issue s _ : notRefused (execIshl f s))
  | ishlImm f => exact (notRefused_issue s _ : notRefused (execIshlImm f s))
  | ishr f => exact (notRefused_issue s _ : notRefused (execIshr f s))
  | ishrImm f => exact (notRefused_issue s _ : notRefused (execIshrImm f s))
  | isra f => exact (notRefused_issue s _ : notRefused (execIsra f s))
  | israImm f => exact (notRefused_issue s _ : notRefused (execIsraImm f s))
  | ishf f => exact (notRefused_issue s _ : notRefused (execIshf f s))
  | iand f => exact (notRefused_issue s _ : notRefused (execIand f s))
  | iandImm f => exact (notRefused_issue s _ : notRefused (execIandImm f s))
  | ior f => exact (notRefused_issue s _ : notRefused (execIor f s))
  | iorImm f => exact (notRefused_issue s _ : notRefused (execIorImm f s))
  | ixor f => exact (notRefused_issue s _ : notRefused (execIxor f s))
  | ixorImm f => exact (notRefused_issue s _ : notRefused (execIxorImm f s))
  | ilop3 f => exact (notRefused_issue s _ : notRefused (execIlop3 f s))
  | imin f => exact (notRefused_issue s _ : notRefused (execImin f s))
  | iminImm f => exact (notRefused_issue s _ : notRefused (execIminImm f s))
  | imax f => exact (notRefused_issue s _ : notRefused (execImax f s))
  | imaxImm f => exact (notRefused_issue s _ : notRefused (execImaxImm f s))
  | iabs f => exact (notRefused_issue s _ : notRefused (execIabs f s))
  | icmp f => exact (notRefused_issue s _ : notRefused (execIcmp f s))
  | isel f => exact (notRefused_issue s _ : notRefused (execIsel f s))
  | ipopc f => exact (notRefused_issue s _ : notRefused (execIpopc f s))
  | iclz f => exact (notRefused_issue s _ : notRefused (execIclz f s))
  | ibrev f => exact (notRefused_issue s _ : notRefused (execIbrev f s))
  | ibfx f => exact (notRefused_issue s _ : notRefused (execIbfx f s))
  | ibfi f => exact (notRefused_issue s _ : notRefused (execIbfi f s))
  | idot4 f => exact (notRefused_issue s _ : notRefused (execIdot4 f s))
  | mov f => exact (notRefused_issue s _ : notRefused (execMov f s))
  | movs f => exact (notRefused_issue s _ : notRefused (execMovs f s))
  | prmt f => exact (notRefused_issue s _ : notRefused (execPrmt f s))
  | lea f => exact (notRefused_issue s _ : notRefused (execLea f s))
  | movi f => exact (notRefused_issue s _ : notRefused (execMovi f s))
  | rdlane f => exact (notRefused_issue s _ : notRefused (execRdlane f s))
  | shflIdx f => exact (notRefused_issue s _ : notRefused (execShflIdx f s))
  | shflRot f => exact (notRefused_issue s _ : notRefused (execShflRot f s))
  | shflShift f => exact (notRefused_issue s _ : notRefused (execShflShift f s))
  | shflXor f => exact (notRefused_issue s _ : notRefused (execShflXor f s))
  | xch f => exact (notRefused_issue s _ : notRefused (execXch f s))
  | fadd f => exact (notRefused_issue s _ : notRefused (execFadd f s))
  | faddImm f => exact (notRefused_issue s _ : notRefused (execFaddImm f s))
  | fsub f => exact (notRefused_issue s _ : notRefused (execFsub f s))
  | fsubImm f => exact (notRefused_issue s _ : notRefused (execFsubImm f s))
  | fmul f => exact (notRefused_issue s _ : notRefused (execFmul f s))
  | fmulImm f => exact (notRefused_issue s _ : notRefused (execFmulImm f s))
  | ffma f => exact (notRefused_issue s _ : notRefused (execFfma f s))
  | fmin f => exact (notRefused_issue s _ : notRefused (execFmin f s))
  | fminImm f => exact (notRefused_issue s _ : notRefused (execFminImm f s))
  | fmax f => exact (notRefused_issue s _ : notRefused (execFmax f s))
  | fmaxImm f => exact (notRefused_issue s _ : notRefused (execFmaxImm f s))
  | fcmp f => exact (notRefused_issue s _ : notRefused (execFcmp f s))
  | fclass f => exact (notRefused_issue s _ : notRefused (execFclass f s))
  | frnd f => exact (notRefused_issue s _ : notRefused (execFrnd f s))
  | fscale f => exact (notRefused_issue s _ : notRefused (execFscale f s))
  | fdot2 f => exact (notRefused_issue s _ : notRefused (execFdot2 f s))
  | frcp f => exact (notRefused_issue s _ : notRefused (execFrcp f s))
  | frsq f => exact (notRefused_issue s _ : notRefused (execFrsq f s))
  | fsqrt f => exact (notRefused_issue s _ : notRefused (execFsqrt f s))
  | fdiv f => exact (notRefused_issue s _ : notRefused (execFdiv f s))
  | fexp2 f => exact (notRefused_issue s _ : notRefused (execFexp2 f s))
  | flog2 f => exact (notRefused_issue s _ : notRefused (execFlog2 f s))
  | fsin f => exact (notRefused_issue s _ : notRefused (execFsin f s))
  | fcos f => exact (notRefused_issue s _ : notRefused (execFcos f s))
  | ftanh f => exact (notRefused_issue s _ : notRefused (execFtanh f s))
  | cvt f => exact (notRefused_issue s _ : notRefused (execCvt f s))
  | cvtp f => exact (notRefused_issue s _ : notRefused (execCvtp f s))
  | cvtb f => exact (notRefused_issue s _ : notRefused (execCvtb f s))
  | cvtx f => exact (notRefused_issue s _ : notRefused (execCvtx f s))
  | ld f => exact (notRefused_issue s _ : notRefused (execLd f s))
  | ldSx f => exact (notRefused_issue s _ : notRefused (execLdSx f s))
  | st f => exact (notRefused_issue s _ : notRefused (execSt f s))
  | ldu f => exact (notRefused_issue s _ : notRefused (execLdu f s))
  | lduSx f => exact (notRefused_issue s _ : notRefused (execLduSx f s))
  | stu f => exact (notRefused_issue s _ : notRefused (execStu f s))
  | prf f => exact (notRefused_issue s _ : notRefused (execPrf f s))
  | mhint f => exact (notRefused_issue s _ : notRefused (execMhint f s))
  | cctlInv f => exact (notRefused_issue s _ : notRefused (execCctlInv f s))
  | cctlWb f => exact (notRefused_issue s _ : notRefused (execCctlWb f s))
  | cctlInvall f => exact (notRefused_issue s _ : notRefused (execCctlInvall f s))
  | lds f => exact (notRefused_issue s _ : notRefused (execLds f s))
  | ldsSx f => exact (notRefused_issue s _ : notRefused (execLdsSx f s))
  | sts f => exact (notRefused_issue s _ : notRefused (execSts f s))
  | atomAdd f => exact (notRefused_issue s _ : notRefused (execAtomAdd f s))
  | atomAnd f => exact (notRefused_issue s _ : notRefused (execAtomAnd f s))
  | atomOr f => exact (notRefused_issue s _ : notRefused (execAtomOr f s))
  | atomXor f => exact (notRefused_issue s _ : notRefused (execAtomXor f s))
  | atomMinS f => exact (notRefused_issue s _ : notRefused (execAtomMinS f s))
  | atomMaxS f => exact (notRefused_issue s _ : notRefused (execAtomMaxS f s))
  | atomMinU f => exact (notRefused_issue s _ : notRefused (execAtomMinU f s))
  | atomMaxU f => exact (notRefused_issue s _ : notRefused (execAtomMaxU f s))
  | atomExch f => exact (notRefused_issue s _ : notRefused (execAtomExch f s))
  | atomCas f => exact (notRefused_issue s _ : notRefused (execAtomCas f s))
  | atomInc f => exact (notRefused_issue s _ : notRefused (execAtomInc f s))
  | atomDec f => exact (notRefused_issue s _ : notRefused (execAtomDec f s))
  | atomFadd f => exact (notRefused_issue s _ : notRefused (execAtomFadd f s))
  | atomsAdd f => exact (notRefused_issue s _ : notRefused (execAtomsAdd f s))
  | atomsAnd f => exact (notRefused_issue s _ : notRefused (execAtomsAnd f s))
  | atomsOr f => exact (notRefused_issue s _ : notRefused (execAtomsOr f s))
  | atomsXor f => exact (notRefused_issue s _ : notRefused (execAtomsXor f s))
  | atomsMinS f => exact (notRefused_issue s _ : notRefused (execAtomsMinS f s))
  | atomsMaxS f => exact (notRefused_issue s _ : notRefused (execAtomsMaxS f s))
  | atomsMinU f => exact (notRefused_issue s _ : notRefused (execAtomsMinU f s))
  | atomsMaxU f => exact (notRefused_issue s _ : notRefused (execAtomsMaxU f s))
  | atomsExch f => exact (notRefused_issue s _ : notRefused (execAtomsExch f s))
  | atomsCas f => exact (notRefused_issue s _ : notRefused (execAtomsCas f s))
  | atomsInc f => exact (notRefused_issue s _ : notRefused (execAtomsInc f s))
  | atomsDec f => exact (notRefused_issue s _ : notRefused (execAtomsDec f s))
  | atomsFadd f => exact (notRefused_issue s _ : notRefused (execAtomsFadd f s))
  | redAdd f => exact (notRefused_issue s _ : notRefused (execRedAdd f s))
  | redAnd f => exact (notRefused_issue s _ : notRefused (execRedAnd f s))
  | redOr f => exact (notRefused_issue s _ : notRefused (execRedOr f s))
  | redXor f => exact (notRefused_issue s _ : notRefused (execRedXor f s))
  | redMinS f => exact (notRefused_issue s _ : notRefused (execRedMinS f s))
  | redMaxS f => exact (notRefused_issue s _ : notRefused (execRedMaxS f s))
  | redMinU f => exact (notRefused_issue s _ : notRefused (execRedMinU f s))
  | redMaxU f => exact (notRefused_issue s _ : notRefused (execRedMaxU f s))
  | redFadd f => exact (notRefused_issue s _ : notRefused (execRedFadd f s))
  | updIadd32 f => exact (notRefused_issue s _ : notRefused (execUpdIadd32 f s))
  | updIadd64 f => exact (notRefused_issue s _ : notRefused (execUpdIadd64 f s))
  | updFadd32 f => exact (notRefused_issue s _ : notRefused (execUpdFadd32 f s))
  | updFadd64 f => exact (notRefused_issue s _ : notRefused (execUpdFadd64 f s))
  | updSmax32 f => exact (notRefused_issue s _ : notRefused (execUpdSmax32 f s))
  | updSmin32 f => exact (notRefused_issue s _ : notRefused (execUpdSmin32 f s))
  | updZmax32 f => exact (notRefused_issue s _ : notRefused (execUpdZmax32 f s))
  | updZmin32 f => exact (notRefused_issue s _ : notRefused (execUpdZmin32 f s))
  | updFmax32 f => exact (notRefused_issue s _ : notRefused (execUpdFmax32 f s))
  | updFmin32 f => exact (notRefused_issue s _ : notRefused (execUpdFmin32 f s))
  | updAnd64 f => exact (notRefused_issue s _ : notRefused (execUpdAnd64 f s))
  | updOr64 f => exact (notRefused_issue s _ : notRefused (execUpdOr64 f s))
  | updXor64 f => exact (notRefused_issue s _ : notRefused (execUpdXor64 f s))
  | fence f => exact (notRefused_issue s _ : notRefused (execFence f s))
  | mxacq f => exact (notRefused_issue s _ : notRefused (execMxacq f s))
  | mxacqPair f => exact (notRefused_issue s _ : notRefused (execMxacqPair f s))
  | mxrel f => exact (notRefused_issue s _ : notRefused (execMxrel f s))
  | mxrdy f => exact (notRefused_issue s _ : notRefused (execMxrdy f s))
  | mma f => exact (notRefused_issue s _ : notRefused (execMma f s))
  | mmab f => exact (notRefused_issue s _ : notRefused (execMmab f s))
  | mxwait f => exact (notRefused_issue s _ : notRefused (execMxwait f s))
  | mxrd f => exact (notRefused_issue s _ : notRefused (execMxrd f s))
  | mxwr f => exact (notRefused_issue s _ : notRefused (execMxwr f s))
  | mxzero f => exact (notRefused_issue s _ : notRefused (execMxzero f s))
  | mxst f => exact (notRefused_issue s _ : notRefused (execMxst f s))
  | mxtest f => exact (notRefused_issue s _ : notRefused (execMxtest f s))
  | cpyLd f => exact (notRefused_issue s _ : notRefused (execCpyLd f s))
  | cpySt f => exact (notRefused_issue s _ : notRefused (execCpySt f s))
  | cpseal f => exact (notRefused_issue s _ : notRefused (execCpseal f s))
  | cpwait f => exact (notRefused_issue s _ : notRefused (execCpwait f s))
  | mcjoin f => exact (notRefused_issue s _ : notRefused (execMcjoin f s))
  | mcleave f => exact (notRefused_issue s _ : notRefused (execMcleave f s))
  | mcld f => exact (notRefused_issue s _ : notRefused (execMcld f s))
  | bar f => exact (notRefused_issue s _ : notRefused (execBar f s))
  | bara f => exact (notRefused_issue s _ : notRefused (execBara f s))
  | barw f => exact (notRefused_issue s _ : notRefused (execBarw f s))
  | boinit f => exact (notRefused_issue s _ : notRefused (execBoinit f s))
  | boarr f => exact (notRefused_issue s _ : notRefused (execBoarr f s))
  | bowait f => exact (notRefused_issue s _ : notRefused (execBowait f s))
  | qinit f => exact (notRefused_issue s _ : notRefused (execQinit f s))
  | qpush f => exact (notRefused_issue s _ : notRefused (execQpush f s))
  | qpop f => exact (notRefused_issue s _ : notRefused (execQpop f s))
  | waitc f => exact (notRefused_issue s _ : notRefused (execWaitc f s))
  | waitw f => exact (notRefused_issue s _ : notRefused (execWaitw f s))
  | rgrow f => exact (notRefused_issue s _ : notRefused (execRgrow f s))
  | rshrink f => exact (notRefused_issue s _ : notRefused (execRshrink f s))
  | launch f => exact (notRefused_issue s _ : notRefused (execLaunch f s))
  | xchTimeout => exact (notRefused_whenDue _ : notRefused (execXchTimeout s))
  | mxOpRetire => exact (notRefused_whenDue _ : notRefused (execMxOpRetire s))
  | copyRequestDone => exact (notRefused_whenDue _ : notRefused (execCopyRequestDone s))
  | heldEntryEnter => exact (notRefused_whenDue _ : notRefused (execHeldEntryEnter s))
  | heldEntryTimer => exact (notRefused_whenDue _ : notRefused (execHeldEntryTimer s))
  | fillDelivery => exact (notRefused_whenDue _ : notRefused (execFillDelivery s))
  | watchWake => exact (notRefused_whenDue _ : notRefused (execWatchWake s))
  | waitwPoll => exact (notRefused_whenDue _ : notRefused (execWaitwPoll s))
  | waitwSaveThreshold => exact (notRefused_whenDue _ : notRefused (execWaitwSaveThreshold s))
  | sleepWake => exact (notRefused_whenDue _ : notRefused (execSleepWake s))
  | spillMoveDone => exact (notRefused_whenDue _ : notRefused (execSpillMoveDone s))
  | lineRefetch => exact (notRefused_whenDue _ : notRefused (execLineRefetch s))
  | loadReply => exact (notRefused_whenDue _ : notRefused (execLoadReply s))
  | storePerformed => exact (notRefused_whenDue _ : notRefused (execStorePerformed s))
  | spAccessDone => exact (notRefused_whenDue _ : notRefused (execSpAccessDone s))
  | atomReply => exact (notRefused_whenDue _ : notRefused (execAtomReply s))
  | redAck => exact (notRefused_whenDue _ : notRefused (execRedAck s))
  | prfAccept => exact (notRefused_whenDue _ : notRefused (execPrfAccept s))
  | tierLookup => exact (notRefused_whenDue _ : notRefused (execTierLookup s))
  | l2MissFill => exact (notRefused_whenDue _ : notRefused (execL2MissFill s))
  | tokenRequest => exact (notRefused_whenDue _ : notRefused (execTokenRequest s))
  | persistentRequest => exact (notRefused_whenDue _ : notRefused (execPersistentRequest s))
  | invalidationArrive => exact (notRefused_whenDue _ : notRefused (execInvalidationArrive s))
  | invalidationApply => exact (notRefused_whenDue _ : notRefused (execInvalidationApply s))
  | l1DirtyWriteback => exact (notRefused_whenDue _ : notRefused (execL1DirtyWriteback s))
  | directoryGrant => exact (notRefused_whenDue _ : notRefused (execDirectoryGrant s))
  | invalidationAck => exact (notRefused_whenDue _ : notRefused (execInvalidationAck s))
  | regionMerge => exact (notRefused_whenDue _ : notRefused (execRegionMerge s))
  | atomAtHome => exact (notRefused_whenDue _ : notRefused (execAtomAtHome s))
  | switchCombine => exact (notRefused_whenDue _ : notRefused (execSwitchCombine s))
  | decombine => exact (notRefused_whenDue _ : notRefused (execDecombine s))
  | lostsplit => exact (notRefused_whenDue _ : notRefused (execLostsplit s))
  | retired => exact (notRefused_whenDue _ : notRefused (execRetired s))
  | atomlost => exact (notRefused_whenDue _ : notRefused (execAtomlost s))
  | atomlostTimeout => exact (notRefused_whenDue _ : notRefused (execAtomlostTimeout s))
  | updOpen => exact (notRefused_whenDue _ : notRefused (execUpdOpen s))
  | lineClose => exact (notRefused_whenDue _ : notRefused (execLineClose s))
  | uCopyEvict => exact (notRefused_whenDue _ : notRefused (execUCopyEvict s))
  | maquetteTest => exact (notRefused_whenDue _ : notRefused (execMaquetteTest s))
  | blockRelease => exact (notRefused_whenDue _ : notRefused (execBlockRelease s))
  | queueDoorbell => exact (notRefused_whenDue _ : notRefused (execQueueDoorbell s))
  | queuePacketRead => exact (notRefused_whenDue _ : notRefused (execQueuePacketRead s))
  | queueErrClear => exact (notRefused_whenDue _ : notRefused (execQueueErrClear s))
  | hostdone => exact (notRefused_whenDue _ : notRefused (execHostdone s))
  | hostPacket => exact (notRefused_whenDue _ : notRefused (execHostPacket s))
  | copyPacket => exact (notRefused_whenDue _ : notRefused (execCopyPacket s))
  | dsqRead => exact (notRefused_whenDue _ : notRefused (execDsqRead s))
  | dsqValidTimeout => exact (notRefused_whenDue _ : notRefused (execDsqValidTimeout s))
  | blockPlace => exact (notRefused_whenDue _ : notRefused (execBlockPlace s))
  | affinityTimeout => exact (notRefused_whenDue _ : notRefused (execAffinityTimeout s))
  | saveRequest => exact (notRefused_whenDue _ : notRefused (execSaveRequest s))
  | blockSaved => exact (notRefused_whenDue _ : notRefused (execBlockSaved s))
  | blockResume => exact (notRefused_whenDue _ : notRefused (execBlockResume s))
  | gangReserve => exact (notRefused_whenDue _ : notRefused (execGangReserve s))
  | gangEvict => exact (notRefused_whenDue _ : notRefused (execGangEvict s))
  | gangTimeout => exact (notRefused_whenDue _ : notRefused (execGangTimeout s))
  | workComplete => exact (notRefused_whenDue _ : notRefused (execWorkComplete s))
  | contextActivate => exact (notRefused_whenDue _ : notRefused (execContextActivate s))
  | contextInvalidate => exact (notRefused_whenDue _ : notRefused (execContextInvalidate s))
  | contextRetire => exact (notRefused_whenDue _ : notRefused (execContextRetire s))
  | scorepadInterval => exact (notRefused_whenDue _ : notRefused (execScorepadInterval s))
  | verdictRetry => exact (notRefused_whenDue _ : notRefused (execVerdictRetry s))
  | verdictFail => exact (notRefused_whenDue _ : notRefused (execVerdictFail s))
  | verdictTimeout => exact (notRefused_whenDue _ : notRefused (execVerdictTimeout s))
  | hold => exact (notRefused_whenDue _ : notRefused (execHold s))
  | drain => exact (notRefused_whenDue _ : notRefused (execDrain s))
  | drainTimeout => exact (notRefused_whenDue _ : notRefused (execDrainTimeout s))
  | shoot => exact (notRefused_whenDue _ : notRefused (execShoot s))
  | write => exact (notRefused_whenDue _ : notRefused (execWrite s))
  | release => exact (notRefused_whenDue _ : notRefused (execRelease s))
  | force => exact (notRefused_whenDue _ : notRefused (execForce s))
  | inval => exact (notRefused_whenDue _ : notRefused (execInval s))
  | wbScan => exact (notRefused_whenDue _ : notRefused (execWbScan s))
  | storageWriteDone => exact (notRefused_whenDue _ : notRefused (execStorageWriteDone s))
  | controlResend => exact (notRefused_whenDue _ : notRefused (execControlResend s))
  | domdead => exact (notRefused_whenDue _ : notRefused (execDomdead s))
  | late => exact (notRefused_whenDue _ : notRefused (execLate s))
  | dieReset => exact (notRefused_whenDue _ : notRefused (execDieReset s))
  | dieEvacuated => exact (notRefused_whenDue _ : notRefused (execDieEvacuated s))
  | dieResetTimeout => exact (notRefused_whenDue _ : notRefused (execDieResetTimeout s))
  | egressWaitTimeout => exact (notRefused_whenDue _ : notRefused (execEgressWaitTimeout s))
  | flitCrcError => exact (notRefused_whenDue _ : notRefused (execFlitCrcError s))
  | linkRetrain => exact (notRefused_whenDue _ : notRefused (execLinkRetrain s))
  | linkdown => exact (notRefused_whenDue _ : notRefused (execLinkdown s))
  | linepoison => exact (notRefused_whenDue _ : notRefused (execLinepoison s))
  | pclr => exact (notRefused_whenDue _ : notRefused (execPclr s))
  | spmark => exact (notRefused_whenDue _ : notRefused (execSpmark s))
  | coldStart => exact (notRefused_whenDue _ : notRefused (execColdStart s))
  | warmStart => exact (notRefused_whenDue _ : notRefused (execWarmStart s))
  | moduleState => exact (notRefused_whenDue _ : notRefused (execModuleState s))
  | pdie => exact (notRefused_whenDue _ : notRefused (execPdie s))
  | clgate => exact (notRefused_whenDue _ : notRefused (execClgate s))
  | itripClear => exact (notRefused_whenDue _ : notRefused (execItripClear s))
  | thermalWarning => exact (notRefused_whenDue _ : notRefused (execThermalWarning s))
  | criticalThermalTrip => exact (notRefused_whenDue _ : notRefused (execCriticalThermalTrip s))
  | currentLimitTrip => exact (notRefused_whenDue _ : notRefused (execCurrentLimitTrip s))
  | spanPortEnable => exact (notRefused_whenDue _ : notRefused (execSpanPortEnable s))
  | revoke => exact (notRefused_whenDue _ : notRefused (execRevoke s))
  | revokeDeadline => exact (notRefused_whenDue _ : notRefused (execRevokeDeadline s))
  | flashPromote => exact (notRefused_whenDue _ : notRefused (execFlashPromote s))
  | versionReclaim => exact (notRefused_whenDue _ : notRefused (execVersionReclaim s))
  | info => exact (notRefused_whenDue _ : notRefused (execInfo s))
  | readlive => exact (notRefused_whenDue _ : notRefused (execReadlive s))
  | readret => exact (notRefused_whenDue _ : notRefused (execReadret s))
  | ack => exact (notRefused_whenDue _ : notRefused (execAck s))
  | totals => exact (notRefused_whenDue _ : notRefused (execTotals s))
  | health => exact (notRefused_whenDue _ : notRefused (execHealth s))
  | ceiling => exact (notRefused_whenDue _ : notRefused (execCeiling s))
  | setmodid => exact (notRefused_whenDue _ : notRefused (execSetmodid s))
  | start => exact (notRefused_whenDue _ : notRefused (execStart s))
  | mctpControl => exact (notRefused_whenDue _ : notRefused (execMctpControl s))
  | getVersion => exact (notRefused_whenDue _ : notRefused (execGetVersion s))
  | getCapabilities => exact (notRefused_whenDue _ : notRefused (execGetCapabilities s))
  | negotiateAlgorithms => exact (notRefused_whenDue _ : notRefused (execNegotiateAlgorithms s))
  | getDigests => exact (notRefused_whenDue _ : notRefused (execGetDigests s))
  | getCertificate => exact (notRefused_whenDue _ : notRefused (execGetCertificate s))
  | challenge => exact (notRefused_whenDue _ : notRefused (execChallenge s))
  | getMeasurements => exact (notRefused_whenDue _ : notRefused (execGetMeasurements s))
  | registerWrite => exact (notRefused_whenDue _ : notRefused (execRegisterWrite s))
  | mainPowerLoss => exact (notRefused_whenDue _ : notRefused (execMainPowerLoss s))
  | evacuationTimeout => exact (notRefused_whenDue _ : notRefused (execEvacuationTimeout s))
  | powerTransitionDone => exact (notRefused_whenDue _ : notRefused (execPowerTransitionDone s))
  | linkTrained => exact (notRefused_whenDue _ : notRefused (execLinkTrained s))
  | aDieAccess => exact (notRefused_whenDue _ : notRefused (execADieAccess s))
  | recoveryImageUpdate => exact (notRefused_whenDue _ : notRefused (execRecoveryImageUpdate s))
  | flashDemotion => exact (notRefused_whenDue _ : notRefused (execFlashDemotion s))
  | unsupportedRequest => exact (notRefused_whenDue _ : notRefused (execUnsupportedRequest s))

/-! ## Fetching an instruction leaves the groups alone -/

@[simp] theorem State.storeN_groups (s : State) (a n v : Nat) : (s.storeN a n v).groups = s.groups := rfl
@[simp] theorem State.closeLine_groups (s : State) (line : Nat) : (s.closeLine line).groups = s.groups := by
  unfold State.closeLine; split <;> rfl
@[simp] theorem State.readClosing_groups (s : State) (a n : Nat) : (s.readClosing a n).1.groups = s.groups := by
  simp [State.readClosing]
@[simp] theorem State.readEntry_groups (s : State) (a : Nat) : (s.readEntry a).1.groups = s.groups := by simp [State.readEntry]
@[simp] theorem State.findEntry_groups (s : State) (t : Tier) (i c l : Nat) : (s.findEntry t i c l).1.groups = s.groups := by
  unfold State.findEntry
  split
  · rfl
  · split
    · split
      · rfl
      · simp [State.keepCached, State.dropCached]
    · simp [State.keepCached]
theorem State.walk_groups (n : Nat) : ∀ (s : State) (mb table off : Nat), (s.walk mb table off n).1.groups = s.groups := by
  induction n with
  | zero => intros; rfl
  | succ n ih =>
    intro s mb table off
    unfold State.walk
    dsimp only
    split
    · split <;> simp
    · split
      · rw [ih]; simp
      · simp
@[simp] theorem State.pageWalk_groups (s : State) (t : Tier) (i l : Nat) (e : Entry) (k : DWord) (o0 o : Nat) (n r : BitVec 5) (d : Nat) :
    (s.pageWalk t i l e k o0 o n r d).1.groups = s.groups := by
  have h := State.walk_groups 4 s (if t == .remote then remoteBase i else 0) e.root o
  unfold State.pageWalk
  dsimp only
  generalize State.walk s _ e.root o 4 = p at h ⊢
  obtain ⟨s', w⟩ := p
  dsimp only at h ⊢
  simp only [apply_ite Prod.fst, apply_ite State.groups, State.storeN_groups, h, ite_self]
@[simp] theorem State.lookAt_groups (s : State) (t : Tier) (i c : Nat) (k : DWord) (o : Nat) (n r : BitVec 5) (d : Nat) :
    (s.lookAt t i c k o n r d).1.groups = s.groups := by
  unfold State.lookAt
  dsimp only
  repeat' split
  all_goals simp
theorem State.lookFrom_groups (c : Nat) (n : BitVec 5) (d : Nat) (fuel : Nat) :
    ∀ (s : State) (t : Tier) (i : Nat) (k : DWord) (o : Nat) (r : BitVec 5), (s.lookFrom c n d fuel t i k o r).1.groups = s.groups := by
  induction fuel with
  | zero => intros; rfl
  | succ m ih =>
    intro s t i k o r
    unfold State.lookFrom
    have h := State.lookAt_groups s t i c k o n r d
    split
    · next s' _ _ _ _ _ he => rw [ih]; rw [he] at h; exact h
    · exact h
@[simp] theorem State.resolve_groups (s : State) (cid c d : Nat) (k : DWord) (o : Nat) (n : BitVec 5) : (s.resolve cid c d k o n).1.groups = s.groups := by
  unfold State.resolve
  split
  · rfl
  · exact State.lookFrom_groups ..
@[simp] theorem State.fetchLine_groups (s : State) (g : Group) (pc : Nat) : (s.fetchLine g pc).1.groups = s.groups := by
  unfold State.fetchLine
  have h := State.resolve_groups s g.cid g.core (coreDie g.core) (s.launch g).codeK ((s.launch g).codeOff + 64 * (pc / 5)) rightX
  dsimp only
  split <;> next he => (rw [he] at h; simpa using h)
/-- Fetching an instruction leaves every group as it was. -/
@[simp] theorem State.nextInstr_groups (s : State) (g : Group) (x : Slot) : (s.nextInstr g x).1.groups = s.groups := by
  unfold State.nextInstr
  have h := State.fetchLine_groups s g x.pc.toNat
  split
  · split <;> next he => (rw [he] at h; exact h)
  · rfl
end Sys2Proof.Machine
end

