-- ==== Sys2Proof/Laws/Encoding.lean ====
section
/-! SUPPORT. Packing a form's fields and taking them out again agree, both ways; a packed word names its opcode, its function code and no
reserved bit; and so a well-formed instruction's packed word decodes to it. -/
namespace Sys2Proof

/-- Two neighbouring fields of a code are one field. -/
theorem Code.bits_join {c : Code} {hi m lo n : Nat} (h : hi = lo + n) : Code.bits c hi m ++ Code.bits c lo n = Code.bits c lo (m + n) := by
  apply BitVec.eq_of_getLsbD_eq
  intro i hi
  subst h
  rw [BitVec.getLsbD_append]
  simp only [Code.bits, BitVec.getLsbD_extractLsb']
  by_cases hn : i < n
  · simp [hn, hi]
  · have e : lo + n + (i - n) = lo + i := by omega
    have hm : i - n < m := by omega
    simp [hn, hi, e, hm]

theorem Code.bits_bit (c : Code) (i : Nat) : bitOf (Code.bit c i) = Code.bits c i 1 := by
  apply BitVec.eq_of_getLsbD_eq
  intro j hj
  have e : j = 0 := by omega
  subst e
  simp [bitOf, Code.bit, Code.bits]

theorem Code.bits_all (c : Code) : Code.bits c 0 96 = c := BitVec.extractLsb'_eq_self

theorem Common.op_pack (f : Common) (op fn : Nat) (u : BitVec 79) : Code.op (f.pack op fn u) = op % 256 := by
  simp only [Code.op, Code.bits, Common.pack]
  repeat first | rw [BitVec.extractLsb'_append_eq_of_add_le (by decide)] | rw [BitVec.extractLsb'_append_eq_of_le (by decide)]
  simp

theorem Common.fn_pack (f : Common) (op fn : Nat) (u : BitVec 79) : Code.fn (f.pack op fn u) = fn % 16 := by
  simp only [Code.fn, Code.bits, Common.pack]
  repeat first | rw [BitVec.extractLsb'_append_eq_of_add_le (by decide)] | rw [BitVec.extractLsb'_append_eq_of_le (by decide)]
  simp

theorem formOf_lt {op : Nat} {fm : Form} (h : formOf op = some fm) : op < 256 := by
  unfold formOf at h
  split at h <;> first | decide | cases h

/-- A code whose opcode has a form, whose fields name a well-formed instruction, and whose reserved bits are zero, decodes to it. -/
theorem decode_of {c : Code} {fm : Form} {i : Instr} (hf : formOf (Code.op c) = some fm) (hr : rawDecode fm c = some i)
    (hz : fm.reservedZero c = true) (hw : i.wf = true) : decode c = .ok i := by
  simp [decode, hf, hr, hz, hw]

/-- What a code that decodes holds. -/
theorem of_decode {c : Code} {i : Instr} (h : decode c = .ok i) :
    ∃ fm, formOf (Code.op c) = some fm ∧ rawDecode fm c = some i ∧ fm.reservedZero c = true ∧ i.wf = true := by
  unfold decode at h
  split at h
  · cases h
  · split at h
    · cases h
    · split at h
      · split at h
        · cases h; exact ⟨_, ‹_›, ‹_›, ‹_›, ‹_›⟩
        · cases h
      · cases h

theorem VR.unpack_pack (f : VR) (op fn : Nat) : VR.unpack (f.pack op fn) = f := by
  obtain ⟨⟨sw, pg, pn⟩, d, a, b, c, u, t, rm, sat, na, nb, nc, aa, ab, bu, cu, ru, pd⟩ := f
  simp only [VR.unpack, VR.pack, Common.pack, Code.common, Code.bits, Code.bit, bitOf, VR.mk.injEq, Common.mk.injEq]
  and_intros
  all_goals first
    | (repeat first | rw [BitVec.extractLsb'_append_eq_of_add_le (by decide)] | rw [BitVec.extractLsb'_append_eq_of_le (by decide)])
      exact BitVec.extractLsb'_eq_self
    | (repeat rw [BitVec.getLsbD_append]); simp

theorem VR.reserved_pack (f : VR) (op fn : Nat) : Form.vr.reservedZero (f.pack op fn) = true := by
  simp only [Form.reservedZero, VR.pack, Common.pack, Code.bits, bitOf, beq_iff_eq]
  and_intros
  all_goals
    (repeat first | rw [BitVec.extractLsb'_append_eq_of_add_le (by decide)] | rw [BitVec.extractLsb'_append_eq_of_le (by decide)])
    exact BitVec.extractLsb'_eq_self

theorem VR.pack_unpack {c : Code} (h : Form.vr.reservedZero c = true) : (VR.unpack c).pack (Code.op c) (Code.fn c) = c := by
  simp only [Form.reservedZero, beq_iff_eq] at h
  simp only [VR.unpack, VR.pack, Common.pack, Code.common, Code.op, Code.fn, BitVec.ofNat_toNat, BitVec.setWidth_eq, Code.bits_bit]
  rw [← h]
  repeat rw [Code.bits_join (by decide)]
  exact Code.bits_all c

theorem VR.decode_pack {f : VR} {op fn : Nat} {i : Instr} (hf : formOf op = some .vr) (hn : fn < 16) (hi : vrInstr op fn f = some i)
    (hw : i.wf = true) : decode (f.pack op fn) = .ok i := by
  have ho : Code.op (f.pack op fn) = op := (Common.op_pack _ op fn _).trans (Nat.mod_eq_of_lt (formOf_lt hf))
  have hfn : Code.fn (f.pack op fn) = fn := (Common.fn_pack _ op fn _).trans (Nat.mod_eq_of_lt hn)
  exact decode_of (fm := .vr) (by rw [ho, hf]) (by simp only [rawDecode, ho, hfn, VR.unpack_pack]; exact hi) (VR.reserved_pack f op fn) hw

theorem VI.unpack_pack (f : VI) (op fn : Nat) : VI.unpack (f.pack op fn) = f := by
  obtain ⟨⟨sw, pg, pn⟩, d, a, t, rm, sat, imm⟩ := f
  simp only [VI.unpack, VI.pack, Common.pack, Code.common, Code.bits, Code.bit, bitOf, VI.mk.injEq, Common.mk.injEq]
  and_intros
  all_goals first
    | (repeat first | rw [BitVec.extractLsb'_append_eq_of_add_le (by decide)] | rw [BitVec.extractLsb'_append_eq_of_le (by decide)])
      exact BitVec.extractLsb'_eq_self
    | (repeat rw [BitVec.getLsbD_append]); simp

theorem VI.reserved_pack (f : VI) (op fn : Nat) : Form.vi.reservedZero (f.pack op fn) = true := by
  simp only [Form.reservedZero, VI.pack, Common.pack, Code.bits, bitOf, beq_iff_eq]
  and_intros
  all_goals
    (repeat first | rw [BitVec.extractLsb'_append_eq_of_add_le (by decide)] | rw [BitVec.extractLsb'_append_eq_of_le (by decide)])
    exact BitVec.extractLsb'_eq_self

theorem VI.pack_unpack {c : Code} (h : Form.vi.reservedZero c = true) : (VI.unpack c).pack (Code.op c) (Code.fn c) = c := by
  simp only [Form.reservedZero, beq_iff_eq] at h
  simp only [VI.unpack, VI.pack, Common.pack, Code.common, Code.op, Code.fn, BitVec.ofNat_toNat, BitVec.setWidth_eq, Code.bits_bit]
  rw [← h]
  repeat rw [Code.bits_join (by decide)]
  exact Code.bits_all c

theorem VI.decode_pack {f : VI} {op fn : Nat} {i : Instr} (hf : formOf op = some .vi) (hn : fn < 16) (hi : viInstr op fn f = some i)
    (hw : i.wf = true) : decode (f.pack op fn) = .ok i := by
  have ho : Code.op (f.pack op fn) = op := (Common.op_pack _ op fn _).trans (Nat.mod_eq_of_lt (formOf_lt hf))
  have hfn : Code.fn (f.pack op fn) = fn := (Common.fn_pack _ op fn _).trans (Nat.mod_eq_of_lt hn)
  exact decode_of (fm := .vi) (by rw [ho, hf]) (by simp only [rawDecode, ho, hfn, VI.unpack_pack]; exact hi) (VI.reserved_pack f op fn) hw

theorem SR.unpack_pack (f : SR) (op fn : Nat) : SR.unpack (f.pack op fn) = f := by
  obtain ⟨⟨sw, pg, pn⟩, sd, sa, sb, sc, qd, t, imm⟩ := f
  simp only [SR.unpack, SR.pack, Common.pack, Code.common, Code.bits, Code.bit, bitOf, SR.mk.injEq, Common.mk.injEq]
  and_intros
  all_goals first
    | (repeat first | rw [BitVec.extractLsb'_append_eq_of_add_le (by decide)] | rw [BitVec.extractLsb'_append_eq_of_le (by decide)])
      exact BitVec.extractLsb'_eq_self
    | (repeat rw [BitVec.getLsbD_append]); simp

theorem SR.reserved_pack (f : SR) (op fn : Nat) : Form.sr.reservedZero (f.pack op fn) = true := by
  simp only [Form.reservedZero, SR.pack, Common.pack, Code.bits, bitOf, beq_iff_eq]
  and_intros
  all_goals
    (repeat first | rw [BitVec.extractLsb'_append_eq_of_add_le (by decide)] | rw [BitVec.extractLsb'_append_eq_of_le (by decide)])
    exact BitVec.extractLsb'_eq_self

theorem SR.pack_unpack {c : Code} (h : Form.sr.reservedZero c = true) : (SR.unpack c).pack (Code.op c) (Code.fn c) = c := by
  simp only [Form.reservedZero, beq_iff_eq] at h
  simp only [SR.unpack, SR.pack, Common.pack, Code.common, Code.op, Code.fn, BitVec.ofNat_toNat, BitVec.setWidth_eq, Code.bits_bit]
  rw [← h]
  repeat rw [Code.bits_join (by decide)]
  exact Code.bits_all c

theorem SR.decode_pack {f : SR} {op fn : Nat} {i : Instr} (hf : formOf op = some .sr) (hn : fn < 16) (hi : srInstr op fn f = some i)
    (hw : i.wf = true) : decode (f.pack op fn) = .ok i := by
  have ho : Code.op (f.pack op fn) = op := (Common.op_pack _ op fn _).trans (Nat.mod_eq_of_lt (formOf_lt hf))
  have hfn : Code.fn (f.pack op fn) = fn := (Common.fn_pack _ op fn _).trans (Nat.mod_eq_of_lt hn)
  exact decode_of (fm := .sr) (by rw [ho, hf]) (by simp only [rawDecode, ho, hfn, SR.unpack_pack]; exact hi) (SR.reserved_pack f op fn) hw

theorem MF.unpack_pack (f : MF) (op fn : Nat) : MF.unpack (f.pack op fn) = f := by
  obtain ⟨⟨sw, pg, pn⟩, d, a, c, u, sz, ord, scp, ch, ow, spc, peer, disp⟩ := f
  simp only [MF.unpack, MF.pack, Common.pack, Code.common, Code.bits, Code.bit, bitOf, MF.mk.injEq, Common.mk.injEq]
  and_intros
  all_goals first
    | (repeat first | rw [BitVec.extractLsb'_append_eq_of_add_le (by decide)] | rw [BitVec.extractLsb'_append_eq_of_le (by decide)])
      exact BitVec.extractLsb'_eq_self
    | (repeat rw [BitVec.getLsbD_append]); simp

theorem MF.reserved_pack (f : MF) (op fn : Nat) : Form.m.reservedZero (f.pack op fn) = true := by
  simp only [Form.reservedZero, MF.pack, Common.pack, Code.bits, bitOf, Bool.and_eq_true, beq_iff_eq]
  and_intros
  all_goals
    (repeat first | rw [BitVec.extractLsb'_append_eq_of_add_le (by decide)] | rw [BitVec.extractLsb'_append_eq_of_le (by decide)])
    exact BitVec.extractLsb'_eq_self

theorem MF.pack_unpack {c : Code} (h : Form.m.reservedZero c = true) : (MF.unpack c).pack (Code.op c) (Code.fn c) = c := by
  simp only [Form.reservedZero, Bool.and_eq_true, beq_iff_eq] at h
  obtain ⟨h1, h2⟩ := h
  simp only [MF.unpack, MF.pack, Common.pack, Code.common, Code.op, Code.fn, BitVec.ofNat_toNat, BitVec.setWidth_eq, Code.bits_bit]
  rw [← h1, ← h2]
  repeat rw [Code.bits_join (by decide)]
  exact Code.bits_all c

theorem MF.decode_pack {f : MF} {op fn : Nat} {i : Instr} (hf : formOf op = some .m) (hn : fn < 16) (hi : mInstr op fn f = some i)
    (hw : i.wf = true) : decode (f.pack op fn) = .ok i := by
  have ho : Code.op (f.pack op fn) = op := (Common.op_pack _ op fn _).trans (Nat.mod_eq_of_lt (formOf_lt hf))
  have hfn : Code.fn (f.pack op fn) = fn := (Common.fn_pack _ op fn _).trans (Nat.mod_eq_of_lt hn)
  exact decode_of (fm := .m) (by rw [ho, hf]) (by simp only [rawDecode, ho, hfn, MF.unpack_pack]; exact hi) (MF.reserved_pack f op fn) hw

theorem BF.unpack_pack (f : BF) (op fn : Nat) : BF.unpack (f.pack op fn) = f := by
  obtain ⟨⟨sw, pg, pn⟩, uq, a, off, joff⟩ := f
  simp only [BF.unpack, BF.pack, Common.pack, Code.common, Code.bits, Code.bit, bitOf, BF.mk.injEq, Common.mk.injEq]
  and_intros
  all_goals first
    | (repeat first | rw [BitVec.extractLsb'_append_eq_of_add_le (by decide)] | rw [BitVec.extractLsb'_append_eq_of_le (by decide)])
      exact BitVec.extractLsb'_eq_self
    | (repeat rw [BitVec.getLsbD_append]); simp

theorem BF.reserved_pack (f : BF) (op fn : Nat) : Form.b.reservedZero (f.pack op fn) = true := by
  simp only [Form.reservedZero, BF.pack, Common.pack, Code.bits, bitOf, Bool.and_eq_true, beq_iff_eq]
  and_intros
  all_goals
    (repeat first | rw [BitVec.extractLsb'_append_eq_of_add_le (by decide)] | rw [BitVec.extractLsb'_append_eq_of_le (by decide)])
    exact BitVec.extractLsb'_eq_self

theorem BF.pack_unpack {c : Code} (h : Form.b.reservedZero c = true) : (BF.unpack c).pack (Code.op c) (Code.fn c) = c := by
  simp only [Form.reservedZero, Bool.and_eq_true, beq_iff_eq] at h
  obtain ⟨⟨h1, h2⟩, h3⟩ := h
  simp only [BF.unpack, BF.pack, Common.pack, Code.common, Code.op, Code.fn, BitVec.ofNat_toNat, BitVec.setWidth_eq, Code.bits_bit]
  rw [← h1, ← h2, ← h3]
  repeat rw [Code.bits_join (by decide)]
  exact Code.bits_all c

theorem BF.decode_pack {f : BF} {op fn : Nat} {i : Instr} (hf : formOf op = some .b) (hn : fn < 16) (hi : bInstr op fn f = some i)
    (hw : i.wf = true) : decode (f.pack op fn) = .ok i := by
  have ho : Code.op (f.pack op fn) = op := (Common.op_pack _ op fn _).trans (Nat.mod_eq_of_lt (formOf_lt hf))
  have hfn : Code.fn (f.pack op fn) = fn := (Common.fn_pack _ op fn _).trans (Nat.mod_eq_of_lt hn)
  exact decode_of (fm := .b) (by rw [ho, hf]) (by simp only [rawDecode, ho, hfn, BF.unpack_pack]; exact hi) (BF.reserved_pack f op fn) hw

theorem MX.unpack_pack (f : MX) (op fn : Nat) : MX.unpack (f.pack op fn) = f := by
  obtain ⟨⟨sw, pg, pn⟩, acc, a, u, t, ks, pair, ru, za⟩ := f
  simp only [MX.unpack, MX.pack, Common.pack, Code.common, Code.bits, Code.bit, bitOf, MX.mk.injEq, Common.mk.injEq]
  and_intros
  all_goals first
    | (repeat first | rw [BitVec.extractLsb'_append_eq_of_add_le (by decide)] | rw [BitVec.extractLsb'_append_eq_of_le (by decide)])
      exact BitVec.extractLsb'_eq_self
    | (repeat rw [BitVec.getLsbD_append]); simp

theorem MX.reserved_pack (f : MX) (op fn : Nat) : Form.mx.reservedZero (f.pack op fn) = true := by
  simp only [Form.reservedZero, MX.pack, Common.pack, Code.bits, bitOf, Bool.and_eq_true, beq_iff_eq]
  and_intros
  all_goals
    (repeat first | rw [BitVec.extractLsb'_append_eq_of_add_le (by decide)] | rw [BitVec.extractLsb'_append_eq_of_le (by decide)])
    exact BitVec.extractLsb'_eq_self

theorem MX.pack_unpack {c : Code} (h : Form.mx.reservedZero c = true) : (MX.unpack c).pack (Code.op c) (Code.fn c) = c := by
  simp only [Form.reservedZero, Bool.and_eq_true, beq_iff_eq] at h
  obtain ⟨⟨h1, h2⟩, h3⟩ := h
  simp only [MX.unpack, MX.pack, Common.pack, Code.common, Code.op, Code.fn, BitVec.ofNat_toNat, BitVec.setWidth_eq, Code.bits_bit]
  rw [← h1, ← h2, ← h3]
  repeat rw [Code.bits_join (by decide)]
  exact Code.bits_all c

theorem MX.decode_pack {f : MX} {op fn : Nat} {i : Instr} (hf : formOf op = some .mx) (hn : fn < 16) (hi : mxInstr op fn f = some i)
    (hw : i.wf = true) : decode (f.pack op fn) = .ok i := by
  have ho : Code.op (f.pack op fn) = op := (Common.op_pack _ op fn _).trans (Nat.mod_eq_of_lt (formOf_lt hf))
  have hfn : Code.fn (f.pack op fn) = fn := (Common.fn_pack _ op fn _).trans (Nat.mod_eq_of_lt hn)
  exact decode_of (fm := .mx) (by rw [ho, hf]) (by simp only [rawDecode, ho, hfn, MX.unpack_pack]; exact hi) (MX.reserved_pack f op fn) hw

theorem EF.unpack_pack (f : EF) (op fn : Nat) : EF.unpack (f.pack op fn) = f := by
  obtain ⟨⟨sw, pg, pn⟩, d, a, b, ea, u, eb, imm⟩ := f
  simp only [EF.unpack, EF.pack, Common.pack, Code.common, Code.bits, Code.bit, bitOf, EF.mk.injEq, Common.mk.injEq]
  and_intros
  all_goals first
    | (repeat first | rw [BitVec.extractLsb'_append_eq_of_add_le (by decide)] | rw [BitVec.extractLsb'_append_eq_of_le (by decide)])
      exact BitVec.extractLsb'_eq_self
    | (repeat rw [BitVec.getLsbD_append]); simp

theorem EF.pack_unpack {c : Code} : (EF.unpack c).pack (Code.op c) (Code.fn c) = c := by
  simp only [EF.unpack, EF.pack, Common.pack, Code.common, Code.op, Code.fn, BitVec.ofNat_toNat, BitVec.setWidth_eq, Code.bits_bit]
  repeat rw [Code.bits_join (by decide)]
  exact Code.bits_all c

theorem EF.decode_pack {f : EF} {op fn : Nat} {i : Instr} (hf : formOf op = some .e) (hn : fn < 16) (hi : eInstr op fn f = some i)
    (hw : i.wf = true) : decode (f.pack op fn) = .ok i := by
  have ho : Code.op (f.pack op fn) = op := (Common.op_pack _ op fn _).trans (Nat.mod_eq_of_lt (formOf_lt hf))
  have hfn : Code.fn (f.pack op fn) = fn := (Common.fn_pack _ op fn _).trans (Nat.mod_eq_of_lt hn)
  exact decode_of (fm := .e) (by rw [ho, hf]) (by simp only [rawDecode, ho, hfn, EF.unpack_pack]; exact hi) rfl hw

end Sys2Proof
end

