-- ==== Sys2Proof/Laws/Sparse.lean ====
section
/-! SUPPORT. Reading after writing in a sparse store. -/
namespace Sys2Proof.Machine
open Sys2Proof

theorem Sparse.get_put {w : Nat} (m : Sparse w) (n k : Nat) (x : BitVec w) :
    Sparse.get (Sparse.put m n x) k = if n = k then x else Sparse.get m k := by
  induction m with
  | nil => rfl
  | cons e rest ih =>
    obtain ⟨j, v⟩ := e
    simp only [Sparse.put, Sparse.get]
    split
    · subst j; simp only [Sparse.get]; split <;> rfl
    · split
      · simp only [Sparse.get]
      · simp only [Sparse.get, ih]; split <;> split <;> first | rfl | omega

theorem Sparse.get_filter {w : Nat} (m : Sparse w) (p : Nat → Bool) (k : Nat) :
    Sparse.get (m.filter (fun e => p e.1)) k = if p k then Sparse.get m k else 0 := by
  induction m with
  | nil => simp [Sparse.get]
  | cons e rest ih =>
    obtain ⟨j, v⟩ := e
    rw [List.filter_cons]
    by_cases hj : j = k
    · subst j; cases hp : p k <;> simp [Sparse.get, hp, ih]
    · cases hp : p j <;> simp [Sparse.get, ih, hj]

/-- A read gives what was last written there, and a write leaves every other place alone. -/
theorem Sparse.get_set {w : Nat} (m : Sparse w) (n k : Nat) (x : BitVec w) :
    Sparse.get (Sparse.set m n x) k = if n = k then x else Sparse.get m k := by
  unfold Sparse.set
  split
  · subst x
    rw [Sparse.get_filter m (fun j => j != n) k]
    by_cases h : n = k
    · simp [h]
    · simp [h, Ne.symm h]
  · exact Sparse.get_put m n k x

@[simp] theorem Sparse.get_set_same {w : Nat} (m : Sparse w) (n : Nat) (x : BitVec w) : Sparse.get (Sparse.set m n x) n = x := by
  simp [Sparse.get_set]

theorem Sparse.get_set_other {w : Nat} (m : Sparse w) {n k : Nat} (h : n ≠ k) (x : BitVec w) :
    Sparse.get (Sparse.set m n x) k = Sparse.get m k := by
  simp [Sparse.get_set, h]

/-- A run written at successive numbers: a read inside gives its value, one outside is as before. -/
theorem Sparse.get_setMany {w : Nat} (xs : List (BitVec w)) : ∀ (m : Sparse w) (n k : Nat),
    Sparse.get (Sparse.setMany m n xs) k = if n ≤ k ∧ k < n + xs.length then xs.getD (k - n) 0 else Sparse.get m k := by
  induction xs with
  | nil => intro m n k; simp [Sparse.setMany] <;> omega
  | cons x rest ih =>
    intro m n k
    rw [Sparse.setMany, ih, Sparse.get_set]
    by_cases h : n = k
    · subst h; simp <;> omega
    · by_cases h2 : n + 1 ≤ k ∧ k < n + 1 + rest.length
      · have e : k - n = (k - (n + 1)) + 1 := by omega
        rw [if_pos h2, if_pos (by simp; omega), e]; simp
      · rw [if_neg h2, if_neg h, if_neg (by simp; omega)]

theorem Sparse.getMany_length {w : Nat} (m : Sparse w) (n c : Nat) : (Sparse.getMany m n c).length = c := by
  induction c generalizing n with
  | zero => rfl
  | succ c ih => simp [Sparse.getMany, ih]

end Sys2Proof.Machine
end

