-- ==== Sys2Proof/Laws/Registers.lean ====
section
/-! SUPPORT. What reading and writing registers does: a cell read after a write, the whole effect of an instruction that writes
register results (Wrote), and how a list of results names the value of each cell. -/
namespace Sys2Proof.Machine
open Sys2Proof

/-! ## One cell -/

theorem laneKey_inj {r l r' l' : Nat} (h : l < 32) (h' : l' < 32) (e : laneKey r l = laneKey r' l') : r = r' ∧ l = l' := by
  unfold laneKey at e; omega

/-- A cell read after a write: the value cut to the cell's width if it is the same cell, else what it held; P7 reads true. -/
theorem Group.peek_poke (g : Group) {c c' : Cell} (h : c.valid) (h' : c'.valid) (x : DWord) :
    (g.poke c x).peek c' = if c' = c then (match c with | .p 7 _ => 1 | _ => c.fit x) else g.peek c' := by
  cases c with
  | v r l =>
    cases c' with
    | v r' l' =>
      simp only [Group.poke, Group.peek, Sparse.get_set, Cell.fit, Cell.v.injEq]
      by_cases e : laneKey r l = laneKey r' l'
      · obtain ⟨rfl, rfl⟩ := laneKey_inj h h' e; simp
      · rw [if_neg e, if_neg]; rintro ⟨rfl, rfl⟩; exact e rfl
    | _ => simp [Group.poke, Group.peek]
  | s r =>
    cases c' with
    | s r' => simp only [Group.poke, Group.peek, Sparse.get_set, Cell.fit, Cell.s.injEq, eq_comm]
    | _ => simp [Group.poke, Group.peek]
  | k r =>
    cases c' with
    | k r' => simp only [Group.poke, Group.peek, Sparse.get_set, Cell.fit, Cell.k.injEq, eq_comm]
    | _ => simp [Group.poke, Group.peek]
  | q r =>
    cases c' with
    | q r' =>
      simp only [Group.poke, Group.peek, Sparse.get_set, Cell.fit, Cell.q.injEq, eq_comm (a := r) (b := r')]
      split <;> rfl
    | _ => simp [Group.poke, Group.peek]
  | p r l =>
    by_cases h7 : r = 7
    · subst h7
      cases c' with
      | p r' l' =>
        simp only [Group.poke, Group.peek, if_pos, Cell.p.injEq]
        by_cases e : r' = 7 <;> simp [e]
      | _ => simp [Group.poke, Group.peek]
    · cases c' with
      | p r' l' =>
        simp only [Group.poke, Group.peek, if_neg h7, Cell.fit, Cell.p.injEq]
        by_cases e : laneKey r l = laneKey r' l'
        · obtain ⟨rfl, rfl⟩ := laneKey_inj h h' e
          simp only [if_neg h7, Sparse.get_set, if_pos, and_self]
          split
          · simp_all
          · rfl
        · have e2 : ¬(r' = r ∧ l' = l) := by rintro ⟨rfl, rfl⟩; exact e rfl
          simp only [Sparse.get_set, if_neg e, if_neg e2]
      | _ => simp [Group.poke, Group.peek, h7]

@[simp] theorem Group.write_peek (g : Group) (t : Nat) (m : Mask) (c : Cell) (x : DWord) (c' : Cell) :
    (g.write t m c x).peek c' = (g.poke c x).peek c' := by cases c' <;> rfl

/-! ## A list of results -/

/-- The value a list of results leaves in a cell: the last one named for it. -/
def lastOf : List (Cell × DWord) → Cell → Option DWord
  | [], _ => none
  | (c, x) :: rest, c' => (lastOf rest c').or (if c' = c then some (c.fit x) else none)

/-- The results name cells that exist, and never P7. -/
def goodResults (ws : List (Cell × DWord)) : Prop := ∀ c x, (c, x) ∈ ws → c.valid ∧ ∀ l, c ≠ .p 7 l

theorem goodResults.tail {c : Cell} {x : DWord} {ws : List (Cell × DWord)} (h : goodResults ((c, x) :: ws)) : goodResults ws :=
  fun c' x' hm => h c' x' (List.mem_cons_of_mem _ hm)

theorem Group.peek_writeAll (turn : Nat) (m : Mask) (ws : List (Cell × DWord)) : ∀ (g : Group), goodResults ws → ∀ c : Cell, c.valid →
    (g.writeAll turn m ws).peek c = (lastOf ws c).getD (g.peek c) := by
  induction ws with
  | nil => intro g _ c _; rfl
  | cons e rest ih =>
    obtain ⟨c0, x⟩ := e
    intro g hg c hc
    obtain ⟨hv, h7⟩ := hg c0 x List.mem_cons_self
    rw [Group.writeAll, ih _ hg.tail c hc, Group.write_peek, Group.peek_poke g hv hc, lastOf]
    cases lastOf rest c with
    | some y => rfl
    | none =>
      split
      · subst c
        cases c0 with
        | p r l => 
          by_cases e : r = 7
          · exact absurd (by rw [e]) (h7 l)
          · simp [e]
        | _ => rfl
      · simp [*]

theorem Group.registersOf_trans {a b g : Group} (h : a.registersOf b = b) (h2 : b.registersOf g = g) : a.registersOf g = g := by
  rw [← h] at h2; exact h2

theorem Group.writeAll_rest (turn : Nat) (m : Mask) (ws : List (Cell × DWord)) : ∀ (g : Group), (g.writeAll turn m ws).registersOf g = g := by
  induction ws with
  | nil => intro g; rfl
  | cons e rest ih =>
    intro g
    refine Group.registersOf_trans (ih (g.write turn m e.1 e.2)) ?_
    obtain ⟨c, x⟩ := e
    cases c <;> simp only [Group.write, Group.poke, Group.registersOf]
    split <;> rfl

@[simp] theorem Group.writeAll_slot (g : Group) (turn : Nat) (m : Mask) (ws : List (Cell × DWord)) (n : SlotName) :
    (g.writeAll turn m ws).slot n = g.slot n := by
  have h := Group.writeAll_rest turn m ws g
  cases n
  · exact (congrArg Group.a h : ((g.writeAll turn m ws).registersOf g).a = g.a)
  · exact (congrArg Group.b h : ((g.writeAll turn m ws).registersOf g).b = g.b)

@[simp] theorem Group.writeAll_id (g : Group) (turn : Nat) (m : Mask) (ws : List (Cell × DWord)) : (g.writeAll turn m ws).id = g.id :=
  (congrArg Group.id (Group.writeAll_rest turn m ws g) : ((g.writeAll turn m ws).registersOf g).id = g.id)

/-! ## Groups of the state -/

theorem State.group?_id {s : State} {i : Nat} {g : Group} (h : s.group? i = some g) : g.id = i := by
  have := List.find?_some h; simpa using this

theorem find_replace (gs : List Group) (g : Group) (i : Nat) :
    (gs.map (fun x => if x.id = g.id then g else x)).find? (fun x => x.id == i) =
      if i = g.id then (gs.find? (fun x => x.id == i)).map (fun _ => g) else gs.find? (fun x => x.id == i) := by
  induction gs with
  | nil => simp
  | cons x rest ih =>
    rw [List.map_cons, List.find?_cons, List.find?_cons, ih]
    by_cases hx : x.id = g.id <;> by_cases hi : i = g.id
    · simp [hx, hi]
    · have hb : (g.id == i) = false := by simpa using Ne.symm hi
      simp [hx, hi, hb]
    · subst hi
      have hb : (x.id == g.id) = false := by simpa using hx
      simp [hx, hb]
    · simp [hx, hi]

theorem State.group?_setGroup (s : State) (g : Group) (i : Nat) :
    (s.setGroup g).group? i = if i = g.id then (s.group? i).map (fun _ => g) else s.group? i := find_replace s.groups g i

theorem State.setGroup_only (s : State) (g : Group) : GroupOnly s (s.setGroup g) g.id where
  rest := rfl
  others i h := by rw [State.group?_setGroup, if_neg h]
  memory _ := rfl
  registers _ := rfl

theorem State.issuer?_group {s : State} {u : Issuer} (h : s.issuer? = some u) : s.group? u.g.id = some u.g := by
  unfold State.issuer? at h
  split at h
  · obtain ⟨g, hg, rfl⟩ := Option.map_eq_some_iff.mp h
    rw [State.group?_id hg]; exact hg
  · cases h

theorem State.issue_of {s : State} {u : Issuer} (h : s.issuer? = some u) (k : Issuer → State) : s.issue k = .next (k u) := by
  unfold State.issue; rw [h]

@[simp] theorem Group.setSlot_slot (g : Group) (n : SlotName) (x : Slot) : (g.setSlot n x).slot n = x := by cases n <;> rfl
@[simp] theorem Group.setSlot_other (g : Group) (n : SlotName) (x : Slot) : (g.setSlot n x).slot n.other = g.slot n.other := by
  cases n <;> rfl
@[simp] theorem Group.setSlot_peek (g : Group) (n : SlotName) (x : Slot) (c : Cell) : (g.setSlot n x).peek c = g.peek c := by
  cases n <;> cases c <;> rfl

/-- What writing an instruction's results does, whole. -/
theorem State.write_wrote {s : State} {u : Issuer} (hu : s.issuer? = some u) {ws : List (Cell × DWord)} (hg : goodResults ws) :
    Wrote s (s.write u ws) u (lastOf ws) := by
  have hw := Group.writeAll_rest s.turn u.slot.mask ws u.g
  constructor
  · have := State.setGroup_only s ((u.g.writeAll s.turn u.slot.mask ws).setSlot u.name ((u.g.writeAll s.turn u.slot.mask ws).slot u.name).advance)
    rw [Group.setSlot_id, Group.writeAll_id] at this
    exact this
  · refine ⟨(u.g.writeAll s.turn u.slot.mask ws).setSlot u.name ((u.g.writeAll s.turn u.slot.mask ws).slot u.name).advance, ?_, ⟨?_, ?_⟩, ?_, ?_⟩
    · simp only [State.write, State.advance]
      rw [State.group?_setGroup]
      simp [State.issuer?_group hu]
    · generalize u.g.writeAll s.turn u.slot.mask ws = w at hw ⊢
      have : ∀ x : Slot, ((w.setSlot u.name x).registersOf u.g).slotsOf u.g = (w.registersOf u.g).slotsOf u.g := by
        intro x; cases u.name <;> rfl
      rw [this, hw]; rfl
    · simp
    · simp [Issuer.slot]
    · intro c hc
      rw [Group.setSlot_peek]
      exact Group.peek_writeAll _ _ _ _ hg c hc

theorem Wrote.congr {s t : State} {u : Issuer} {f f' : Cell → Option DWord} (h : Wrote s t u f) (e : ∀ c : Cell, c.valid → f c = f' c) :
    Wrote s t u f' := by
  obtain ⟨ho, x, h1, h2, h3, h4⟩ := h
  exact ⟨ho, x, h1, h2, h3, fun c hc => by rw [h4 c hc, e c hc]⟩

/-- A slot that only goes to its next instruction. -/
theorem State.advance_wrote {s : State} {u : Issuer} (hu : s.issuer? = some u) : Wrote s (s.advance u.g u.name) u noVal :=
  State.write_wrote hu (ws := []) (by intro c x h; cases h)

/-! ## The values that results name -/

theorem lastOf_append (xs ys : List (Cell × DWord)) (c : Cell) : lastOf (xs ++ ys) c = (lastOf ys c).or (lastOf xs c) := by
  induction xs with
  | nil => simp [lastOf]
  | cons e rest ih => simp [lastOf, ih, Option.or_assoc]

theorem lastOf_none {ws : List (Cell × DWord)} {c : Cell} (h : ∀ x, (c, x) ∉ ws) : lastOf ws c = none := by
  induction ws with
  | nil => rfl
  | cons e rest ih =>
    obtain ⟨c0, y⟩ := e
    rw [lastOf, ih (fun x hm => h x (List.mem_cons_of_mem _ hm)), if_neg]
    · rfl
    · rintro rfl; exact h y List.mem_cons_self

theorem mem_vCells {d n l x : Nat} {c : Cell} {y : DWord} (h : (c, y) ∈ vCells d n l x) : ∃ r, c = .v r l ∧ d ≤ r ∧ r < d + n := by
  induction n generalizing d x with
  | zero => cases h
  | succ n ih =>
    rw [vCells, List.mem_cons] at h
    rcases h with h | h
    · cases h; exact ⟨d, rfl, Nat.le_refl _, by omega⟩
    · obtain ⟨r, e, h1, h2⟩ := ih h; exact ⟨r, e, by omega, by omega⟩

theorem lastOf_vCells (d n l x r l' : Nat) : lastOf (vCells d n l x) (.v r l') =
    if l' = l ∧ d ≤ r ∧ r < d + n then some (BitVec.ofNat 64 (x / 2 ^ (32 * (r - d)) % 2 ^ 32)) else none := by
  induction n generalizing d x with
  | zero => rw [if_neg (by omega)]; rfl
  | succ n ih =>
    rw [vCells, lastOf, ih]
    by_cases hl : l' = l
    · by_cases hr : r = d
      · subst hl hr
        rw [if_neg (by omega), if_pos rfl, if_pos (by omega)]
        simp only [Option.none_or, Cell.fit, Nat.sub_self, Nat.mul_zero, Nat.pow_zero, Nat.div_one, Option.some.injEq]
        apply BitVec.eq_of_toNat_eq
        simp only [BitVec.toNat_setWidth, BitVec.toNat_ofNat]
        omega
      · rw [if_neg (by simp [hr] : ¬Cell.v r l' = Cell.v d l), Option.or_none]
        by_cases h : d + 1 ≤ r ∧ r < d + 1 + n
        · rw [if_pos ⟨hl, h⟩, if_pos ⟨hl, by omega⟩, Nat.div_div_eq_div_mul, ← Nat.pow_add]
          congr 5; omega
        · rw [if_neg (fun x => h x.2), if_neg (by omega)]
    · rw [if_neg (fun x => hl x.1), if_neg (by simp [hl]), if_neg (fun x => hl x.1)]; rfl

theorem mem_lanesOf {m : Mask} {l : Nat} : l ∈ lanesOf m ↔ l < 32 ∧ laneIn m l = true := by
  simp [lanesOf, laneList, List.mem_filter, List.mem_range]

theorem laneResults_good (part : Mask) (d n : Nat) (v : Nat → Nat) : goodResults (laneResults part d n v) := by
  intro c x h
  unfold laneResults at h
  obtain ⟨l, hl, hm⟩ := List.mem_flatMap.mp h
  obtain ⟨r, rfl, _⟩ := mem_vCells hm
  exact ⟨(mem_lanesOf.mp hl).1, by intro l h; cases h⟩

theorem lastOf_flatMap_v (ls : List Nat) (d n : Nat) (v : Nat → Nat) (r l : Nat) :
    lastOf (ls.flatMap (fun l => vCells d n l (v l))) (.v r l) =
      if l ∈ ls ∧ d ≤ r ∧ r < d + n then some (BitVec.ofNat 64 (v l / 2 ^ (32 * (r - d)) % 2 ^ 32)) else none := by
  induction ls with
  | nil => simp [lastOf]
  | cons x rest ih =>
    rw [List.flatMap_cons, lastOf_append, ih, lastOf_vCells]
    by_cases hm : l ∈ rest <;> by_cases hx : l = x <;> by_cases hr : d ≤ r ∧ r < d + n <;>
      first | (subst hx; simp [hm, hr]) | simp [hm, hx, hr]

/-- Lane results name their lanes' registers, and nothing else. -/
theorem lastOf_laneResults (part : Mask) (d n : Nat) (v : Nat → Nat) {c : Cell} (hc : c.valid) :
    lastOf (laneResults part d n v) c = laneVal part d n v c := by
  cases c with
  | v r l =>
    rw [laneResults, lastOf_flatMap_v, laneVal]
    have hl : l < 32 := hc
    simp [mem_lanesOf, hl]
  | _ =>
    rw [lastOf_none]
    · rfl
    · intro x h
      obtain ⟨l, _, hm⟩ := List.mem_flatMap.mp h
      obtain ⟨r, e, _⟩ := mem_vCells hm
      cases e

theorem predResults_good (part : Mask) (pd : Nat) (v : Nat → Bool) : goodResults (predResults part pd v) := by
  intro c x h
  unfold predResults at h
  split at h
  · cases h
  · obtain ⟨l, hl, hm⟩ := List.mem_map.mp h
    cases hm
    exact ⟨(mem_lanesOf.mp hl).1, by intro l' h'; cases h'; contradiction⟩

theorem lastOf_map_p (ls : List Nat) (pd : Nat) (v : Nat → Bool) (r l : Nat) :
    lastOf (ls.map (fun l => (Cell.p pd l, if v l then (1 : DWord) else 0))) (.p r l) =
      if l ∈ ls ∧ r = pd then some (if v l then 1 else 0) else none := by
  induction ls with
  | nil => simp [lastOf]
  | cons x rest ih =>
    rw [List.map_cons, lastOf, ih]
    by_cases hm : l ∈ rest <;> by_cases hx : l = x <;> by_cases hr : r = pd <;>
      first | (subst hx; cases v l <;> simp [hm, hr, Cell.fit]) | simp [hm, hx, hr]

/-- Predicate results name their lanes' predicates, and nothing else. -/
theorem lastOf_predResults (part : Mask) (pd : Nat) (v : Nat → Bool) {c : Cell} (hc : c.valid) :
    lastOf (predResults part pd v) c = predVal part pd v c := by
  unfold predResults
  cases c with
  | p r l =>
    have hl : l < 32 := hc
    split
    · simp [lastOf, predVal, *]
    · rw [lastOf_map_p]; simp [predVal, mem_lanesOf, *, and_comm]
  | _ =>
    rw [lastOf_none]
    · rfl
    · intro x h
      split at h
      · cases h
      · obtain ⟨l, _, hm⟩ := List.mem_map.mp h
        cases hm

theorem lastOf_single (c : Cell) (x : DWord) (c' : Cell) : lastOf [(c, x)] c' = cellVal c (c.fit x) c' := by
  simp [lastOf, cellVal]

theorem single_good {c : Cell} {x : DWord} (hv : c.valid) (h7 : ∀ l, c ≠ .p 7 l) : goodResults [(c, x)] := by
  intro c' x' h
  simp only [List.mem_singleton, Prod.mk.injEq] at h
  obtain ⟨rfl, rfl⟩ := h
  exact ⟨hv, h7⟩

theorem append_good {xs ys : List (Cell × DWord)} (hx : goodResults xs) (hy : goodResults ys) : goodResults (xs ++ ys) := by
  intro c x h
  rcases List.mem_append.mp h with h | h
  · exact hx c x h
  · exact hy c x h

/-! ## The forms -/

/-- A vector instruction of one result per lane. -/
theorem State.vr_wrote {s : State} {u : Issuer} (hu : s.issuer? = some u) (f : VR) (n : Nat) (v : Issuer → Nat → Nat) :
    ∃ t, s.vr f n v = .next t ∧ Wrote s t u (laneVal (u.g.participating u.slot s.turn f.toCommon) f.d.toNat n (v u)) := by
  refine ⟨_, State.issue_of hu _, (State.write_wrote hu (laneResults_good _ _ _ _)).congr fun c hc => lastOf_laneResults _ _ _ _ hc⟩

/-- The same in the form with an immediate. -/
theorem State.vi_wrote {s : State} {u : Issuer} (hu : s.issuer? = some u) (f : VI) (n : Nat) (v : Issuer → Nat → Nat) :
    ∃ t, s.vi f n v = .next t ∧ Wrote s t u (laneVal (u.g.participating u.slot s.turn f.toCommon) f.d.toNat n (v u)) := by
  refine ⟨_, State.issue_of hu _, (State.write_wrote hu (laneResults_good _ _ _ _)).congr fun c hc => lastOf_laneResults _ _ _ _ hc⟩

/-- A uniform instruction: under its guard its results, else none (R101). -/
theorem State.uni_wrote {s : State} {u : Issuer} (hu : s.issuer? = some u) (f : SR) (ws : Issuer → List (Cell × DWord)) (hg : goodResults (ws u)) :
    ∃ t, s.uni f ws = .next t ∧ Wrote s t u (if u.g.uniformGuard s.turn f.toCommon then lastOf (ws u) else noVal) := by
  refine ⟨_, State.issue_of hu _, ?_⟩
  split
  · exact State.write_wrote hu hg
  · exact State.advance_wrote hu

end Sys2Proof.Machine
end

