-- ==== Sys2Proof/Laws/Lookups.lean ====
section
/-! SUPPORT. What a lookup, a fetch and a target check can change: memory (the A and D bits of a leaf, a line they close), the caches of
entries, and nothing else of the state. And what taking a trap does, whole. -/
namespace Sys2Proof.Machine
open Sys2Proof

/-- A state with the memory, the lines and the cached entries of another. -/
def State.lookOf (t s : State) : State := { t with mem := s.mem, watches := s.watches, opens := s.opens, l1 := s.l1, cache := s.cache }

/-- Nothing but memory, lines and cached entries changed. -/
structure LookOnly (s t : State) : Prop where
  rest : t.lookOf s = s

theorem LookOnly.refl (s : State) : LookOnly s s := ⟨rfl⟩
theorem LookOnly.trans {s t r : State} (h : LookOnly s t) (h2 : LookOnly t r) : LookOnly s r := by
  have e : r.lookOf s = (r.lookOf t).lookOf s := rfl
  exact ⟨by rw [e, h2.rest]; exact h.rest⟩
theorem LookOnly.of_pair {α : Type} {s t : State} {x : α} {p : State × α} (e : p = (t, x)) (h : LookOnly s p.1) : LookOnly s t := by
  subst e; exact h

theorem LookOnly.ite {α : Type} {c : Prop} [Decidable c] {s : State} {x y : State × α} (hx : LookOnly s x.1) (hy : LookOnly s y.1) :
    LookOnly s (if c then x else y).1 := by split <;> assumption

theorem LookOnly.groups {s t : State} (h : LookOnly s t) : t.groups = s.groups := (congrArg State.groups h.rest : (t.lookOf s).groups = _)
theorem LookOnly.grids {s t : State} (h : LookOnly s t) : t.grids = s.grids := (congrArg State.grids h.rest : (t.lookOf s).grids = _)
theorem LookOnly.blocks {s t : State} (h : LookOnly s t) : t.blocks = s.blocks := (congrArg State.blocks h.rest : (t.lookOf s).blocks = _)
theorem LookOnly.cores {s t : State} (h : LookOnly s t) : t.cores = s.cores := (congrArg State.cores h.rest : (t.lookOf s).cores = _)
theorem LookOnly.turn {s t : State} (h : LookOnly s t) : t.turn = s.turn := (congrArg State.turn h.rest : (t.lookOf s).turn = _)
theorem LookOnly.mmio {s t : State} (h : LookOnly s t) : t.mmio = s.mmio := (congrArg State.mmio h.rest : (t.lookOf s).mmio = _)

theorem State.storeBytes_look (s : State) (a : Nat) (bs : List Byte) : LookOnly s (s.storeBytes a bs) := ⟨rfl⟩
theorem State.storeN_look (s : State) (a n v : Nat) : LookOnly s (s.storeN a n v) := ⟨rfl⟩
theorem State.closeLine_look (s : State) (l : Nat) : LookOnly s (s.closeLine l) := by unfold State.closeLine; split <;> exact ⟨rfl⟩
theorem State.dropCached_look (s : State) (t : Tier) (i l : Nat) : LookOnly s (s.dropCached t i l) := ⟨rfl⟩
theorem State.keepCached_look (s : State) (t : Tier) (i c l : Nat) (e : Entry) : LookOnly s (s.keepCached t i c l e) := ⟨rfl⟩
theorem State.readEntry_look (s : State) (a : Nat) : LookOnly s (s.readEntry a).1 := s.closeLine_look _
theorem State.readClosing_look (s : State) (a n : Nat) : LookOnly s (s.readClosing a n).1 := s.closeLine_look _

theorem State.findEntry_look (s : State) (t : Tier) (i c l : Nat) : LookOnly s (s.findEntry t i c l).1 := by
  unfold State.findEntry
  split
  · exact .refl _
  · split
    · split
      · exact .refl _
      · exact (((s.dropCached_look t i l).trans (State.closeLine_look _ _)).trans (State.keepCached_look _ _ _ _ _ _))
    · exact ((State.closeLine_look _ _).trans (State.keepCached_look _ _ _ _ _ _))

theorem State.walk_look (mb : Nat) (n : Nat) : ∀ (s : State) (table off : Nat), LookOnly s (s.walk mb table off n).1 := by
  induction n with
  | zero => intros; exact .refl _
  | succ n ih =>
    intro s table off
    unfold State.walk
    dsimp only
    have h := State.readEntry_look s
    have h2 := fun a => State.readEntry_look (s.readEntry a).1
    with_reducible repeat' first
      | apply LookOnly.ite
      | exact h _
      | exact (h _).trans (h2 _ _)
      | exact (h _).trans (ih _ _ _)

theorem State.pageWalk_look (s : State) (t : Tier) (i l : Nat) (e : Entry) (k : DWord) (o o' : Nat) (need r : BitVec 5) (die : Nat) :
    LookOnly s (s.pageWalk t i l e k o o' need r die).1 := by
  unfold State.pageWalk
  dsimp only
  have hw := State.walk_look (if t == .remote then remoteBase i else 0) 4 s e.root o'
  generalize s.walk (if t == .remote then remoteBase i else 0) e.root o' 4 = w at hw ⊢
  obtain ⟨s1, w⟩ := w
  dsimp only at hw ⊢
  have hv := fun (v : Nat) => LookOnly.trans hw (show LookOnly s1 (if v = w.value then s1 else s1.storeN ((if t == .remote then remoteBase i else 0) + w.addr) 8 v) by
    split
    · exact .refl _
    · exact State.storeN_look ..)
  with_reducible repeat' first
    | apply LookOnly.ite
    | exact hw
    | exact hv _

theorem State.lookAt_look (s : State) (t : Tier) (i c : Nat) (k : DWord) (off : Nat) (need r : BitVec 5) (die : Nat) :
    LookOnly s (s.lookAt t i c k off need r die).1 := by
  unfold State.lookAt
  dsimp only
  have hf := s.findEntry_look t i c (kLabel k)
  generalize s.findEntry t i c (kLabel k) = w at hf ⊢
  obtain ⟨s1, w⟩ := w
  dsimp only at hf ⊢
  with_reducible repeat' first
    | apply LookOnly.ite
    | exact hf
    | exact hf.trans (State.pageWalk_look ..)

theorem State.lookFrom_look (c : Nat) (need : BitVec 5) (die : Nat) (fuel : Nat) : ∀ (s : State) (t : Tier) (i : Nat) (k : DWord) (off : Nat)
    (r : BitVec 5), LookOnly s (s.lookFrom c need die fuel t i k off r).1 := by
  induction fuel with
  | zero => intros; exact .refl _
  | succ n ih =>
    intro s t i k off r
    unfold State.lookFrom
    have h := s.lookAt_look t i c k off need r die
    split
    · rename_i e; exact (LookOnly.of_pair e h).trans (ih _ _ _ _ _ _)
    · exact h

theorem State.resolve_look (s : State) (cid core die : Nat) (k : DWord) (off : Nat) (need : BitVec 5) :
    LookOnly s (s.resolve cid core die k off need).1 := by
  unfold State.resolve
  split
  · exact .refl _
  · exact State.lookFrom_look ..

/-- A fetch of a line. -/
theorem State.fetchLine_look (s : State) (g : Group) (pc : Nat) : LookOnly s (s.fetchLine g pc).1 := by
  unfold State.fetchLine
  have h := s.resolve_look g.cid g.core (coreDie g.core) (s.launch g).codeK ((s.launch g).codeOff + 64 * (pc / 5)) rightX
  dsimp only
  split
  · rename_i e; exact (LookOnly.of_pair e h).trans (State.readClosing_look _ _ 64)
  · rename_i e; exact LookOnly.of_pair e h
  · rename_i e; exact LookOnly.of_pair e h

/-- The check of a target (R82). -/
theorem State.checkTarget_look (s : State) (g : Group) (pc : Int) : LookOnly s (s.checkTarget g pc).1 := by
  unfold State.checkTarget
  split
  · have h := s.fetchLine_look g pc.toNat
    split
    · rename_i e; exact LookOnly.of_pair e h
    · rename_i e; exact LookOnly.of_pair e h
    · rename_i e
      dsimp only
      repeat' split
      all_goals exact LookOnly.of_pair e h
  · exact .refl _

/-! ## Traps -/

@[simp] theorem Group.mark_peek (g : Group) (m : Mask) (c : Cell) : (g.mark m).peek c = g.peek c := by cases c <;> rfl

/-- A bank register, its pending results dropped, as a trap frame writes it. -/
def Group.bankWrite (ws : List DWord) (g : Group) (i : Nat) : Group :=
  { g.poke (.s (trapBank i)) (ws.getD i 0) with stale := g.stale.filter (fun e => e.cell != .s (trapBank i)) }

theorem Group.bankWrite_rest (ws : List DWord) (g : Group) (i : Nat) :
    (g.bankWrite ws i).registersOf g = g ∧ (g.bankWrite ws i).a = g.a ∧ (g.bankWrite ws i).b = g.b := ⟨rfl, rfl, rfl⟩

theorem Group.bankWrite_peek (ws : List DWord) (g : Group) (i : Nat) {c : Cell} (hc : c.valid) :
    (g.bankWrite ws i).peek c = if c = .s (trapBank i) then ws.getD i 0 else g.peek c := by
  have h : (g.bankWrite ws i).peek c = (g.poke (.s (trapBank i)) (ws.getD i 0)).peek c := by cases c <;> rfl
  rw [h, Group.peek_poke g (by trivial) hc]
  rfl

theorem Group.foldl_bank (ws : List DWord) (is : List Nat) : ∀ (g : Group), (∀ i ∈ is, i < 12) → is.Nodup →
    (is.foldl (Group.bankWrite ws) g).registersOf g = g ∧ ∀ c : Cell, c.valid →
      (is.foldl (Group.bankWrite ws) g).peek c =
        match is.find? (fun i => c == .s (trapBank i)) with
        | some i => ws.getD i 0
        | none => g.peek c := by
  induction is with
  | nil => intro g _ _; exact ⟨rfl, fun c _ => rfl⟩
  | cons i rest ih =>
    intro g hb hn
    rw [List.nodup_cons] at hn
    obtain ⟨h1, h2⟩ := ih (g.bankWrite ws i) (fun j hj => hb j (List.mem_cons_of_mem _ hj)) hn.2
    refine ⟨Group.registersOf_trans h1 rfl, fun c hc => ?_⟩
    rw [List.foldl_cons, h2 c hc, List.find?_cons]
    by_cases e : c = .s (trapBank i)
    · subst e
      have : rest.find? (fun j => Cell.s (trapBank i) == .s (trapBank j)) = none := by
        rw [List.find?_eq_none]
        intro j hj hEq
        simp only [beq_iff_eq, Cell.s.injEq, trapBank] at hEq
        exact hn.1 (by rw [show i = j by omega]; exact hj)
      rw [this, Group.bankWrite_peek ws g i hc]; simp
    · have hb2 : (c == Cell.s (trapBank i)) = false := by simpa using e
      rw [hb2]
      cases rest.find? (fun j => c == .s (trapBank j)) with
      | some j => rfl
      | none => exact (Group.bankWrite_peek ws g i hc).trans (if_neg e)

theorem Group.fillFrame_rest (g : Group) (ws : List DWord) : (g.fillFrame ws).registersOf g = g :=
  (Group.foldl_bank ws (List.range 12) g (by simp) List.nodup_range).1

theorem Group.fillFrame_peek (g : Group) (ws : List DWord) {c : Cell} (hc : c.valid) :
    (g.fillFrame ws).peek c = match (List.range 12).find? (fun i => c == .s (trapBank i)) with
      | some i => ws.getD i 0
      | none => g.peek c :=
  (Group.foldl_bank ws (List.range 12) g (by simp) List.nodup_range).2 c hc

@[simp] theorem Group.fillFrame_id (g : Group) (ws : List DWord) : (g.fillFrame ws).id = g.id :=
  (congrArg Group.id (g.fillFrame_rest ws) : ((g.fillFrame ws).registersOf g).id = g.id)

/-- Taking a trap, whole (R96): outside trap mode, in a launch with a trap entry PC. -/
theorem State.trap_entry {s : State} {u : Issuer} (hu : s.issuer? = some u) (hm : mayTrap s u) (cause : Nat) (e : DWord) (l : Mask)
    (tag : DWord) : TrapEntry s (s.trap u.g u.name cause e l tag) u cause e l tag := by
  obtain ⟨h1, h2⟩ := hm
  unfold State.trap
  dsimp only
  have h1' : (u.g.slot u.name).trap = none := h1
  rw [h1']
  dsimp only
  rw [if_neg h2]
  generalize hw : u.g.frame u.name cause e l tag (s.core u.g.core).lclk = ws
  have hr : ((u.g.mark (u.g.slot u.name).mask).fillFrame ws).registersOf u.g = u.g := Group.registersOf_trans (Group.fillFrame_rest _ _) rfl
  have hp := fun (c : Cell) (hc : c.valid) => Group.fillFrame_peek (u.g.mark (u.g.slot u.name).mask) ws hc
  generalize hx : (u.g.mark (u.g.slot u.name).mask).fillFrame ws = x at hr hp
  have hid : x.id = u.g.id := (congrArg Group.id hr : (x.registersOf u.g).id = u.g.id)
  constructor
  · have h := fun y : Slot => State.setGroup_only s (x.setSlot u.name y)
    simp only [Group.setSlot_id, hid] at h
    exact h _
  · refine ⟨x.setSlot u.name { u.slot with
        pc := (s.launch u.g).trapPc, wait := none, check := true, refetched := []
        trap := some { mask := u.slot.mask, rets := u.slot.rets.length, spills := u.slot.spill.length, pc := u.slot.pc, cause := cause } },
      ?_, ⟨?_, ?_⟩, ?_, ?_, ?_⟩
    · rw [State.group?_setGroup, Group.setSlot_id, if_pos hid.symm, State.issuer?_group hu]; rfl
    · have : ∀ y : Slot, ((x.setSlot u.name y).registersOf u.g).slotsOf u.g = (x.registersOf u.g).slotsOf u.g := by
        intro y; cases u.name <;> rfl
      rw [this, hr]; rfl
    · rw [Group.setSlot_other]
      cases u.name
      · exact (congrArg Group.b hr : (x.registersOf u.g).b = u.g.b)
      · exact (congrArg Group.a hr : (x.registersOf u.g).a = u.g.a)
    · intro i hi
      rw [Group.setSlot_peek, hp _ (by trivial)]
      have hf : (List.range 12).find? (fun j => Cell.s (192 + i) == .s (trapBank j)) = some i := by
        rw [List.find?_eq_some_iff_getElem]
        refine ⟨by simp [trapBank], i, by simpa using hi, by simp, ?_⟩
        intro j hj
        simp [trapBank]; omega
      rw [hf]
      dsimp only
      subst hw
      have hi' : i = 0 ∨ i = 1 ∨ i = 2 ∨ i = 3 ∨ i = 4 ∨ i = 5 ∨ i = 6 ∨ i = 7 ∨ i = 8 ∨ i = 9 ∨ i = 10 ∨ i = 11 := by omega
      rcases hi' with rfl | rfl | rfl | rfl | rfl | rfl | rfl | rfl | rfl | rfl | rfl | rfl <;>
        simp [Group.frame, frameWord, Issuer.slot, Group.qBits, List.range_succ]
      congr 1; omega
    · intro c hc hn
      rw [Group.setSlot_peek, hp c hc]
      have hf : (List.range 12).find? (fun j => c == .s (trapBank j)) = none := by
        rw [List.find?_eq_none]
        intro j hj e
        simp only [beq_iff_eq] at e
        exact hn j (by simpa using hj) e
      rw [hf]; simp
    · rw [Group.setSlot_slot]

end Sys2Proof.Machine
end

