-- ==== Sys2Proof/Laws/Numeric.lean ====
section
/-! SUPPORT. The integer readings and results of the model in terms of bit vectors. -/
namespace Sys2Proof.Machine
open Sys2Proof

theorem readInt_unsigned (w x : Nat) : readInt w false x = ((BitVec.ofNat w x).toNat : Int) := by
  simp [readInt]

theorem readInt_signed {w : Nat} (hw : 0 < w) (x : Nat) : readInt w true x = (BitVec.ofNat w x).toInt := by
  obtain ⟨n, rfl⟩ : ∃ n, w = n + 1 := ⟨w - 1, by omega⟩
  unfold readInt
  rw [BitVec.toInt_eq_toNat_cond, BitVec.toNat_ofNat]
  have e : 2 ^ (n + 1) = 2 * 2 ^ n := by rw [Nat.pow_succ, Nat.mul_comm]
  simp only [Bool.true_and, decide_eq_true_eq, Nat.add_sub_cancel]
  generalize hy : x % 2 ^ (n + 1) = y
  rw [e]
  by_cases h : 2 ^ n ≤ y
  · rw [if_pos h, if_neg (by omega)]
  · rw [if_neg h, if_pos (by omega)]

theorem modBits_eq (w : Nat) (v : Int) : modBits w v = (BitVec.ofInt w v).toNat := by
  rw [modBits, BitVec.toNat_ofInt]

theorem ofNat_modBits (w : Nat) (v : Int) : BitVec.ofNat w (modBits w v) = BitVec.ofInt w v := by
  rw [modBits_eq, BitVec.ofNat_toNat, BitVec.setWidth_eq]

/-- An integer result taken modulo 2^w is the bit vector of the exact value. -/
theorem readInt_modBits {w : Nat} (hw : 0 < w) (sg : Bool) (v : Int) :
    readInt w sg (modBits w v) = if sg then (BitVec.ofInt w v).toInt else ((BitVec.ofInt w v).toNat : Int) := by
  cases sg
  · rw [readInt_unsigned, ofNat_modBits]; rfl
  · rw [readInt_signed hw, ofNat_modBits]; rfl

/-- A uniform result (R104). -/
theorem uniResult_eq (t : Nat) (v : Int) : uniResult t v = if uniWidth t = 64 then BitVec.ofInt 64 v else
    if intSigned t then (BitVec.ofInt 32 v).signExtend 64 else (BitVec.ofInt 32 v).setWidth 64 := by
  unfold uniResult uniWidth
  split
  · rw [if_neg (by decide), ofNat_modBits, readInt_modBits (by decide)]
    cases h : intSigned t
    · simp only [Bool.false_eq_true, if_false]
      apply BitVec.eq_of_toNat_eq
      rw [BitVec.toNat_ofInt, BitVec.toNat_setWidth]
      have := (BitVec.ofInt 32 v).isLt
      omega
    · simp only [if_true]
      rfl
  · rw [if_pos rfl, ofNat_modBits, readInt_modBits (by decide)]
    cases h : intSigned t
    · simp only [Bool.false_eq_true, if_false, BitVec.ofInt_natCast, BitVec.ofNat_toNat, BitVec.setWidth_eq]
    · simp only [if_true, BitVec.ofInt_toInt]

end Sys2Proof.Machine
end

