-- ==== Sys2Proof/Laws/PerInstr.lean ====
section
/-! SUPPORT. Of each instruction: the word that encodes it, where it has one and is well formed, decodes to it (R48 to R60). -/
namespace Sys2Proof.Laws.Encoding
open Sys2Proof

/-- The word of a well-formed instruction decodes to it; an event has no word. -/
def Statement (i : Instr) : Prop := i.wf = true → ∀ c, encode i = some c → decode c = .ok i

/-- An instruction that has no word. -/
theorem none_of {i : Instr} (h : encode i = none) : Statement i := fun _ c hc => by rw [h] at hc; cases hc

/-- An instruction whose word decodes to it. -/
theorem some_of {i : Instr} {c : Code} (h : encode i = some c) (hd : i.wf = true → decode c = .ok i) : Statement i := fun hw c' hc => by
  rw [h] at hc; cases hc; exact hd hw

theorem nop (f : EF) : Statement (.nop f) := some_of rfl (EF.decode_pack rfl (by decide) rfl)
theorem exit (f : EF) : Statement (.exit f) := some_of rfl (EF.decode_pack rfl (by decide) rfl)
theorem kill (f : EF) : Statement (.kill f) := some_of rfl (EF.decode_pack rfl (by decide) rfl)
theorem trap (f : EF) : Statement (.trap f) := some_of rfl (EF.decode_pack rfl (by decide) rfl)
theorem eret (f : EF) : Statement (.eret f) := some_of rfl (EF.decode_pack rfl (by decide) rfl)
theorem brk (f : EF) : Statement (.brk f) := some_of rfl (EF.decode_pack rfl (by decide) rfl)
theorem sleep (f : EF) : Statement (.sleep f) := some_of rfl (EF.decode_pack rfl (by decide) rfl)
theorem pmark (f : EF) : Statement (.pmark f) := some_of rfl (EF.decode_pack rfl (by decide) rfl)
theorem bra (f : BF) : Statement (.bra f) := some_of rfl (BF.decode_pack rfl (by decide) rfl)
theorem brc (f : BF) : Statement (.brc f) := some_of rfl (BF.decode_pack rfl (by decide) rfl)
theorem brx (f : BF) : Statement (.brx f) := some_of rfl (BF.decode_pack rfl (by decide) rfl)
theorem call (f : BF) : Statement (.call f) := some_of rfl (BF.decode_pack rfl (by decide) rfl)
theorem callx (f : BF) : Statement (.callx f) := some_of rfl (BF.decode_pack rfl (by decide) rfl)
theorem ret (f : BF) : Statement (.ret f) := some_of rfl (BF.decode_pack rfl (by decide) rfl)
theorem loops (f : BF) : Statement (.loops f) := some_of rfl (BF.decode_pack rfl (by decide) rfl)
theorem elect (f : VR) : Statement (.elect f) := some_of rfl (VR.decode_pack rfl (by decide) rfl)
theorem voteOr (f : VR) : Statement (.voteOr f) := some_of rfl (VR.decode_pack rfl (by decide) rfl)
theorem voteAnd (f : VR) : Statement (.voteAnd f) := some_of rfl (VR.decode_pack rfl (by decide) rfl)
theorem voteMask (f : VR) : Statement (.voteMask f) := some_of rfl (VR.decode_pack rfl (by decide) rfl)
theorem voteSame (f : VR) : Statement (.voteSame f) := some_of rfl (VR.decode_pack rfl (by decide) rfl)
theorem voteRank (f : VR) : Statement (.voteRank f) := some_of rfl (VR.decode_pack rfl (by decide) rfl)
theorem rdsrV (f : EF) : Statement (.rdsrV f) := some_of rfl (EF.decode_pack rfl (by decide) rfl)
theorem rdsrS (f : EF) : Statement (.rdsrS f) := some_of rfl (EF.decode_pack rfl (by decide) rfl)
theorem wrsr (f : EF) : Statement (.wrsr f) := some_of rfl (EF.decode_pack rfl (by decide) rfl)
theorem fmtset (f : EF) : Statement (.fmtset f) := some_of rfl (EF.decode_pack rfl (by decide) rfl)
theorem fmtget (f : EF) : Statement (.fmtget f) := some_of rfl (EF.decode_pack rfl (by decide) rfl)
theorem yield (f : EF) : Statement (.yield f) := some_of rfl (EF.decode_pack rfl (by decide) rfl)
theorem sadd (f : SR) : Statement (.sadd f) := some_of rfl (SR.decode_pack rfl (by decide) rfl)
theorem saddImm (f : SR) : Statement (.saddImm f) := some_of rfl (SR.decode_pack rfl (by decide) rfl)
theorem ssub (f : SR) : Statement (.ssub f) := some_of rfl (SR.decode_pack rfl (by decide) rfl)
theorem ssubImm (f : SR) : Statement (.ssubImm f) := some_of rfl (SR.decode_pack rfl (by decide) rfl)
theorem smul (f : SR) : Statement (.smul f) := some_of rfl (SR.decode_pack rfl (by decide) rfl)
theorem smulImm (f : SR) : Statement (.smulImm f) := some_of rfl (SR.decode_pack rfl (by decide) rfl)
theorem smulh (f : SR) : Statement (.smulh f) := some_of rfl (SR.decode_pack rfl (by decide) rfl)
theorem smulhImm (f : SR) : Statement (.smulhImm f) := some_of rfl (SR.decode_pack rfl (by decide) rfl)
theorem sdiv (f : SR) : Statement (.sdiv f) := some_of rfl (SR.decode_pack rfl (by decide) rfl)
theorem sdivImm (f : SR) : Statement (.sdivImm f) := some_of rfl (SR.decode_pack rfl (by decide) rfl)
theorem srem (f : SR) : Statement (.srem f) := some_of rfl (SR.decode_pack rfl (by decide) rfl)
theorem sremImm (f : SR) : Statement (.sremImm f) := some_of rfl (SR.decode_pack rfl (by decide) rfl)
theorem sand (f : SR) : Statement (.sand f) := some_of rfl (SR.decode_pack rfl (by decide) rfl)
theorem sandImm (f : SR) : Statement (.sandImm f) := some_of rfl (SR.decode_pack rfl (by decide) rfl)
theorem sor (f : SR) : Statement (.sor f) := some_of rfl (SR.decode_pack rfl (by decide) rfl)
theorem sorImm (f : SR) : Statement (.sorImm f) := some_of rfl (SR.decode_pack rfl (by decide) rfl)
theorem sxor (f : SR) : Statement (.sxor f) := some_of rfl (SR.decode_pack rfl (by decide) rfl)
theorem sxorImm (f : SR) : Statement (.sxorImm f) := some_of rfl (SR.decode_pack rfl (by decide) rfl)
theorem sshl (f : SR) : Statement (.sshl f) := some_of rfl (SR.decode_pack rfl (by decide) rfl)
theorem sshlImm (f : SR) : Statement (.sshlImm f) := some_of rfl (SR.decode_pack rfl (by decide) rfl)
theorem sshr (f : SR) : Statement (.sshr f) := some_of rfl (SR.decode_pack rfl (by decide) rfl)
theorem sshrImm (f : SR) : Statement (.sshrImm f) := some_of rfl (SR.decode_pack rfl (by decide) rfl)
theorem ssra (f : SR) : Statement (.ssra f) := some_of rfl (SR.decode_pack rfl (by decide) rfl)
theorem ssraImm (f : SR) : Statement (.ssraImm f) := some_of rfl (SR.decode_pack rfl (by decide) rfl)
theorem smin (f : SR) : Statement (.smin f) := some_of rfl (SR.decode_pack rfl (by decide) rfl)
theorem sminImm (f : SR) : Statement (.sminImm f) := some_of rfl (SR.decode_pack rfl (by decide) rfl)
theorem smax (f : SR) : Statement (.smax f) := some_of rfl (SR.decode_pack rfl (by decide) rfl)
theorem smaxImm (f : SR) : Statement (.smaxImm f) := some_of rfl (SR.decode_pack rfl (by decide) rfl)
theorem scmp (f : SR) : Statement (.scmp f) := some_of rfl (SR.decode_pack rfl (by decide) rfl)
theorem scmpImm (f : SR) : Statement (.scmpImm f) := some_of rfl (SR.decode_pack rfl (by decide) rfl)
theorem ssel (f : SR) : Statement (.ssel f) := some_of rfl (SR.decode_pack rfl (by decide) rfl)
theorem sselImm (f : SR) : Statement (.sselImm f) := some_of rfl (SR.decode_pack rfl (by decide) rfl)
theorem smov (f : SR) : Statement (.smov f) := some_of rfl (SR.decode_pack rfl (by decide) rfl)
theorem smovi (f : SR) : Statement (.smovi f) := some_of rfl (SR.decode_pack rfl (by decide) rfl)
theorem sbfx (f : SR) : Statement (.sbfx f) := some_of rfl (SR.decode_pack rfl (by decide) rfl)
theorem sbfi (f : SR) : Statement (.sbfi f) := some_of rfl (SR.decode_pack rfl (by decide) rfl)
theorem spopc (f : SR) : Statement (.spopc f) := some_of rfl (SR.decode_pack rfl (by decide) rfl)
theorem sclz (f : SR) : Statement (.sclz f) := some_of rfl (SR.decode_pack rfl (by decide) rfl)
theorem kset (f : SR) : Statement (.kset f) := some_of rfl (SR.decode_pack rfl (by decide) rfl)
theorem kget (f : SR) : Statement (.kget f) := some_of rfl (SR.decode_pack rfl (by decide) rfl)
theorem kpush (f : SR) : Statement (.kpush f) := some_of rfl (SR.decode_pack rfl (by decide) rfl)
theorem kpop (f : SR) : Statement (.kpop f) := some_of rfl (SR.decode_pack rfl (by decide) rfl)
theorem kswap (f : SR) : Statement (.kswap f) := some_of rfl (SR.decode_pack rfl (by decide) rfl)
theorem kdepth (f : SR) : Statement (.kdepth f) := some_of rfl (SR.decode_pack rfl (by decide) rfl)
theorem iadd (f : VR) : Statement (.iadd f) := some_of rfl (VR.decode_pack rfl (by decide) rfl)
theorem iaddImm (f : VI) : Statement (.iaddImm f) := some_of rfl (VI.decode_pack rfl (by decide) rfl)
theorem isub (f : VR) : Statement (.isub f) := some_of rfl (VR.decode_pack rfl (by decide) rfl)
theorem isubImm (f : VI) : Statement (.isubImm f) := some_of rfl (VI.decode_pack rfl (by decide) rfl)
theorem imul (f : VR) : Statement (.imul f) := some_of rfl (VR.decode_pack rfl (by decide) rfl)
theorem imulImm (f : VI) : Statement (.imulImm f) := some_of rfl (VI.decode_pack rfl (by decide) rfl)
theorem imulh (f : VR) : Statement (.imulh f) := some_of rfl (VR.decode_pack rfl (by decide) rfl)
theorem imad (f : VR) : Statement (.imad f) := some_of rfl (VR.decode_pack rfl (by decide) rfl)
theorem imadw (f : VR) : Statement (.imadw f) := some_of rfl (VR.decode_pack rfl (by decide) rfl)
theorem iaddc (f : VR) : Statement (.iaddc f) := some_of rfl (VR.decode_pack rfl (by decide) rfl)
theorem ishl (f : VR) : Statement (.ishl f) := some_of rfl (VR.decode_pack rfl (by decide) rfl)
theorem ishlImm (f : VI) : Statement (.ishlImm f) := some_of rfl (VI.decode_pack rfl (by decide) rfl)
theorem ishr (f : VR) : Statement (.ishr f) := some_of rfl (VR.decode_pack rfl (by decide) rfl)
theorem ishrImm (f : VI) : Statement (.ishrImm f) := some_of rfl (VI.decode_pack rfl (by decide) rfl)
theorem isra (f : VR) : Statement (.isra f) := some_of rfl (VR.decode_pack rfl (by decide) rfl)
theorem israImm (f : VI) : Statement (.israImm f) := some_of rfl (VI.decode_pack rfl (by decide) rfl)
theorem ishf (f : VR) : Statement (.ishf f) := some_of rfl (VR.decode_pack rfl (by decide) rfl)
theorem iand (f : VR) : Statement (.iand f) := some_of rfl (VR.decode_pack rfl (by decide) rfl)
theorem iandImm (f : VI) : Statement (.iandImm f) := some_of rfl (VI.decode_pack rfl (by decide) rfl)
theorem ior (f : VR) : Statement (.ior f) := some_of rfl (VR.decode_pack rfl (by decide) rfl)
theorem iorImm (f : VI) : Statement (.iorImm f) := some_of rfl (VI.decode_pack rfl (by decide) rfl)
theorem ixor (f : VR) : Statement (.ixor f) := some_of rfl (VR.decode_pack rfl (by decide) rfl)
theorem ixorImm (f : VI) : Statement (.ixorImm f) := some_of rfl (VI.decode_pack rfl (by decide) rfl)
theorem ilop3 (f : VR) : Statement (.ilop3 f) := some_of rfl (VR.decode_pack rfl (by decide) rfl)
theorem imin (f : VR) : Statement (.imin f) := some_of rfl (VR.decode_pack rfl (by decide) rfl)
theorem iminImm (f : VI) : Statement (.iminImm f) := some_of rfl (VI.decode_pack rfl (by decide) rfl)
theorem imax (f : VR) : Statement (.imax f) := some_of rfl (VR.decode_pack rfl (by decide) rfl)
theorem imaxImm (f : VI) : Statement (.imaxImm f) := some_of rfl (VI.decode_pack rfl (by decide) rfl)
theorem iabs (f : VR) : Statement (.iabs f) := some_of rfl (VR.decode_pack rfl (by decide) rfl)
theorem icmp (f : VR) : Statement (.icmp f) := some_of rfl (VR.decode_pack rfl (by decide) rfl)
theorem isel (f : VR) : Statement (.isel f) := some_of rfl (VR.decode_pack rfl (by decide) rfl)
theorem ipopc (f : VR) : Statement (.ipopc f) := some_of rfl (VR.decode_pack rfl (by decide) rfl)
theorem iclz (f : VR) : Statement (.iclz f) := some_of rfl (VR.decode_pack rfl (by decide) rfl)
theorem ibrev (f : VR) : Statement (.ibrev f) := some_of rfl (VR.decode_pack rfl (by decide) rfl)
theorem ibfx (f : VR) : Statement (.ibfx f) := some_of rfl (VR.decode_pack rfl (by decide) rfl)
theorem ibfi (f : VR) : Statement (.ibfi f) := some_of rfl (VR.decode_pack rfl (by decide) rfl)
theorem idot4 (f : VR) : Statement (.idot4 f) := some_of rfl (VR.decode_pack rfl (by decide) rfl)
theorem mov (f : VR) : Statement (.mov f) := some_of rfl (VR.decode_pack rfl (by decide) rfl)
theorem movs (f : VR) : Statement (.movs f) := some_of rfl (VR.decode_pack rfl (by decide) rfl)
theorem prmt (f : VR) : Statement (.prmt f) := some_of rfl (VR.decode_pack rfl (by decide) rfl)
theorem lea (f : VR) : Statement (.lea f) := some_of rfl (VR.decode_pack rfl (by decide) rfl)
theorem movi (f : VI) : Statement (.movi f) := some_of rfl (VI.decode_pack rfl (by decide) rfl)
theorem rdlane (f : VR) : Statement (.rdlane f) := some_of rfl (VR.decode_pack rfl (by decide) rfl)
theorem shflIdx (f : VR) : Statement (.shflIdx f) := some_of rfl (VR.decode_pack rfl (by decide) rfl)
theorem shflRot (f : VR) : Statement (.shflRot f) := some_of rfl (VR.decode_pack rfl (by decide) rfl)
theorem shflShift (f : VR) : Statement (.shflShift f) := some_of rfl (VR.decode_pack rfl (by decide) rfl)
theorem shflXor (f : VR) : Statement (.shflXor f) := some_of rfl (VR.decode_pack rfl (by decide) rfl)
theorem xch (f : VR) : Statement (.xch f) := some_of rfl (VR.decode_pack rfl (by decide) rfl)
theorem xchTimeout : Statement .xchTimeout := none_of rfl
theorem fadd (f : VR) : Statement (.fadd f) := some_of rfl (VR.decode_pack rfl (by decide) rfl)
theorem faddImm (f : VI) : Statement (.faddImm f) := some_of rfl (VI.decode_pack rfl (by decide) rfl)
theorem fsub (f : VR) : Statement (.fsub f) := some_of rfl (VR.decode_pack rfl (by decide) rfl)
theorem fsubImm (f : VI) : Statement (.fsubImm f) := some_of rfl (VI.decode_pack rfl (by decide) rfl)
theorem fmul (f : VR) : Statement (.fmul f) := some_of rfl (VR.decode_pack rfl (by decide) rfl)
theorem fmulImm (f : VI) : Statement (.fmulImm f) := some_of rfl (VI.decode_pack rfl (by decide) rfl)
theorem ffma (f : VR) : Statement (.ffma f) := some_of rfl (VR.decode_pack rfl (by decide) rfl)
theorem fmin (f : VR) : Statement (.fmin f) := some_of rfl (VR.decode_pack rfl (by decide) rfl)
theorem fminImm (f : VI) : Statement (.fminImm f) := some_of rfl (VI.decode_pack rfl (by decide) rfl)
theorem fmax (f : VR) : Statement (.fmax f) := some_of rfl (VR.decode_pack rfl (by decide) rfl)
theorem fmaxImm (f : VI) : Statement (.fmaxImm f) := some_of rfl (VI.decode_pack rfl (by decide) rfl)
theorem fcmp (f : VR) : Statement (.fcmp f) := some_of rfl (VR.decode_pack rfl (by decide) rfl)
theorem fclass (f : VR) : Statement (.fclass f) := some_of rfl (VR.decode_pack rfl (by decide) rfl)
theorem frnd (f : VR) : Statement (.frnd f) := some_of rfl (VR.decode_pack rfl (by decide) rfl)
theorem fscale (f : VR) : Statement (.fscale f) := some_of rfl (VR.decode_pack rfl (by decide) rfl)
theorem fdot2 (f : VR) : Statement (.fdot2 f) := some_of rfl (VR.decode_pack rfl (by decide) rfl)
theorem frcp (f : VR) : Statement (.frcp f) := some_of rfl (VR.decode_pack rfl (by decide) rfl)
theorem frsq (f : VR) : Statement (.frsq f) := some_of rfl (VR.decode_pack rfl (by decide) rfl)
theorem fsqrt (f : VR) : Statement (.fsqrt f) := some_of rfl (VR.decode_pack rfl (by decide) rfl)
theorem fdiv (f : VR) : Statement (.fdiv f) := some_of rfl (VR.decode_pack rfl (by decide) rfl)
theorem fexp2 (f : VR) : Statement (.fexp2 f) := some_of rfl (VR.decode_pack rfl (by decide) rfl)
theorem flog2 (f : VR) : Statement (.flog2 f) := some_of rfl (VR.decode_pack rfl (by decide) rfl)
theorem fsin (f : VR) : Statement (.fsin f) := some_of rfl (VR.decode_pack rfl (by decide) rfl)
theorem fcos (f : VR) : Statement (.fcos f) := some_of rfl (VR.decode_pack rfl (by decide) rfl)
theorem ftanh (f : VR) : Statement (.ftanh f) := some_of rfl (VR.decode_pack rfl (by decide) rfl)
theorem cvt (f : VR) : Statement (.cvt f) := some_of rfl (VR.decode_pack rfl (by decide) rfl)
theorem cvtp (f : VR) : Statement (.cvtp f) := some_of rfl (VR.decode_pack rfl (by decide) rfl)
theorem cvtb (f : VR) : Statement (.cvtb f) := some_of rfl (VR.decode_pack rfl (by decide) rfl)
theorem cvtx (f : VR) : Statement (.cvtx f) := some_of rfl (VR.decode_pack rfl (by decide) rfl)
theorem ld (f : MF) : Statement (.ld f) := some_of rfl (MF.decode_pack rfl (by decide) rfl)
theorem ldSx (f : MF) : Statement (.ldSx f) := some_of rfl (MF.decode_pack rfl (by decide) rfl)
theorem st (f : MF) : Statement (.st f) := some_of rfl (MF.decode_pack rfl (by decide) rfl)
theorem ldu (f : MF) : Statement (.ldu f) := some_of rfl (MF.decode_pack rfl (by decide) rfl)
theorem lduSx (f : MF) : Statement (.lduSx f) := some_of rfl (MF.decode_pack rfl (by decide) rfl)
theorem stu (f : MF) : Statement (.stu f) := some_of rfl (MF.decode_pack rfl (by decide) rfl)
theorem prf (f : MF) : Statement (.prf f) := some_of rfl (MF.decode_pack rfl (by decide) rfl)
theorem mhint (f : MF) : Statement (.mhint f) := some_of rfl (MF.decode_pack rfl (by decide) rfl)
theorem cctlInv (f : MF) : Statement (.cctlInv f) := some_of rfl (fun hw => MF.decode_pack rfl (by decide)
  (by have h : f.sz = 0 := by change MSpec.ok _ f = true at hw; simp [MSpec.ok] at hw; bv_omega
      simp [mInstr, h]) hw)
theorem cctlWb (f : MF) : Statement (.cctlWb f) := some_of rfl (fun hw => MF.decode_pack rfl (by decide)
  (by have h : f.sz = 1 := by change MSpec.ok _ f = true at hw; simp [MSpec.ok] at hw; bv_omega
      simp [mInstr, h]) hw)
theorem cctlInvall (f : MF) : Statement (.cctlInvall f) := some_of rfl (fun hw => MF.decode_pack rfl (by decide)
  (by have h : f.sz = 2 := by change MSpec.ok _ f = true at hw; simp [MSpec.ok] at hw; bv_omega
      simp [mInstr, h]) hw)
theorem lds (f : MF) : Statement (.lds f) := some_of rfl (MF.decode_pack rfl (by decide) rfl)
theorem ldsSx (f : MF) : Statement (.ldsSx f) := some_of rfl (MF.decode_pack rfl (by decide) rfl)
theorem sts (f : MF) : Statement (.sts f) := some_of rfl (MF.decode_pack rfl (by decide) rfl)
theorem atomAdd (f : MF) : Statement (.atomAdd f) := some_of rfl (MF.decode_pack rfl (by decide) rfl)
theorem atomAnd (f : MF) : Statement (.atomAnd f) := some_of rfl (MF.decode_pack rfl (by decide) rfl)
theorem atomOr (f : MF) : Statement (.atomOr f) := some_of rfl (MF.decode_pack rfl (by decide) rfl)
theorem atomXor (f : MF) : Statement (.atomXor f) := some_of rfl (MF.decode_pack rfl (by decide) rfl)
theorem atomMinS (f : MF) : Statement (.atomMinS f) := some_of rfl (MF.decode_pack rfl (by decide) rfl)
theorem atomMaxS (f : MF) : Statement (.atomMaxS f) := some_of rfl (MF.decode_pack rfl (by decide) rfl)
theorem atomMinU (f : MF) : Statement (.atomMinU f) := some_of rfl (MF.decode_pack rfl (by decide) rfl)
theorem atomMaxU (f : MF) : Statement (.atomMaxU f) := some_of rfl (MF.decode_pack rfl (by decide) rfl)
theorem atomExch (f : MF) : Statement (.atomExch f) := some_of rfl (MF.decode_pack rfl (by decide) rfl)
theorem atomCas (f : MF) : Statement (.atomCas f) := some_of rfl (MF.decode_pack rfl (by decide) rfl)
theorem atomInc (f : MF) : Statement (.atomInc f) := some_of rfl (MF.decode_pack rfl (by decide) rfl)
theorem atomDec (f : MF) : Statement (.atomDec f) := some_of rfl (MF.decode_pack rfl (by decide) rfl)
theorem atomFadd (f : MF) : Statement (.atomFadd f) := some_of rfl (MF.decode_pack rfl (by decide) rfl)
theorem atomsAdd (f : MF) : Statement (.atomsAdd f) := some_of rfl (MF.decode_pack rfl (by decide) rfl)
theorem atomsAnd (f : MF) : Statement (.atomsAnd f) := some_of rfl (MF.decode_pack rfl (by decide) rfl)
theorem atomsOr (f : MF) : Statement (.atomsOr f) := some_of rfl (MF.decode_pack rfl (by decide) rfl)
theorem atomsXor (f : MF) : Statement (.atomsXor f) := some_of rfl (MF.decode_pack rfl (by decide) rfl)
theorem atomsMinS (f : MF) : Statement (.atomsMinS f) := some_of rfl (MF.decode_pack rfl (by decide) rfl)
theorem atomsMaxS (f : MF) : Statement (.atomsMaxS f) := some_of rfl (MF.decode_pack rfl (by decide) rfl)
theorem atomsMinU (f : MF) : Statement (.atomsMinU f) := some_of rfl (MF.decode_pack rfl (by decide) rfl)
theorem atomsMaxU (f : MF) : Statement (.atomsMaxU f) := some_of rfl (MF.decode_pack rfl (by decide) rfl)
theorem atomsExch (f : MF) : Statement (.atomsExch f) := some_of rfl (MF.decode_pack rfl (by decide) rfl)
theorem atomsCas (f : MF) : Statement (.atomsCas f) := some_of rfl (MF.decode_pack rfl (by decide) rfl)
theorem atomsInc (f : MF) : Statement (.atomsInc f) := some_of rfl (MF.decode_pack rfl (by decide) rfl)
theorem atomsDec (f : MF) : Statement (.atomsDec f) := some_of rfl (MF.decode_pack rfl (by decide) rfl)
theorem atomsFadd (f : MF) : Statement (.atomsFadd f) := some_of rfl (MF.decode_pack rfl (by decide) rfl)
theorem redAdd (f : MF) : Statement (.redAdd f) := some_of rfl (MF.decode_pack rfl (by decide) rfl)
theorem redAnd (f : MF) : Statement (.redAnd f) := some_of rfl (MF.decode_pack rfl (by decide) rfl)
theorem redOr (f : MF) : Statement (.redOr f) := some_of rfl (MF.decode_pack rfl (by decide) rfl)
theorem redXor (f : MF) : Statement (.redXor f) := some_of rfl (MF.decode_pack rfl (by decide) rfl)
theorem redMinS (f : MF) : Statement (.redMinS f) := some_of rfl (MF.decode_pack rfl (by decide) rfl)
theorem redMaxS (f : MF) : Statement (.redMaxS f) := some_of rfl (MF.decode_pack rfl (by decide) rfl)
theorem redMinU (f : MF) : Statement (.redMinU f) := some_of rfl (MF.decode_pack rfl (by decide) rfl)
theorem redMaxU (f : MF) : Statement (.redMaxU f) := some_of rfl (MF.decode_pack rfl (by decide) rfl)
theorem redFadd (f : MF) : Statement (.redFadd f) := some_of rfl (MF.decode_pack rfl (by decide) rfl)
theorem updIadd32 (f : MF) : Statement (.updIadd32 f) := some_of rfl (MF.decode_pack rfl (by decide) rfl)
theorem updIadd64 (f : MF) : Statement (.updIadd64 f) := some_of rfl (MF.decode_pack rfl (by decide) rfl)
theorem updFadd32 (f : MF) : Statement (.updFadd32 f) := some_of rfl (MF.decode_pack rfl (by decide) rfl)
theorem updFadd64 (f : MF) : Statement (.updFadd64 f) := some_of rfl (MF.decode_pack rfl (by decide) rfl)
theorem updSmax32 (f : MF) : Statement (.updSmax32 f) := some_of rfl (MF.decode_pack rfl (by decide) rfl)
theorem updSmin32 (f : MF) : Statement (.updSmin32 f) := some_of rfl (MF.decode_pack rfl (by decide) rfl)
theorem updZmax32 (f : MF) : Statement (.updZmax32 f) := some_of rfl (MF.decode_pack rfl (by decide) rfl)
theorem updZmin32 (f : MF) : Statement (.updZmin32 f) := some_of rfl (MF.decode_pack rfl (by decide) rfl)
theorem updFmax32 (f : MF) : Statement (.updFmax32 f) := some_of rfl (MF.decode_pack rfl (by decide) rfl)
theorem updFmin32 (f : MF) : Statement (.updFmin32 f) := some_of rfl (MF.decode_pack rfl (by decide) rfl)
theorem updAnd64 (f : MF) : Statement (.updAnd64 f) := some_of rfl (MF.decode_pack rfl (by decide) rfl)
theorem updOr64 (f : MF) : Statement (.updOr64 f) := some_of rfl (MF.decode_pack rfl (by decide) rfl)
theorem updXor64 (f : MF) : Statement (.updXor64 f) := some_of rfl (MF.decode_pack rfl (by decide) rfl)
theorem fence (f : MF) : Statement (.fence f) := some_of rfl (MF.decode_pack rfl (by decide) rfl)
theorem mxacq (f : MX) : Statement (.mxacq f) := some_of rfl (fun hw => MX.decode_pack rfl (by decide)
  (by have h : f.pair = false := by change MXSpec.ok _ f = true at hw; simp [MXSpec.ok] at hw; simp [hw]
      simp [mxInstr, h]) hw)
theorem mxacqPair (f : MX) : Statement (.mxacqPair f) := some_of rfl (fun hw => MX.decode_pack rfl (by decide)
  (by have h : f.pair = true := by change MXSpec.ok _ f = true at hw; simp [MXSpec.ok] at hw; simp [hw]
      simp [mxInstr, h]) hw)
theorem mxrel (f : MX) : Statement (.mxrel f) := some_of rfl (MX.decode_pack rfl (by decide) rfl)
theorem mxrdy (f : MX) : Statement (.mxrdy f) := some_of rfl (MX.decode_pack rfl (by decide) rfl)
theorem mma (f : MX) : Statement (.mma f) := some_of rfl (MX.decode_pack rfl (by decide) rfl)
theorem mmab (f : MX) : Statement (.mmab f) := some_of rfl (MX.decode_pack rfl (by decide) rfl)
theorem mxwait (f : MX) : Statement (.mxwait f) := some_of rfl (MX.decode_pack rfl (by decide) rfl)
theorem mxrd (f : MX) : Statement (.mxrd f) := some_of rfl (MX.decode_pack rfl (by decide) rfl)
theorem mxwr (f : MX) : Statement (.mxwr f) := some_of rfl (MX.decode_pack rfl (by decide) rfl)
theorem mxzero (f : MX) : Statement (.mxzero f) := some_of rfl (MX.decode_pack rfl (by decide) rfl)
theorem mxst (f : MX) : Statement (.mxst f) := some_of rfl (MX.decode_pack rfl (by decide) rfl)
theorem mxtest (f : MX) : Statement (.mxtest f) := some_of rfl (MX.decode_pack rfl (by decide) rfl)
theorem mxOpRetire : Statement .mxOpRetire := none_of rfl
theorem cpyLd (f : EF) : Statement (.cpyLd f) := some_of rfl (fun hw => EF.decode_pack rfl (by decide)
  (by have h : f.eb = 0 := by change ESpec.ok _ f = true at hw; simp [ESpec.ok] at hw; bv_omega
      simp [eInstr, h]) hw)
theorem cpySt (f : EF) : Statement (.cpySt f) := some_of rfl (fun hw => EF.decode_pack rfl (by decide)
  (by have h : f.eb = 1 := by change ESpec.ok _ f = true at hw; simp [ESpec.ok] at hw; bv_omega
      simp [eInstr, h]) hw)
theorem cpseal (f : EF) : Statement (.cpseal f) := some_of rfl (EF.decode_pack rfl (by decide) rfl)
theorem cpwait (f : EF) : Statement (.cpwait f) := some_of rfl (EF.decode_pack rfl (by decide) rfl)
theorem copyRequestDone : Statement .copyRequestDone := none_of rfl
theorem mcjoin (f : EF) : Statement (.mcjoin f) := some_of rfl (EF.decode_pack rfl (by decide) rfl)
theorem mcleave (f : EF) : Statement (.mcleave f) := some_of rfl (EF.decode_pack rfl (by decide) rfl)
theorem mcld (f : EF) : Statement (.mcld f) := some_of rfl (EF.decode_pack rfl (by decide) rfl)
theorem heldEntryEnter : Statement .heldEntryEnter := none_of rfl
theorem heldEntryTimer : Statement .heldEntryTimer := none_of rfl
theorem fillDelivery : Statement .fillDelivery := none_of rfl
theorem bar (f : EF) : Statement (.bar f) := some_of rfl (EF.decode_pack rfl (by decide) rfl)
theorem bara (f : EF) : Statement (.bara f) := some_of rfl (EF.decode_pack rfl (by decide) rfl)
theorem barw (f : EF) : Statement (.barw f) := some_of rfl (EF.decode_pack rfl (by decide) rfl)
theorem boinit (f : EF) : Statement (.boinit f) := some_of rfl (EF.decode_pack rfl (by decide) rfl)
theorem boarr (f : EF) : Statement (.boarr f) := some_of rfl (EF.decode_pack rfl (by decide) rfl)
theorem bowait (f : EF) : Statement (.bowait f) := some_of rfl (EF.decode_pack rfl (by decide) rfl)
theorem qinit (f : EF) : Statement (.qinit f) := some_of rfl (EF.decode_pack rfl (by decide) rfl)
theorem qpush (f : EF) : Statement (.qpush f) := some_of rfl (EF.decode_pack rfl (by decide) rfl)
theorem qpop (f : EF) : Statement (.qpop f) := some_of rfl (EF.decode_pack rfl (by decide) rfl)
theorem waitc (f : EF) : Statement (.waitc f) := some_of rfl (EF.decode_pack rfl (by decide) rfl)
theorem waitw (f : EF) : Statement (.waitw f) := some_of rfl (EF.decode_pack rfl (by decide) rfl)
theorem watchWake : Statement .watchWake := none_of rfl
theorem waitwPoll : Statement .waitwPoll := none_of rfl
theorem waitwSaveThreshold : Statement .waitwSaveThreshold := none_of rfl
theorem rgrow (f : EF) : Statement (.rgrow f) := some_of rfl (EF.decode_pack rfl (by decide) rfl)
theorem rshrink (f : EF) : Statement (.rshrink f) := some_of rfl (EF.decode_pack rfl (by decide) rfl)
theorem launch (f : EF) : Statement (.launch f) := some_of rfl (EF.decode_pack rfl (by decide) rfl)
theorem sleepWake : Statement .sleepWake := none_of rfl
theorem spillMoveDone : Statement .spillMoveDone := none_of rfl
theorem lineRefetch : Statement .lineRefetch := none_of rfl
theorem loadReply : Statement .loadReply := none_of rfl
theorem storePerformed : Statement .storePerformed := none_of rfl
theorem spAccessDone : Statement .spAccessDone := none_of rfl
theorem atomReply : Statement .atomReply := none_of rfl
theorem redAck : Statement .redAck := none_of rfl
theorem prfAccept : Statement .prfAccept := none_of rfl
theorem tierLookup : Statement .tierLookup := none_of rfl
theorem l2MissFill : Statement .l2MissFill := none_of rfl
theorem tokenRequest : Statement .tokenRequest := none_of rfl
theorem persistentRequest : Statement .persistentRequest := none_of rfl
theorem invalidationArrive : Statement .invalidationArrive := none_of rfl
theorem invalidationApply : Statement .invalidationApply := none_of rfl
theorem l1DirtyWriteback : Statement .l1DirtyWriteback := none_of rfl
theorem directoryGrant : Statement .directoryGrant := none_of rfl
theorem invalidationAck : Statement .invalidationAck := none_of rfl
theorem regionMerge : Statement .regionMerge := none_of rfl
theorem atomAtHome : Statement .atomAtHome := none_of rfl
theorem switchCombine : Statement .switchCombine := none_of rfl
theorem decombine : Statement .decombine := none_of rfl
theorem lostsplit : Statement .lostsplit := none_of rfl
theorem retired : Statement .retired := none_of rfl
theorem atomlost : Statement .atomlost := none_of rfl
theorem atomlostTimeout : Statement .atomlostTimeout := none_of rfl
theorem updOpen : Statement .updOpen := none_of rfl
theorem lineClose : Statement .lineClose := none_of rfl
theorem uCopyEvict : Statement .uCopyEvict := none_of rfl
theorem maquetteTest : Statement .maquetteTest := none_of rfl
theorem blockRelease : Statement .blockRelease := none_of rfl
theorem queueDoorbell : Statement .queueDoorbell := none_of rfl
theorem queuePacketRead : Statement .queuePacketRead := none_of rfl
theorem queueErrClear : Statement .queueErrClear := none_of rfl
theorem hostdone : Statement .hostdone := none_of rfl
theorem hostPacket : Statement .hostPacket := none_of rfl
theorem copyPacket : Statement .copyPacket := none_of rfl
theorem dsqRead : Statement .dsqRead := none_of rfl
theorem dsqValidTimeout : Statement .dsqValidTimeout := none_of rfl
theorem blockPlace : Statement .blockPlace := none_of rfl
theorem affinityTimeout : Statement .affinityTimeout := none_of rfl
theorem saveRequest : Statement .saveRequest := none_of rfl
theorem blockSaved : Statement .blockSaved := none_of rfl
theorem blockResume : Statement .blockResume := none_of rfl
theorem gangReserve : Statement .gangReserve := none_of rfl
theorem gangEvict : Statement .gangEvict := none_of rfl
theorem gangTimeout : Statement .gangTimeout := none_of rfl
theorem workComplete : Statement .workComplete := none_of rfl
theorem contextActivate : Statement .contextActivate := none_of rfl
theorem contextInvalidate : Statement .contextInvalidate := none_of rfl
theorem contextRetire : Statement .contextRetire := none_of rfl
theorem scorepadInterval : Statement .scorepadInterval := none_of rfl
theorem verdictRetry : Statement .verdictRetry := none_of rfl
theorem verdictFail : Statement .verdictFail := none_of rfl
theorem verdictTimeout : Statement .verdictTimeout := none_of rfl
theorem hold : Statement .hold := none_of rfl
theorem drain : Statement .drain := none_of rfl
theorem drainTimeout : Statement .drainTimeout := none_of rfl
theorem shoot : Statement .shoot := none_of rfl
theorem write : Statement .write := none_of rfl
theorem release : Statement .release := none_of rfl
theorem force : Statement .force := none_of rfl
theorem inval : Statement .inval := none_of rfl
theorem wbScan : Statement .wbScan := none_of rfl
theorem storageWriteDone : Statement .storageWriteDone := none_of rfl
theorem controlResend : Statement .controlResend := none_of rfl
theorem domdead : Statement .domdead := none_of rfl
theorem late : Statement .late := none_of rfl
theorem dieReset : Statement .dieReset := none_of rfl
theorem dieEvacuated : Statement .dieEvacuated := none_of rfl
theorem dieResetTimeout : Statement .dieResetTimeout := none_of rfl
theorem egressWaitTimeout : Statement .egressWaitTimeout := none_of rfl
theorem flitCrcError : Statement .flitCrcError := none_of rfl
theorem linkRetrain : Statement .linkRetrain := none_of rfl
theorem linkdown : Statement .linkdown := none_of rfl
theorem linepoison : Statement .linepoison := none_of rfl
theorem pclr : Statement .pclr := none_of rfl
theorem spmark : Statement .spmark := none_of rfl
theorem coldStart : Statement .coldStart := none_of rfl
theorem warmStart : Statement .warmStart := none_of rfl
theorem moduleState : Statement .moduleState := none_of rfl
theorem pdie : Statement .pdie := none_of rfl
theorem clgate : Statement .clgate := none_of rfl
theorem itripClear : Statement .itripClear := none_of rfl
theorem thermalWarning : Statement .thermalWarning := none_of rfl
theorem criticalThermalTrip : Statement .criticalThermalTrip := none_of rfl
theorem currentLimitTrip : Statement .currentLimitTrip := none_of rfl
theorem spanPortEnable : Statement .spanPortEnable := none_of rfl
theorem revoke : Statement .revoke := none_of rfl
theorem revokeDeadline : Statement .revokeDeadline := none_of rfl
theorem flashPromote : Statement .flashPromote := none_of rfl
theorem versionReclaim : Statement .versionReclaim := none_of rfl
theorem info : Statement .info := none_of rfl
theorem readlive : Statement .readlive := none_of rfl
theorem readret : Statement .readret := none_of rfl
theorem ack : Statement .ack := none_of rfl
theorem totals : Statement .totals := none_of rfl
theorem health : Statement .health := none_of rfl
theorem ceiling : Statement .ceiling := none_of rfl
theorem setmodid : Statement .setmodid := none_of rfl
theorem start : Statement .start := none_of rfl
theorem mctpControl : Statement .mctpControl := none_of rfl
theorem getVersion : Statement .getVersion := none_of rfl
theorem getCapabilities : Statement .getCapabilities := none_of rfl
theorem negotiateAlgorithms : Statement .negotiateAlgorithms := none_of rfl
theorem getDigests : Statement .getDigests := none_of rfl
theorem getCertificate : Statement .getCertificate := none_of rfl
theorem challenge : Statement .challenge := none_of rfl
theorem getMeasurements : Statement .getMeasurements := none_of rfl
theorem registerWrite : Statement .registerWrite := none_of rfl
theorem mainPowerLoss : Statement .mainPowerLoss := none_of rfl
theorem evacuationTimeout : Statement .evacuationTimeout := none_of rfl
theorem powerTransitionDone : Statement .powerTransitionDone := none_of rfl
theorem linkTrained : Statement .linkTrained := none_of rfl
theorem aDieAccess : Statement .aDieAccess := none_of rfl
theorem recoveryImageUpdate : Statement .recoveryImageUpdate := none_of rfl
theorem flashDemotion : Statement .flashDemotion := none_of rfl
theorem unsupportedRequest : Statement .unsupportedRequest := none_of rfl

end Sys2Proof.Laws.Encoding
end

