-- ==== Sys2Proof/Tests/Slice0.lean ====
section
/-! SUPPORT. Tests: words of the spec's encodings decode to the instructions they stand for; ill-formed terms are refused; one step of small
states; and for each statement states and operands that meet its hypotheses together. -/
namespace Sys2Proof.Tests
open Sys2Proof Sys2Proof.Machine Sys2Proof.Claims

set_option maxRecDepth 100000
set_option Elab.async false

/-! ## Terms -/

/-- The common fields. -/
def common (sw pg pn : Nat) : Common := { sw := sw == 1, pg := pg, pn := pn == 1 }

/-- A VR form; the nine flags SAT, NA, NB, NC, AA, AB, BU, CU, RU as one number, SAT the most significant. -/
def fVR (sw pg pn d a b c u t rm fl pd : Nat) : VR :=
  { toCommon := common sw pg pn, d := d, a := a, b := b, c := c, u := u, t := t, rm := rm, sat := fl.testBit 8, na := fl.testBit 7, nb := fl.testBit 6,
    nc := fl.testBit 5, aa := fl.testBit 4, ab := fl.testBit 3, bu := fl.testBit 2, cu := fl.testBit 1, ru := fl.testBit 0, pd := pd }

/-- A VI form. -/
def fVI (sw pg pn d a t rm sat imm : Nat) : VI := { toCommon := common sw pg pn, d := d, a := a, t := t, rm := rm, sat := sat == 1, imm := imm }

/-- An SR form. -/
def fSR (sw pg pn sd sa sb sc qd t imm : Nat) : SR :=
  { toCommon := common sw pg pn, sd := sd, sa := sa, sb := sb, sc := sc, qd := qd, t := t, imm := imm }

/-- An M form. -/
def fMF (sw pg pn d a c u sz ord scp ch ow spc peer disp : Nat) : MF :=
  { toCommon := common sw pg pn, d := d, a := a, c := c, u := u, sz := sz, ord := ord, scp := scp, ch := ch, ow := ow == 1, spc := spc, peer := peer,
    disp := disp }

/-- A B form. -/
def fBF (sw pg pn uq a off joff : Nat) : BF := { toCommon := common sw pg pn, uq := uq == 1, a := a, off := off, joff := joff }

/-- An MX form. -/
def fMX (sw pg pn acc a u t ks pair ru za : Nat) : MX :=
  { toCommon := common sw pg pn, acc := acc, a := a, u := u, t := t, ks := ks, pair := pair == 1, ru := ru == 1, za := za == 1 }

/-- An E form. -/
def fEF (sw pg pn d a b ea u eb imm : Nat) : EF := { toCommon := common sw pg pn, d := d, a := a, b := b, ea := ea, u := u, eb := eb, imm := imm }

/-! ## Words of the encodings -/

/-- control: one word of each instruction, its bits laid out by R48 to R56 and its codes taken from R60. -/
def controlWords : List (Code × Instr) :=
  [(0x000000000000000000000011#96, .nop (fEF 1 0 1 0 0 0 0 0 0 0x0)),
   (0x000000000000000000002012#96, .exit (fEF 0 1 1 0 0 0 0 0 0 0x0)),
   (0x00000000000000000000400F#96, .kill (fEF 1 7 0 0 0 0 0 0 0 0x0)),
   (0xCBE309400000000000006010#96, .trap (fEF 0 0 1 0 0 0 0 0 0 0xCBE30940)),
   (0x00000000000000000000800F#96, .eret (fEF 1 7 0 0 0 0 0 0 0 0x0)),
   (0x504E9D1E000000000000A011#96, .brk (fEF 1 0 1 0 0 0 0 0 0 0x504E9D1E)),
   (0xD36C74F1000000000000C00E#96, .sleep (fEF 0 7 0 0 0 0 0 0 0 0xD36C74F1)),
   (0x572AE3C5000000003800E00E#96, .pmark (fEF 0 7 0 0 14 0 0 0 0 0x572AE3C5)),
   (0x000000000000090000020035#96, .bra (fBF 1 2 1 1 0 72 0)),
   (0x000000004000090000002032#96, .brc (fBF 0 1 1 0 0 72 2)),
   (0x000BFF80400012C05000402F#96, .brx (fBF 1 7 0 0 20 150 6290434)),
   (0x0000000000000C000000602E#96, .call (fBF 0 7 0 0 0 96 0)),
   (0x00000001AD021F612000802F#96, .callx (fBF 1 7 0 0 72 6820091 13)),
   (0x00000000000000000000A02F#96, .ret (fBF 1 7 0 0 0 0 0)),
   (0x000000000B2A9E801C00C02F#96, .loops (fBF 1 7 0 0 7 5854452 0)),
   (0x000100000000000000000051#96, .elect (fVR 1 0 1 0 0 0 0 0 0 0 0b000000000 4)),
   (0x00018000000000000C002057#96, .voteOr (fVR 1 3 1 0 3 0 0 0 0 0 0b000000000 6)),
   (0x00008000000000001C004050#96, .voteAnd (fVR 0 0 1 0 7 0 0 0 0 0 0b000000000 2)),
   (0x0001C0000000000004246051#96, .voteMask (fVR 1 0 1 18 1 0 0 0 0 0 0b000000000 7)),
   (0x0000400280000000A000805E#96, .voteSame (fVR 0 7 1 0 40 0 0 0 20 0 0b000000000 1)),
   (0x0001C00000000000159EA045#96, .voteRank (fVR 1 2 0 207 5 0 0 0 0 0 0b000000000 7)),
   (0x000000000080000000140070#96, .rdsrV (fEF 0 0 1 10 0 0 0 4 0 0x0)),
   (0x00000000024000000016206F#96, .rdsrS (fEF 1 7 0 11 0 0 0 18 0 0x0)),
   (0x00000000014000002C00406F#96, .wrsr (fEF 1 7 0 0 11 0 0 10 0 0x0)),
   (0x000000C4000000000000606F#96, .fmtset (fEF 1 7 0 0 0 0 0 0 0 0xC4)),
   (0x0000000000000000000E806E#96, .fmtget (fEF 0 7 0 7 0 0 0 0 0 0x0)),
   (0x000000050000000000001C0F#96, .rgrow (fEF 1 7 0 0 0 0 0 0 0 0x5)),
   (0x000000010000000000003C0E#96, .rshrink (fEF 0 7 0 0 0 0 0 0 0 0x1)),
   (0x000000000000000008125C0E#96, .launch (fEF 0 7 0 9 2 0 0 0 0 0x0)),
   (0x000000000000000000007C0F#96, .yield (fEF 1 7 0 0 0 0 0 0 0 0x0))]

theorem test_words_control : ∀ e ∈ controlWords, (decode e.1).toOption = some e.2 := by decide

/-- uniform: one word of each instruction, its bits laid out by R48 to R56 and its codes taken from R60. -/
def uniformWords : List (Code × Instr) :=
  [(0x00000000002E0024181E0410#96, .sadd (fSR 0 0 1 15 12 18 0 7 2 0x0)),
   (0x00000000004E000A26162411#96, .ssub (fSR 1 0 1 11 19 5 0 7 4 0x0)),
   (0x00000000004E0080900C4411#96, .smul (fSR 1 0 1 6 72 64 0 7 4 0x0)),
   (0x00000000003E001C20086410#96, .smulh (fSR 0 0 1 4 16 14 0 7 3 0x0)),
   (0x00000000004E00072C188413#96, .sdiv (fSR 1 1 1 12 150 3 0 7 4 0x0)),
   (0x00000000004E001E1606A411#96, .srem (fSR 1 0 1 3 11 15 0 7 4 0x0)),
   (0x00000000002E00588100C410#96, .sand (fSR 0 0 1 128 64 44 0 7 2 0x0)),
   (0x00000000002E0090512CE415#96, .sor (fSR 1 2 1 150 40 72 0 7 2 0x0)),
   (0x00000000002E001C12270410#96, .sxor (fSR 0 0 1 19 9 14 0 7 2 0x0)),
   (0x00000000003E000A1A052414#96, .sshl (fSR 0 2 1 2 13 5 0 7 3 0x0)),
   (0x00000000002E00B018594411#96, .sshr (fSR 1 0 1 44 12 88 0 7 2 0x0)),
   (0x00000000004E008100076416#96, .ssra (fSR 0 3 1 3 128 64 0 7 4 0x0)),
   (0x00000000001E000A18058411#96, .smin (fSR 1 0 1 2 12 5 0 7 1 0x0)),
   (0x00000000001E001A5091A410#96, .smax (fSR 0 0 1 72 40 13 0 7 1 0x0)),
   (0x00000000003402580A01C410#96, .scmp (fSR 0 0 1 0 5 44 1 2 3 0x0)),
   (0x00000000003E03001601E411#96, .ssel (fSR 1 0 1 0 11 128 1 7 3 0x0))]

theorem test_words_uniform : ∀ e ∈ uniformWords, (decode e.1).toOption = some e.2 := by decide

/-- uniformImm: one word of each instruction, its bits laid out by R48 to R56 and its codes taken from R60. -/
def uniformImmWords : List (Code × Instr) :=
  [(0x00000006001E000050140430#96, .saddImm (fSR 0 0 1 10 40 0 0 7 1 0x6)),
   (0xA0A5AFFA004E0000801A2430#96, .ssubImm (fSR 0 0 1 13 64 0 0 7 4 0xA0A5AFFA)),
   (0x8EBCB627001E000004244432#96, .smulImm (fSR 0 1 1 18 2 0 0 7 1 0x8EBCB627)),
   (0x3641D754004E000012266431#96, .smulhImm (fSR 1 0 1 19 9 0 0 7 4 0x3641D754)),
   (0x00000006004E0000500A8431#96, .sdivImm (fSR 1 0 1 5 40 0 0 7 4 0x6)),
   (0xB7C38575004E00009080A431#96, .sremImm (fSR 1 0 1 64 72 0 0 7 4 0xB7C38575)),
   (0x44FC1F07004E00000300C430#96, .sandImm (fSR 0 0 1 128 1 0 0 7 4 0x44FC1F07)),
   (0x00000012001E0000B026E430#96, .sorImm (fSR 0 0 1 19 88 0 0 7 1 0x12)),
   (0x2D7F53A8002E000002210430#96, .sxorImm (fSR 0 0 1 16 1 0 0 7 2 0x2D7F53A8)),
   (0x260E5807003E000008052430#96, .sshlImm (fSR 0 0 1 2 4 0 0 7 3 0x260E5807)),
   (0x00000096002E000058814434#96, .sshrImm (fSR 0 2 1 64 44 0 0 7 2 0x96)),
   (0x00000013001E000024056430#96, .ssraImm (fSR 0 0 1 2 18 0 0 7 1 0x13)),
   (0x00000048001E0000B0198431#96, .sminImm (fSR 1 0 1 12 88 0 0 7 1 0x48)),
   (0x00000028002E00005819A431#96, .smaxImm (fSR 1 0 1 12 44 0 0 7 2 0x28)),
   (0x2B2F5BCC004402001E01C437#96, .scmpImm (fSR 1 3 1 0 15 0 1 2 4 0x2B2F5BCC)),
   (0xD728DDBA003E0000B013E431#96, .sselImm (fSR 1 0 1 9 88 0 0 7 3 0xD728DDBA))]

theorem test_words_uniformImm : ∀ e ∈ uniformImmWords, (decode e.1).toOption = some e.2 := by decide

/-- uniformMore: one word of each instruction, its bits laid out by R48 to R56 and its codes taken from R60. -/
def uniformMoreWords : List (Code × Instr) :=
  [(0x00000000000E000080120451#96, .smov (fSR 1 0 1 9 64 0 0 7 0 0x0)),
   (0xADDDDC1B004E000000142455#96, .smovi (fSR 1 2 1 10 0 0 0 7 4 0xADDDDC1B)),
   (0x00000000004E00281A0A4451#96, .sbfx (fSR 1 0 1 5 13 20 0 7 4 0x0)),
   (0x00000000014E18C090206450#96, .sbfi (fSR 0 0 1 16 72 96 12 7 20 0x0)),
   (0x00000000014E00001C0A8456#96, .spopc (fSR 0 3 1 5 14 0 0 7 20 0x0)),
   (0x00000000014E00000418A451#96, .sclz (fSR 1 0 1 12 2 0 0 7 20 0x0)),
   (0x00000000000E000019880470#96, .kset (fSR 0 0 1 196 12 0 0 7 0 0x0)),
   (0x00000000000E00019E1C2471#96, .kget (fSR 1 0 1 14 207 0 0 7 0 0x0)),
   (0x0000000000060025899E4477#96, .kpush (fSR 1 3 1 207 196 18 0 3 0 0x0)),
   (0x000000000004000185906470#96, .kpop (fSR 0 0 1 200 194 0 0 2 0 0x0)),
   (0x00000000000E008189848463#96, .kswap (fSR 1 1 0 194 196 64 0 7 0 0x0)),
   (0x00000000000E000190C0A477#96, .kdepth (fSR 1 3 1 96 200 0 0 7 0 0x0))]

theorem test_words_uniformMore : ∀ e ∈ uniformMoreWords, (decode e.1).toOption = some e.2 := by decide

/-- vector: one word of each instruction, its bits laid out by R48 to R56 and its codes taken from R60. -/
def vectorWords : List (Code × Instr) :=
  [(0x0001C0226000007D000C0810#96, .iadd (fVR 0 0 1 6 320 15 0 0 19 0 0b100000000 7)),
   (0x0001C80270000004B0062813#96, .isub (fVR 1 1 1 3 300 0 0 128 19 0 0b000000100 7)),
   (0x0001C8202040000008084801#96, .imul (fVR 1 0 0 4 2 0 0 2 1 0 0b100000100 7)),
   (0x0001C8008200000500086810#96, .imulh (fVR 0 0 1 4 320 0 0 16 4 0 0b000000100 7)),
   (0x0001C82040E08003099E8811#96, .imad (fVR 1 0 1 207 194 0 8 7 2 0 0b100000100 7)),
   (0x0001C80020E400001C08A81E#96, .imadw (fVR 0 7 1 4 7 0 64 7 1 0 0b000000100 7)),
   (0x00010800406060003406C800#96, .iaddc (fVR 0 0 0 3 13 0 6 3 2 0 0b000000100 4)),
   (0x0001C0004000007182B0E800#96, .ishl (fVR 0 0 0 344 96 14 0 0 2 0 0b000000000 7)),
   (0x0001C800402000000D89081E#96, .ishr (fVR 0 7 1 196 3 0 0 1 2 0 0b000000100 7)),
   (0x0001C8002580000258032810#96, .isra (fVR 0 0 1 1 150 0 0 44 1 0 0b000000100 7)),
   (0x0001C800004C400400134811#96, .ishf (fVR 1 0 1 9 256 0 196 2 0 0 0b000000100 7)),
   (0x0001C80001E00000201D6810#96, .iand (fVR 0 0 1 14 8 0 0 15 0 0 0b000000100 7)),
   (0x0001C8000200000025858814#96, .ior (fVR 0 2 1 194 9 0 0 16 0 0 0b000000100 7)),
   (0x0001C80012C000012201A811#96, .ixor (fVR 1 0 1 256 72 0 0 150 0 0 0b000000100 7)),
   (0x0001C0028C0101402A59C815#96, .ilop3 (fVR 1 2 1 300 10 40 16 96 20 0 0b000000000 7)),
   (0x0001C801028000002A81E811#96, .imin (fVR 1 0 1 320 10 0 0 20 8 0 0b000000100 7))]

theorem test_words_vector : ∀ e ∈ vectorWords, (decode e.1).toOption = some e.2 := by decide

/-- vectorMore: one word of each instruction, its bits laid out by R48 to R56 and its codes taken from R60. -/
def vectorMoreWords : List (Code × Instr) :=
  [(0x0001C800C160000032800839#96, .imax (fVR 1 4 1 320 12 0 0 11 6 0 0b000000100 7)),
   (0x0001C020E0000000A0502830#96, .iabs (fVR 0 0 1 40 40 0 0 0 7 0 0b100000000 7)),
   (0x00008810C0A000033C004831#96, .icmp (fVR 1 0 1 0 207 0 0 5 6 4 0b000000100 2)),
   (0x0001C80000C040002424683E#96, .isel (fVR 0 7 1 18 9 0 4 6 0 0 0b000000100 7)),
   (0x0001C000000000003C128836#96, .ipopc (fVR 0 3 1 9 15 0 0 0 0 0 0b000000000 7)),
   (0x0001C000000000000428A831#96, .iclz (fVR 1 0 1 20 1 0 0 0 0 0 0b000000000 7)),
   (0x0001C000000000031016C831#96, .ibrev (fVR 1 0 1 11 196 0 0 0 0 0 0b000000000 7)),
   (0x0001C80041400003200AE830#96, .ibfx (fVR 0 0 1 5 200 0 0 10 2 0 0b000000100 7)),
   (0x0001C800091400000E590830#96, .ibfi (fVR 0 0 1 300 3 0 320 72 0 0 0b000000100 7)),
   (0x0001D0026060002048132831#96, .idot4 (fVR 1 0 1 9 18 4 0 3 19 0 0b000000010 7)),
   (0x0001C0028000000120514830#96, .mov (fVR 0 0 1 40 72 0 0 0 20 0 0b000000000 7)),
   (0x0001C0028260000002016820#96, .movs (fVR 0 0 0 256 0 0 0 19 20 0 0b000000000 7)),
   (0x0001D0000C00009D001D8830#96, .prmt (fVR 0 0 1 14 320 19 0 96 0 0 0b000000010 7)),
   (0x0001C008200000404AB1A831#96, .lea (fVR 1 0 1 344 18 8 0 0 1 2 0b000000000 7))]

theorem test_words_vectorMore : ∀ e ∈ vectorMoreWords, (decode e.1).toOption = some e.2 := by decide

/-- vectorImm: one word of each instruction, its bits laid out by R48 to R56 and its codes taken from R60. -/
def vectorImmWords : List (Code × Instr) :=
  [(0xF74E792B000008183A800850#96, .iaddImm (fVI 0 0 1 320 14 3 0 1 0xF74E792B)),
   (0x000000070000082120142850#96, .isubImm (fVI 0 0 1 10 72 4 0 1 0x7)),
   (0x37F29D0E0000081020064850#96, .imulImm (fVI 0 0 1 3 8 2 0 1 0x37F29D0E)),
   (0xD4099CEF0000001026B0E854#96, .ishlImm (fVI 0 2 1 344 9 2 0 0 0xD4099CEF)),
   (0xDF353EF1000000104E590854#96, .ishrImm (fVI 0 2 1 300 19 2 0 0 0xDF353EF1)),
   (0xDFF0A99C000000081C272851#96, .israImm (fVI 1 0 1 19 7 1 0 0 0xDFF0A99C)),
   (0x00000006000000A031856851#96, .iandImm (fVI 1 0 1 194 12 20 0 0 0x6)),
   (0x00000028000000A308198853#96, .iorImm (fVI 1 1 1 12 194 20 0 0 0x28)),
   (0x000000C4000000A32025A851#96, .ixorImm (fVI 1 0 1 18 200 20 0 0 0xC4)),
   (0xC6E5E66400000040A00DE854#96, .iminImm (fVI 0 2 1 6 40 8 0 0 0xC6E5E664)),
   (0x39A72D8900000008000E0871#96, .movi (fVI 1 0 1 7 0 1 0 0 0x39A72D89)),
   (0x0000001000000008300E2875#96, .imaxImm (fVI 1 2 1 7 12 1 0 0 0x10))]

theorem test_words_vectorImm : ∀ e ∈ vectorImmWords, (decode e.1).toOption = some e.2 := by decide

/-- lanes: one word of each instruction, its bits laid out by R48 to R56 and its codes taken from R60. -/
def lanesWords : List (Code × Instr) :=
  [(0x0000880280C0000201900881#96, .rdlane (fVR 1 0 0 200 128 0 0 6 20 0 0b000000100 2)),
   (0x000188101009600051902894#96, .shflIdx (fVR 0 2 1 200 20 0 150 128 0 4 0b000000100 6)),
   (0x0001C8080240C00014284890#96, .shflRot (fVR 0 0 1 20 5 0 12 18 0 2 0b000000100 7)),
   (0x0000D00680E000690024688F#96, .shflShift (fVR 1 7 0 18 64 13 0 7 20 1 0b000000010 3)),
   (0x000188080080D00024248890#96, .shflXor (fVR 0 0 1 18 9 0 13 4 0 2 0b000000100 6)),
   (0x0000C80001A000056080A89A#96, .xch (fVR 0 5 1 64 344 0 0 13 0 0 0b000000100 3))]

theorem test_words_lanes : ∀ e ∈ lanesWords, (decode e.1).toOption = some e.2 := by decide

/-- float: one word of each instruction, its bits laid out by R48 to R56 and its codes taken from R60. -/
def floatWords : List (Code × Instr) :=
  [(0x00008475800020802E580C11#96, .fadd (fVR 1 0 1 300 11 16 2 0 12 5 0b110001000 2)),
   (0x0000CE75608000001C182C01#96, .fsub (fVR 1 0 0 12 7 0 0 4 11 5 0b110011100 3)),
   (0x0001C4EA0000005852B04C11#96, .fmul (fVR 1 0 1 344 20 11 0 0 16 2 0b111001000 7)),
   (0x0000CEA58086000121006C07#96, .ffma (fVR 1 3 0 128 72 0 96 4 12 1 0b101011100 3)),
   (0x00008E4200C00000100E8C16#96, .fmin (fVR 0 3 1 7 4 0 0 6 16 0 0b010011100 2)),
   (0x00004AC122400000180EAC10#96, .fmax (fVR 0 0 1 7 6 0 0 18 9 0 0b011010100 1)),
   (0x0000CA91480000001000CC14#96, .fcmp (fVR 0 2 1 0 4 0 0 64 10 4 0b001010100 3)),
   (0x0001C001800000003810EC11#96, .fclass (fVR 1 0 1 8 14 0 0 0 12 0 0b000000000 7)),
   (0x000012560000000050170C11#96, .frnd (fVR 1 0 1 11 20 0 0 0 16 5 0b010010010 0)),
   (0x0000C8796200000500072C1E#96, .fscale (fVR 0 7 1 3 320 0 0 16 11 6 0b110000100 3)),
   (0x0000D1B20180080310254C0D#96, .fdot2 (fVR 1 6 0 18 196 256 0 12 16 4 0b101100010 3))]

theorem test_words_float : ∀ e ∈ floatWords, (decode e.1).toOption = some e.2 := by decide

/-- approximations: one word of each instruction, its bits laid out by R48 to R56 and its codes taken from R60. -/
def approximationsWords : List (Code × Instr) :=
  [(0x0000C22140000000A0000C3D#96, .frcp (fVR 1 6 1 0 40 0 0 0 10 0 0b100010000 3)),
   (0x000082212000000500062C3E#96, .frsq (fVR 0 7 1 3 320 0 0 0 9 0 0b100010000 2)),
   (0x000110554000000560284C3B#96, .fsqrt (fVR 1 5 1 20 344 0 0 0 10 5 0b010000010 4)),
   (0x0001123560C004B040026C34#96, .fdiv (fVR 0 2 1 1 16 150 0 6 11 5 0b100010010 4)),
   (0x0000C22160000003080E8C31#96, .fexp2 (fVR 1 0 1 7 194 0 0 0 11 0 0b100010000 3)),
   (0x00010241800000030890AC31#96, .flog2 (fVR 1 0 1 72 194 0 0 0 12 0 0b010010000 4)),
   (0x00010262000000004984CC31#96, .fsin (fVR 1 0 1 194 18 0 0 0 16 0 0b110010000 4)),
   (0x0001826120000000299EEC31#96, .fcos (fVR 1 0 1 207 10 0 0 0 9 0 0b110010000 6)),
   (0x0001C2620000000002B10C20#96, .ftanh (fVR 0 0 0 344 0 0 0 0 16 0 0b110010000 7))]

theorem test_words_approximations : ∀ e ∈ approximationsWords, (decode e.1).toOption = some e.2 := by decide

/-- floatImm: one word of each instruction, its bits laid out by R48 to R56 and its codes taken from R60. -/
def floatImmWords : List (Code × Instr) :=
  [(0x73DD006000000E604D9E0C5D#96, .faddImm (fVI 1 6 1 207 19 12 6 1 0x73DD0060)),
   (0x0000009600000C5B119E2C50#96, .fsubImm (fVI 0 0 1 207 196 11 4 1 0x96)),
   (0x0000015800000C5041904C59#96, .fmulImm (fVI 1 4 1 200 16 10 4 1 0x158)),
   (0xD8AEF6850000005982B08C5B#96, .fminImm (fVI 1 5 1 344 96 11 0 0 0xD8AEF685)),
   (0x59F61858000000482826AC51#96, .fmaxImm (fVI 1 0 1 19 10 9 0 0 0x59F61858)),
   (0x0000C035A10C4000392C0C70#96, .cvt (fVR 0 0 1 150 14 0 196 8 13 5 0b100000000 3)),
   (0x00008005C20000233D2C2C7A#96, .cvtp (fVR 0 5 1 150 207 4 0 16 14 1 0b000000000 2)),
   (0x0001C009E120001100144C70#96, .cvtb (fVR 0 0 1 10 64 2 0 9 15 2 0b000000000 7)),
   (0x0000002581E0000048126C7E#96, .cvtx (fVR 0 7 1 9 18 0 0 15 12 1 0b100000000 0))]

theorem test_words_floatImm : ∀ e ∈ floatImmWords, (decode e.1).toOption = some e.2 := by decide

/-- memory: one word of each instruction, its bits laid out by R48 to R56 and its codes taken from R60. -/
def memoryWords : List (Code × Instr) :=
  [(0x6BDDC0B19900000008101011#96, .ld (fMF 1 0 1 8 2 0 200 4 1 6 2 0 0 0 0x1AF77)),
   (0x48C9072919E000031016301E#96, .ldSx (fMF 0 7 1 11 196 0 207 0 1 5 0 1 3 0 0x12324)),
   (0xF3C8C0757840000202005011#96, .st (fMF 1 0 1 256 128 0 194 3 5 6 1 0 0 0 0x3CF23)),
   (0x00310095384000001C16701F#96, .ldu (fMF 1 7 1 11 7 0 194 1 5 2 2 0 0 0 0xC4)),
   (0x004000F519E0000010149010#96, .lduSx (fMF 0 0 1 10 4 0 207 0 5 6 3 0 0 0 0x100)),
   (0x003200CD584000002016B010#96, .stu (fMF 0 0 1 11 8 0 194 2 5 1 3 0 0 0 0xC8)),
   (0x00024180190000050000D011#96, .prf (fMF 1 0 1 0 320 0 200 0 0 0 2 1 0 0 0x9)),
   (0x00180180184050002400F014#96, .mhint (fMF 0 2 1 0 9 5 194 0 0 0 2 1 0 0 0x60)),
   (0x0033C1001880000180011011#96, .cctlInv (fMF 1 0 1 0 96 0 196 0 0 0 0 1 0 0 0xCF)),
   (0xFBE7010039E0000200011000#96, .cctlWb (fMF 0 0 0 0 128 0 207 1 0 0 0 1 0 0 0x3EF9C)),
   (0x00000000400000000001100F#96, .cctlInvall (fMF 1 7 0 0 0 0 0 2 0 0 0 0 0 0 0x0)),
   (0xB9C8140A60000000500C102F#96, .lds (fMF 1 7 0 6 20 0 0 3 2 1 0 0 2 2 0x2E720)),
   (0x16DC9C1520000000101A3038#96, .ldsSx (fMF 0 4 1 13 4 0 0 1 5 2 0 0 2 3 0x5B72)),
   (0x00021C10200000033C0E5020#96, .sts (fMF 0 0 0 7 207 0 0 1 0 2 0 0 2 3 0x8))]

theorem test_words_memory : ∀ e ∈ memoryWords, (decode e.1).toOption = some e.2 := by decide

/-- atomics: one word of each instruction, its bits laid out by R48 to R56 and its codes taken from R60. -/
def atomicsWords : List (Code × Instr) :=
  [(0x0056012B590C4000059E1414#96, .atomAdd (fMF 0 2 1 207 1 196 200 2 3 5 0 1 0 0 0x158)),
   (0x3256071459E010002A80341E#96, .atomAnd (fMF 0 7 1 320 10 1 207 2 4 2 0 1 3 0 0xC958)),
   (0xECB2810B590600003A58540E#96, .atomOr (fMF 0 7 0 300 14 96 200 2 3 1 0 1 0 0 0x3B2CA)),
   (0x0032060A59E0E0004012741F#96, .atomXor (fMF 1 7 1 9 16 14 207 2 2 1 0 0 3 0 0xC8)),
   (0xFC3C812258540000081A9411#96, .atomMinS (fMF 1 0 1 13 2 320 194 2 2 4 0 1 0 0 0x3F0F2)),
   (0x000081335854000022B0B41E#96, .atomMaxS (fMF 0 7 1 344 8 320 194 2 3 6 0 1 0 0 0x2)),
   (0x9D4FC11C789580001080D411#96, .atomMinU (fMF 1 0 1 64 4 344 196 3 4 3 0 1 0 0 0x2753F)),
   (0x0030812B59E07000A014F41F#96, .atomMaxU (fMF 1 7 1 10 40 7 207 2 3 5 0 1 0 0 0xC2)),
   (0x880E011C5840E0002281141F#96, .atomExch (fMF 1 7 1 320 8 14 194 2 4 3 0 1 0 0 0x22038)),
   (0x0002012C59EC800308113415#96, .atomCas (fMF 1 2 1 8 194 200 207 2 4 5 0 1 0 0 0x8)),
   (0xD943011C591580003881540E#96, .atomInc (fMF 0 7 0 64 14 344 200 2 4 3 0 1 0 0 0x3650C)),
   (0x21DDC1255884000050157411#96, .atomDec (fMF 1 0 1 10 20 64 196 2 5 4 0 1 0 0 0x8777)),
   (0x74FF811C59E070004101940F#96, .atomFadd (fMF 1 7 0 128 16 7 207 2 4 3 0 1 0 0 0x1D3FE))]

theorem test_words_atomics : ∀ e ∈ atomicsWords, (decode e.1).toOption = some e.2 := by decide

/-- scratchpadAtomics: one word of each instruction, its bits laid out by R48 to R56 and its codes taken from R60. -/
def scratchpadAtomicsWords : List (Code × Instr) :=
  [(0x00048C126000600036B01435#96, .atomsAdd (fMF 1 2 1 344 13 6 0 3 2 2 0 0 2 1 0x12)),
   (0xF4D65C0B60158000152C3423#96, .atomsAnd (fMF 1 1 0 150 5 344 0 3 3 1 0 0 2 3 0x3D359)),
   (0x57189C114000B0002C1A5437#96, .atomsOr (fMF 1 3 1 13 11 11 0 2 1 2 0 0 2 3 0x15C62)),
   (0xB2149C0B4014000014027430#96, .atomsXor (fMF 0 0 1 1 5 320 0 2 3 1 0 0 2 3 0x2C852)),
   (0x000494144010000320129430#96, .atomsMinS (fMF 0 0 1 9 200 256 0 2 4 2 0 0 2 2 0x12)),
   (0x0BED1C14400CF0001A58B430#96, .atomsMaxS (fMF 0 0 1 300 6 207 0 2 4 2 0 0 2 3 0x2FB4)),
   (0x00321409400100001C08D42F#96, .atomsMinU (fMF 1 7 0 4 7 16 0 2 1 1 0 0 2 2 0xC8)),
   (0x210BCC0C40028002581AF430#96, .atomsMaxU (fMF 0 0 1 13 150 40 0 2 4 1 0 0 2 1 0x842F)),
   (0x72D64C14400C8000180B1421#96, .atomsExch (fMF 1 0 0 5 6 200 0 2 4 2 0 0 2 1 0x1CB59)),
   (0x34591C0B4000D0003C153421#96, .atomsCas (fMF 1 0 0 10 15 13 0 2 3 1 0 0 2 3 0xD164)),
   (0x4CD25C14400010040281543E#96, .atomsInc (fMF 0 7 1 320 256 1 0 2 4 2 0 0 2 3 0x13349)),
   (0x004B1C144000E004000F7431#96, .atomsDec (fMF 1 0 1 7 256 14 0 2 4 2 0 0 2 3 0x12C)),
   (0x00049C0D400C80002C279433#96, .atomsFadd (fMF 1 1 1 19 11 200 0 2 5 1 0 0 2 3 0x12))]

theorem test_words_scratchpadAtomics : ∀ e ∈ scratchpadAtomicsWords, (decode e.1).toOption = some e.2 := by decide

/-- reductions: one word of each instruction, its bits laid out by R48 to R56 and its codes taken from R60. -/
def reductionsWords : List (Code × Instr) :=
  [(0x8EE941217840800120001446#96, .redAdd (fMF 0 3 0 0 72 8 194 3 1 4 0 1 0 0 0x23BA5)),
   (0x039D40257880C0003C003452#96, .redAnd (fMF 0 1 1 0 15 12 196 3 5 4 0 0 0 0 0xE75)),
   (0x3BCEC13559E0400000005441#96, .redOr (fMF 1 0 0 0 0 4 207 2 5 6 0 1 0 0 0xEF3B)),
   (0xD9C6811579F00004B0007459#96, .redXor (fMF 1 4 1 0 300 256 207 3 5 2 0 1 0 0 0x3671A)),
   (0x64AE01237912C0002C00945F#96, .redMinS (fMF 1 7 1 0 11 300 200 3 3 4 0 1 0 0 0x192B8)),
   (0x26C74123590130000800B45A#96, .redMaxS (fMF 0 5 1 0 2 19 200 2 3 4 0 1 0 0 0x9B1D)),
   (0x000001215880E0005000D45D#96, .redMinU (fMF 1 6 1 0 20 14 196 2 1 4 0 1 0 0 0x0)),
   (0x0003412179E020056000F45C#96, .redMaxU (fMF 0 6 1 0 344 2 207 3 1 4 0 1 0 0 0xD)),
   (0x2CC2802D59F5800038019450#96, .redFadd (fMF 0 0 1 0 14 344 207 2 5 5 0 0 0 0 0xB30A))]

theorem test_words_reductions : ∀ e ∈ reductionsWords, (decode e.1).toOption = some e.2 := by decide

/-- updates: one word of each instruction, its bits laid out by R48 to R56 and its codes taken from R60. -/
def updatesWords : List (Code × Instr) :=
  [(0xD3050101585400020000347B#96, .updIadd32 (fMF 1 5 1 0 128 320 194 2 1 0 0 1 0 0 0x34C14)),
   (0x03A1403179F4000038005473#96, .updIadd64 (fMF 1 1 1 0 14 320 207 3 1 6 0 0 0 0 0xE85)),
   (0x0002C1015906000320007471#96, .updFadd32 (fMF 1 0 1 0 200 96 200 2 1 0 0 1 0 0 0xB)),
   (0x60F9C0037902800010009460#96, .updFadd64 (fMF 0 0 0 0 4 40 200 3 3 0 0 0 0 0 0x183E7)),
   (0x00020109584140002000B46C#96, .updSmax32 (fMF 0 6 0 0 8 20 194 2 1 1 0 1 0 0 0x8)),
   (0xF3798019591580020000D471#96, .updSmin32 (fMF 1 0 1 0 128 344 200 2 1 3 0 0 0 0 0x3CDE6)),
   (0x000400335880C0003800F471#96, .updZmax32 (fMF 1 0 1 0 14 12 196 2 3 6 0 0 0 0 0x10)),
   (0xE1AF00295880D0056001146E#96, .updZmin32 (fMF 0 7 0 0 344 13 196 2 1 5 0 0 0 0 0x386BC)),
   (0x0000072359EC40002801347E#96, .updFmax32 (fMF 0 7 1 0 10 196 207 2 3 4 0 1 3 0 0x0)),
   (0x18FA4121590140000C015461#96, .updFmin32 (fMF 1 0 0 0 3 20 200 2 1 4 0 1 0 0 0x63E9)),
   (0xFE9AC1097840000310017470#96, .updAnd64 (fMF 0 0 1 0 196 0 194 3 1 1 0 1 0 0 0x3FA6B)),
   (0x0001C1037840800200019479#96, .updOr64 (fMF 1 4 1 0 128 8 194 3 3 0 0 1 0 0 0x7)),
   (0x9DA280117840A0000001B470#96, .updXor64 (fMF 0 0 1 0 0 10 194 3 1 2 0 0 0 0 0x2768A)),
   (0x0000000B000000000000148F#96, .fence (fMF 1 7 0 0 0 0 0 0 3 1 0 0 0 0 0x0))]

theorem test_words_updates : ∀ e ∈ updatesWords, (decode e.1).toOption = some e.2 := by decide

/-- matrix: one word of each instruction, its bits laid out by R48 to R56 and its codes taken from R60. -/
def matrixWords : List (Code × Instr) :=
  [(0x00000000026000000000160E#96, .mxacq (fMX 0 7 0 0 0 19 0 0 0 0 0)),
   (0x000000400C0000000000160E#96, .mxacqPair (fMX 0 7 0 0 0 96 0 0 1 0 0)),
   (0x00000000000000000000360E#96, .mxrel (fMX 0 7 0 0 0 0 0 0 0 0 0)),
   (0x00000008E00000012000560F#96, .mxrdy (fMX 1 7 0 0 72 0 7 2 0 0 0)),
   (0x000001C90100000020027610#96, .mma (fMX 0 0 1 1 8 8 8 2 1 1 1)),
   (0x00000151E040000020009611#96, .mmab (fMX 1 0 1 0 8 2 15 4 1 0 1)),
   (0x00000000000000000000B60F#96, .mxwait (fMX 1 7 0 0 0 0 0 0 0 0 0)),
   (0x00000000014000032002D61D#96, .mxrd (fMX 1 6 1 1 200 10 0 0 0 0 0)),
   (0x0000000000C000012002F610#96, .mxwr (fMX 0 0 1 1 72 6 0 0 0 0 0)),
   (0x000000400000000000031617#96, .mxzero (fMX 1 3 1 1 0 0 0 0 1 0 0)),
   (0x000000416C00000000033611#96, .mxst (fMX 1 0 1 1 0 96 11 0 1 0 0)),
   (0x0000004000C000000001560E#96, .mxtest (fMX 0 7 0 0 0 6 0 0 1 0 0))]

theorem test_words_matrix : ∀ e ∈ matrixWords, (decode e.1).toOption = some e.2 := by decide

/-- engines: one word of each instruction, its bits laid out by R48 to R56 and its codes taken from R60. -/
def enginesWords : List (Code × Instr) :=
  [(0x000001401900007840001816#96, .cpyLd (fEF 0 3 1 0 16 15 0 200 0 0x140)),
   (0x2DBF0C983840002008001811#96, .cpySt (fEF 1 0 1 0 2 4 0 194 1 0x2DBF0C98)),
   (0x00000000200000000008380F#96, .cpseal (fEF 1 7 0 4 0 0 0 0 1 0x0)),
   (0x00000000000010001C00580F#96, .cpwait (fEF 1 7 0 0 7 0 1 0 0 0x0)),
   (0x0000000000000021000E182E#96, .mcjoin (fEF 0 7 0 7 64 4 0 0 0 0x0)),
   (0x00000000000000003400382E#96, .mcleave (fEF 0 7 0 0 13 0 0 0 0 0x0)),
   (0xF8E5A8EB188001401002582E#96, .mcld (fEF 0 7 0 1 4 40 0 196 0 0xF8E5A8EB)),
   (0x000000004000000000001A0E#96, .bar (fEF 0 7 0 0 0 0 0 0 2 0x0)),
   (0x000000008000000000003A0E#96, .bara (fEF 0 7 0 0 0 0 0 0 4 0x0)),
   (0x00000000E000000000005A0E#96, .barw (fEF 0 7 0 0 0 0 0 0 7 0x0)),
   (0x00000000400000081C001A2F#96, .boinit (fEF 1 7 0 0 7 1 0 0 2 0x0)),
   (0x0000000200000000041E3A2E#96, .boarr (fEF 0 7 0 15 1 0 0 0 0 0x2)),
   (0x000000000000003920005A2F#96, .bowait (fEF 1 7 0 0 72 7 0 0 0 0x0)),
   (0x000000CF000000004C001A4F#96, .qinit (fEF 1 7 0 0 19 0 0 0 0 0xCF)),
   (0x000000000000003A58003A4F#96, .qpush (fEF 1 7 0 0 150 7 0 0 0 0x0)),
   (0x000000000000000024265A4E#96, .qpop (fEF 0 7 0 19 9 0 0 0 0 0x0)),
   (0x000000006000100258001A6E#96, .waitc (fEF 0 7 0 0 150 0 1 0 3 0x0)),
   (0x0000001439E0005810103A6F#96, .waitw (fEF 1 7 0 8 4 11 0 207 1 0x14))]

theorem test_words_engines : ∀ e ∈ enginesWords, (decode e.1).toOption = some e.2 := by decide

/-- Words that are no instruction, and why: an opcode and a function code that R60 does not list, the fill pattern (R61), a reserved bit of each form
(R50 to R55), a field value that the entry does not list. -/
theorem test_rejects_reserved_opcode : decode 0x0000000000000000000000000080#96 = .error (.reservedOpcode 4) := by rfl
theorem test_rejects_fill : decode (BitVec.allOnes 96) = .error (.reservedOpcode 255) := by rfl
theorem test_rejects_reserved_function : decode (0x10000#96 ||| 0x0E#96) = .error (.reservedFunction 0 8) := by rfl
theorem test_rejects_reserved_bits : ∀ e ∈ [(0x40#96, 81), (0x42, 44), (0x20, 57), (0x80, 77), (0x80, 35), (0x01, 85), (0x01, 35), (0x01, 18), (0xB0, 73), (0xB0, 35), (0xB0, 21)],
    (decode ((1#96 <<< e.2) ||| (e.1 <<< 5) ||| 0x0E)).toOption = none := by decide
theorem test_first_byte_is_low : decodeTableWord 96 0x0001C0002000000800040803 = some (.iadd (fVR 1 1 0 2 0 1 0 0 1 0 0 7)) := by rfl
theorem test_empty_slot_is_nop : decode 0#96 = .ok (.nop (fEF 0 0 0 0 0 0 0 0 0 0)) := by rfl

/-! ## Ill-formed terms, one for each check -/

/-- Of the VR form: a type, a zero field used, a misaligned pair, BU where B is no value, CU with C used, a PD used, a PD missing, a rounding code, U without
BU, U above S191, a modifier the entry lacks, RU, a parameter U. -/
def illVR : List Instr :=
  [.iadd (fVR 0 7 0 2 0 1 0 0 0 0 0 7), .iadd (fVR 0 7 0 2 0 1 4 0 1 0 0 7), .iadd (fVR 0 7 0 3 0 2 0 0 3 0 0 7), .iabs (fVR 0 7 0 2 0 0 0 5 1 0 4 7),
   .imad (fVR 0 7 0 2 0 1 4 5 1 0 2 7), .iadd (fVR 0 7 0 2 0 1 0 0 1 0 0 3), .icmp (fVR 0 7 0 0 0 1 0 0 1 0 0 7), .icmp (fVR 0 7 0 0 0 1 0 0 1 6 0 2),
   .fadd (fVR 0 7 0 2 0 1 0 0 9 7 0 7), .iadd (fVR 0 7 0 2 0 1 0 5 1 0 0 7), .iadd (fVR 0 7 0 2 0 0 0 192 1 0 4 7), .iadd (fVR 0 7 0 2 0 1 0 0 1 0 128 7),
   .iadd (fVR 0 7 0 2 0 1 0 0 1 0 1 7), .cvt (fVR 0 7 0 4 2 0 0 15 13 2 0 7), .mov (fVR 0 7 0 4 2 0 0 0 21 0 0 7), .rdlane (fVR 0 7 0 4 2 0 0 3 0 0 0 7)]
theorem test_ill_vr : ∀ i ∈ illVR, i.wf = false := by decide

/-- Of the VI and SR forms: a type, an unused A, a rounding code, saturation, a misaligned pair; an S register beyond S191, an unused field, a condition, a Q
number, a QD, an immediate not used, a guard that is no uniform one. -/
def illVIandSR : List Instr :=
  [.iaddImm (fVI 0 7 0 2 0 0 0 0 1), .movi (fVI 0 7 0 2 1 1 0 0 1), .faddImm (fVI 0 7 0 2 0 9 5 0 1), .iandImm (fVI 0 7 0 2 0 0 0 1 1), .iaddImm (fVI 0 7 0 2 1 3 0 0 1),
   .sadd (fSR 0 7 0 192 1 2 0 7 3 0), .sadd (fSR 0 7 0 1 1 2 3 7 3 0), .sadd (fSR 0 7 0 1 1 2 0 7 5 0), .sadd (fSR 0 7 0 1 1 2 0 7 3 1), .sadd (fSR 0 4 0 1 1 2 0 7 3 0),
   .sadd (fSR 0 7 0 1 1 2 0 0 3 0), .scmp (fSR 0 7 0 0 1 2 6 0 3 0), .scmp (fSR 0 7 0 0 1 2 5 7 3 0), .ssel (fSR 0 7 0 1 1 2 4 7 3 0), .kset (fSR 0 7 0 208 1 0 0 7 0 0),
   .kpush (fSR 0 7 0 192 193 2 0 4 0 0)]
theorem test_ill_vi_and_sr : ∀ i ∈ illVIandSR, i.wf = false := by decide

/-- Of the M form: a guard, a space, a size, an order, a scope, a hint, a hint in the die window, unused D and C, a K register, U of the die window, a peer
of 0 and one outside the peer space, a wide offset in a scratchpad, an offset register beyond S191, an address where there is none, a misaligned pair. -/
def illM : List Instr :=
  [.fence (fMF 0 0 0 0 0 0 0 0 4 4 0 0 0 0 0), .ld (fMF 0 7 0 4 0 0 194 2 0 0 0 0 1 0 0), .ld (fMF 0 7 0 4 0 0 194 5 0 0 0 0 0 0 0), .ld (fMF 0 7 0 4 0 0 194 2 3 0 0 0 0 0 0),
   .lds (fMF 0 7 0 4 0 0 0 2 0 3 0 0 1 0 0), .ld (fMF 0 7 0 4 0 0 194 2 0 7 0 0 0 0 0), .atomAdd (fMF 0 7 0 4 0 5 194 2 1 0 1 0 0 0 0), .ld (fMF 0 7 0 4 0 0 207 2 0 0 1 0 3 0 0),
   .redAdd (fMF 0 7 0 4 0 5 194 2 1 0 0 0 0 0 0), .ld (fMF 0 7 0 4 0 5 194 2 0 0 0 0 0 0 0), .ld (fMF 0 7 0 4 0 0 20 2 0 0 0 0 0 0 0), .ld (fMF 0 7 0 4 0 0 194 2 0 0 0 0 3 0 0),
   .lds (fMF 0 7 0 4 0 0 0 2 0 0 0 0 2 0 0), .lds (fMF 0 7 0 4 0 0 0 2 0 0 0 0 1 1 0), .lds (fMF 0 7 0 4 0 0 0 2 0 0 0 1 1 0 0), .ldu (fMF 0 7 0 4 192 0 194 2 0 0 0 0 0 0 0),
   .fence (fMF 0 7 0 0 0 0 0 0 4 4 0 0 0 0 8), .ld (fMF 0 7 0 3 0 0 194 3 0 0 0 0 0 0 0), .ld (fMF 0 7 0 6 0 0 194 4 0 0 0 0 0 0 0)]
theorem test_ill_m : ∀ i ∈ illM, i.wf = false := by decide

/-- Of the B, MX and E forms: UQ where none is allowed, UQ with a lane guard, a guard on a whole-slot branch, an offset of RET, a join of zero and one not
used, a counter beyond S191; a bank, a slice's first register, U beyond S191, a format, no K-step and a fifth, a pair not allowed, RU outside a product, a
slice past V511; a guard, an unused field, a special register not listed, a level below 2, a parameter too large, a barrier EA, NOP's own zeros. -/
def illBandMXandE : List Instr :=
  [.call (fBF 0 7 0 1 0 5 0), .bra (fBF 0 4 0 1 0 5 0), .bra (fBF 0 3 0 0 0 5 0), .ret (fBF 0 7 0 0 0 5 0), .brc (fBF 0 1 0 0 0 5 0), .bra (fBF 0 7 0 0 0 5 1), .loops (fBF 0 7 0 0 192 5 0),
   .mma (fMX 0 7 0 2 64 4 7 1 0 0 0), .mma (fMX 0 7 0 1 66 4 7 1 0 0 0), .mma (fMX 0 7 0 1 64 192 7 1 0 0 0), .mma (fMX 0 7 0 1 64 4 15 1 0 0 0), .mma (fMX 0 7 0 1 64 4 7 0 0 0 0),
   .mma (fMX 0 7 0 1 64 4 7 5 0 0 0), .mxrd (fMX 0 7 0 0 64 4 0 0 1 0 0), .mxzero (fMX 0 7 0 1 0 0 0 0 0 1 0), .mma (fMX 0 7 0 1 504 4 7 1 0 0 0),
   .kill (fEF 0 1 0 0 0 0 0 0 0 0), .kill (fEF 0 7 0 1 0 0 0 0 0 0), .rdsrS (fEF 0 7 0 1 0 0 0 0 0 0), .wrsr (fEF 0 7 0 0 1 0 0 11 0 0), .bar (fEF 0 7 0 0 0 0 0 0 1 0),
   .cpseal (fEF 0 7 0 1 0 0 0 0 7 0), .cpwait (fEF 0 7 0 0 0 0 2 0 0 0), .nop (fEF 0 0 0 0 0 0 0 0 0 1)]
theorem test_ill_b_and_mx_and_e : ∀ i ∈ illBandMXandE, i.wf = false := by decide

/-! ## States -/

/-- The fetching state of assumption 6 with its group's first slot issuing. -/
def base : State := { State.reset.withFetchWord 96 0 with issuer := some (1, .a), agenda := [] }

/-- The same with another group in its place. -/
def on (g : Group) : State := { base with groups := [g] }

/-- Its issuer. -/
def by_ (g : Group) : Issuer := ⟨g, .a⟩

theorem on_issuer {g : Group} (h : g.id = 1) : (on g).issuer? = some (by_ g) := by simp [on, by_, base, State.issuer?, State.group?, h]

/-- The group with an S register written, and with a slot changed. -/
def withS (n : Nat) (x : DWord) : Group := fetchGroup.poke (.s n) x
def withA (x : Slot) : Group := { fetchGroup with a := x }
def runA : Slot := fetchGroup.a

/-- A guard that holds always, and one that never does: not Q0, which is false, is true; Q0 is not. -/
theorem test_guards : fetchGroup.uniformGuard 0 (common 0 7 0) = true ∧ fetchGroup.uniformGuard 0 (common 0 0 0) = false ∧
    fetchGroup.uniformGuard 0 (common 0 0 1) = true := by decide

/-- An IADD of vectors (V), an SADD (S), and a line of the two under a template, its parities even (R42, R47). -/
def firstOf : Instr := .iadd (fVR 1 1 0 2 0 1 0 0 1 0 0 7)
def secondOf : Instr := .sadd (fSR 0 7 0 1 2 3 0 7 3 0)
def codeOf (i : Instr) : Nat := ((encode i).getD 0).toNat
def pairedLine (template : Nat) : List Byte :=
  let ones := fun (n : Nat) => ((List.range 96).filter (fun i => n.testBit i)).length % 2
  let w := 2048 * template
  leBytes 12 (codeOf firstOf) ++ leBytes 12 (codeOf secondOf) ++ List.replicate 36 0 ++ leBytes 4 (w + 32 * ones w + 2 * ones (codeOf secondOf) + ones (codeOf firstOf))
theorem test_pairs : (∀ t ∈ [1, 5, 6], (partnerOf (pairedLine t) 0 firstOf (BitVec.ofNat 96 (codeOf firstOf))).map (·.instr) = some secondOf) ∧
    (∀ t ∈ [0, 2, 7], partnerOf (pairedLine t) 0 firstOf (BitVec.ofNat 96 (codeOf firstOf)) = none) ∧ lwpOk (lineWord (pairedLine 5)) = true ∧ slotOk (pairedLine 5) 1 = true := by decide +kernel

/-! ## Witnesses: what each statement assumes can be met -/

theorem witness_UniformArithmetic : (on fetchGroup).issuer? = some (by_ fetchGroup) ∧
    ∀ t ∈ [1, 2, 3, 4], uniTypes.contains (fSR 0 7 0 1 2 3 0 7 t 0).t.toNat ∧ (3 ≤ t → [3, 4].contains (fSR 0 7 0 1 2 3 0 7 t 0).t.toNat) :=
  ⟨rfl, by decide⟩

theorem witness_UniformLogicShiftsAndExtremes : ∃ (s : State) (u : Issuer), ∃ f : SR, s.issuer? = some u ∧ uniTypes.contains f.t.toNat ∧ f.imm.toNat = 64 :=
  ⟨on fetchGroup, by_ fetchGroup, fSR 0 7 0 1 2 3 0 7 4 64, rfl, by decide⟩

theorem witness_UniformCompareMoveAndFields : ∃ (s : State) (u : Issuer), s.issuer? = some u ∧ (fSR 0 7 0 0 2 3 5 3 3 0).qd.toNat < 4 ∧ (fSR 0 7 0 1 2 3 0 7 3 0).t.toNat = 3 ∧
    (fSR 0 7 0 1 2 3 0 7 4 0).t.toNat = 4 ∧ (fSR 0 7 0 1 2 3 0 7 0 0).t.toNat = 0 ∧ (fSR 0 7 0 1 2 3 0 7 20 0).t.toNat = 20 :=
  ⟨on fetchGroup, by_ fetchGroup, rfl, by decide⟩

theorem witness_VectorArithmetic : (on fetchGroup).issuer? = some (by_ fetchGroup) ∧
    (∀ t ∈ arithTypes ++ packedTypes, (arithTypes ++ packedTypes).contains (fVR 0 7 0 2 4 6 8 0 t 0 256 7).t.toNat) ∧
    [1, 2, 3, 4].contains (fVR 0 7 0 2 4 6 8 0 4 0 0 7).t.toNat ∧ [1, 3, 5, 7, 18].contains (fVR 0 7 0 2 4 0 0 0 18 0 256 7).t.toNat ∧
    arithTypes.contains (fVR 0 7 0 2 4 6 8 0 8 0 0 7).t.toNat ∧ (fVR 0 7 0 2 4 6 8 0 1 0 0 7).t.toNat = 1 ∧ (fVR 0 7 0 2 4 6 8 0 19 0 0 7).t.toNat = 19 ∧
    (fVR 0 7 0 2 4 6 0 0 2 7 0 7).t.toNat = 2 :=
  ⟨rfl, by decide⟩

theorem witness_VectorShiftsAndBits : (on fetchGroup).issuer? = some (by_ fetchGroup) ∧ [2, 4].contains (fVR 0 7 0 2 4 6 0 0 4 0 0 7).t.toNat ∧
    [1, 3].contains (fVI 0 7 0 2 4 3 0 0 64).t.toNat ∧ (fVI 0 7 0 2 4 20 0 0 0xFFFFFFFF).t.toNat = 20 ∧ (fVR 0 7 0 2 4 6 8 150 0 0 0 7).t.toNat = 0 :=
  ⟨rfl, by decide⟩

theorem witness_VectorCompareFieldsAndMoves : (on fetchGroup).issuer? = some (by_ fetchGroup) ∧ arithTypes.contains (fVR 0 7 0 0 4 6 0 0 8 5 0 0).t.toNat ∧
    (fVR 0 7 0 2 0 0 0 191 20 0 0 7).t.toNat = 20 ∧ (fVR 0 7 0 2 0 0 0 191 0 0 0 7).t.toNat = 0 :=
  ⟨rfl, by decide⟩

/-- A stack of four labels, the deepest; one of five; and one with a reserved bit. -/
theorem witness_LabelInstructions :
    (∃ (s : State) (u : Issuer), ∃ f : SR, s.issuer? = some u ∧ 4 < depthOf (srcA s u f) ∧ u.g.uniformGuard s.turn f.toCommon ∧ mayTrap s u) ∧
    (∃ (s : State) (u : Issuer), ∃ f : SR, s.issuer? = some u ∧ (srcA s u f).msb = true ∧ u.g.uniformGuard s.turn f.toCommon ∧ mayTrap s u) ∧
    (∃ (s : State) (u : Issuer), ∃ f : SR, s.issuer? = some u ∧ (srcA s u f).msb = false ∧ depthOf (srcA s u f) = 4) ∧
    (∃ (s : State) (u : Issuer), ∃ f : SR, s.issuer? = some u ∧ ¬ u.g.uniformGuard s.turn f.toCommon) :=
  ⟨⟨on (withS 2 0x5000000000000000), by_ (withS 2 0x5000000000000000), fSR 0 7 0 192 2 0 0 7 0 0, rfl, by decide, by decide, by decide, by decide⟩,
   ⟨on (withS 2 0x8000000000000000), by_ (withS 2 0x8000000000000000), fSR 0 7 0 192 2 0 0 7 0 0, rfl, by decide, by decide, by decide, by decide⟩,
   ⟨on (withS 2 0x4000000000000000), by_ (withS 2 0x4000000000000000), fSR 0 7 0 192 2 0 0 7 0 0, rfl, by decide, by decide⟩,
   ⟨on fetchGroup, by_ fetchGroup, fSR 0 0 0 192 2 0 0 7 0 0, rfl, by decide⟩⟩

/-- A register with an older value pending, which a read may give; no such value; a marker of the lanes that it was written for. -/
theorem witness_ReadsOfRegisters : let g : Group := { fetchGroup with stale := [{ cell := .s 1, lanes := 1, old := 7, paired := false }] }
    (∃ e ∈ g.stale, e.cell = .s 1 ∧ e.lanes &&& 1 ≠ 0) ∧ (∀ e ∈ g.stale, e.cell ≠ .s 2) ∧ (by_ fetchGroup).g.stale = [] := by decide

theorem witness_LanesTogether : ∃ (s : State) (u : Issuer), ∃ f : VR, s.issuer? = some u ∧ f.pd.toNat ≠ 7 ∧ f.t.toNat = 20 ∧ f.rm.toNat ≤ 4 ∧ partOf s u f.toCommon = 0xFFFFFFFF :=
  ⟨on fetchGroup, by_ fetchGroup, fVR 0 7 0 2 4 6 0 0 20 4 0 6, rfl, by decide⟩

/-- An exchange with group 95 of another core of the octet, which waits in an XCH of the same type for this one. -/
def partner (w : Option Wait) : Group := { fetchGroup with id := 2, core := 4, grp := 95, a := { runA with wait := w } }
def waitingXch : Wait := { instr := .xch (fVR 0 7 0 2 4 0 0 1 0 0 4 3), ops := [0, 0, 0xFFFFFFFF] ++ List.replicate 32 9, cond := .event, done := false, turn := 0, fc := 0 }
def xchWord : DWord := 1 + 95 * 32
def twoOn (g : Group) (w : Option Wait) : State := { base with groups := [g, partner w] }

theorem witness_ExchangeOutcomes : let f := fVR 0 7 0 2 4 0 0 1 0 0 4 3
    (∃ (s : State) (u : Issuer), s.issuer? = some u ∧ u.slot.wait = none ∧ (u.g.rdS u.slot s.turn 2 f.u.toNat) >>> 12 ≠ 0 ∧ mayTrap s u) ∧
    (∃ (s : State) (u : Issuer), s.issuer? = some u ∧ u.slot.wait = none ∧ ((u.g.rdS u.slot s.turn 2 f.u.toNat).extractLsb' 5 7).toNat = 96 ∧ mayTrap s u) ∧
    (∃ (s : State) (u : Issuer), s.issuer? = some u ∧ u.slot.wait = none ∧ (u.g.rdS u.slot s.turn 2 f.u.toNat) = xchWord ∧
      s.groups.find? (fun x => x.core == 4 && x.grp == 95 && x.cid == u.g.cid && x.life == .resident && x.id != u.g.id) = none) ∧
    (∃ (s : State) (u : Issuer) (p : Group), s.issuer? = some u ∧ u.slot.wait = none ∧ (u.g.rdS u.slot s.turn 2 f.u.toNat) = xchWord ∧
      s.groups.find? (fun x => x.core == 4 && x.grp == 95 && x.cid == u.g.cid && x.life == .resident && x.id != u.g.id) = some p ∧
      p.a.wait = none ∧ p.b.wait = none) ∧
    (∃ (s : State) (u : Issuer) (p : Group) (x : Wait), s.issuer? = some u ∧ u.slot.wait = none ∧ (u.g.rdS u.slot s.turn 2 f.u.toNat) = xchWord ∧
      s.groups.find? (fun x => x.core == 4 && x.grp == 95 && x.cid == u.g.cid && x.life == .resident && x.id != u.g.id) = some p ∧
      p.a.wait = some x ∧ p.b.wait = none ∧ x.instr = .xch f ∧ x.done = false ∧ x.ops.take 2 = [u.g.core, u.g.grp] ∧ s.groupIssues p ∧
      p.a.advance.arriving = false ∧ p.b.arriving = false) :=
  ⟨⟨on (withS 1 0x1000), by_ (withS 1 0x1000), rfl, rfl, by decide, rfl, by decide⟩, ⟨on (withS 1 0xC00), by_ (withS 1 0xC00), rfl, rfl, by decide, rfl, by decide⟩,
   ⟨on (withS 1 xchWord), by_ (withS 1 xchWord), rfl, rfl, by decide, by decide⟩,
   ⟨twoOn (withS 1 xchWord) none, by_ (withS 1 xchWord), partner none, rfl, rfl, by decide, by decide, rfl, rfl⟩,
   ⟨twoOn (withS 1 xchWord) (some waitingXch), by_ (withS 1 xchWord), partner (some waitingXch), waitingXch, rfl, rfl, by decide, by decide, rfl, rfl, rfl, rfl, by decide,
    by decide, by decide, by decide⟩⟩

/-- A slot in trap mode. -/
def trapped : Slot := { runA with trap := some { mask := 0xFFFFFFFF, rets := 0, spills := 0, pc := 0, cause := 6 } }

theorem witness_SpecialRegisters : let s := on fetchGroup; let u := by_ fetchGroup
    s.issuer? = some u ∧ mayTrap s u ∧ (∀ n ∈ [0x00, 0x0B, 0x10, 0x17, 0x18, 0x1F], (specialOf s u 0 (fEF 0 7 0 1 0 0 0 n 0 0).u.toNat).isSome) ∧
    (fEF 0 7 0 1 0 0 0 0x0E 0 0).u.toNat = 0x0C + 2 ∧ u.slot.trap = none ∧ (by_ (withA trapped)).slot.trap ≠ none ∧ (on (withA trapped)).issuer? = some (by_ (withA trapped)) ∧
    fmtOk 0x000AFFFF ∧ ¬ fmtOk 0x00030000 ∧ ¬ fmtOk 0x00100000 :=
  ⟨rfl, ⟨rfl, by decide⟩, by decide, rfl, rfl, by decide, rfl, by unfold fmtOk; decide, by unfold fmtOk; decide, by unfold fmtOk; decide⟩

/-! ### Control -/

/-- The program with a second line, a target table whose first entry is the offset 1 (R46). -/
def tabled : State :=
  let s := base.storeBytes (fetchBase + 0x5040) (leBytes 60 1 ++ leBytes 4 (2 ^ 14 + 2 ^ 5 + 1))
  { s with grids := [{ fetchGrid with launch := { fetchLaunch with lines := 2 } }] }

/-- The same after the table's line has been read: the CORE entry stands in the cache. -/
def tabled' : State := { tabled with cache := [{ tier := .core, inst := 0, core := 0, label := 0, words := [0xFB, 0, 1, 0x0000800002001000] }] }

/-- A cached entry and the one in memory are the same here, whichever the cache gives. -/
theorem tabled'_entry : tabled'.findEntry .core 0 0 0 = (tabled', (tabled.findEntry .core 0 0 0).2) := by
  unfold State.findEntry
  have h1 : tabled'.cache.find? (fun c => c.isFor .core 0 0 0) = tabled'.cache.head? := by decide +kernel
  have h0 : ¬ tabled'.tableSize .core 0 ≤ 0 := by decide +kernel
  have h2 : tabled'.cache.head? = some (tabled'.cache.headD { tier := .core, inst := 0, core := 0, label := 0, words := [] }) := by decide +kernel
  rw [if_neg h0, h1, h2]
  dsimp only
  split
  · decide +kernel
  · decide +kernel

theorem tabled'_target : (tabled'.checkTarget fetchGroup 1).2 = .ok := by
  have h : tabled'.findEntry .core fetchGroup.cid fetchGroup.core (kLabel (tabled'.launch fetchGroup).codeK) = (tabled', (tabled.findEntry .core 0 0 0).2) := by
    have e : kLabel (tabled'.launch fetchGroup).codeK = 0 := by decide +kernel
    rw [e]; exact tabled'_entry
  have hw : tabled'.window? fetchGroup.cid (tabled'.launch fetchGroup).codeK = none := by decide +kernel
  have hs : (decide ((0 : Int) ≤ 1) && (tabled'.launch fetchGroup).inSegment (1 : Int).toNat) = true := by decide +kernel
  unfold State.checkTarget State.fetchLine State.resolve
  rw [if_pos hs]
  dsimp only
  rw [hw]
  dsimp only
  unfold State.lookFrom State.lookAt
  dsimp only
  rw [h]
  decide +kernel

theorem tabled_targets : tabled.tableTargets (by_ fetchGroup) 5 0 [0] = ((tabled'.checkTarget fetchGroup 1).1, .ok [(0, 1)]) := by
  have h : tabled.tableEntry (by_ fetchGroup) 5 ((by_ fetchGroup).g.rdV tabled.turn 0 0 0).toNat = (tabled', .target 1) := by decide +kernel
  have hc : tabled'.checkTarget (by_ fetchGroup).g 1 = ((tabled'.checkTarget fetchGroup 1).1, .ok) := Prod.ext rfl tabled'_target
  simp only [State.tableTargets, h, hc]

theorem pair_ok {α β ε : Type} {x : α × Except ε β} {b : β} (h : x.2.toOption = some b) : x = (x.1, .ok b) := by
  obtain ⟨a, e⟩ := x
  cases e <;> simp_all [Except.toOption]

/-- A target that passes; a fetch for it. -/
theorem witness_lands : lands base (by_ fetchGroup) 1 (base.checkTarget fetchGroup 1).1 := Prod.ext rfl (by decide +kernel)

/-- Both spill stacks of a group full, the other slot running; 32 return PCs. -/
def fullA : Slot := { runA with spill := List.replicate 128 { rpc := 0, jpc := 0, mask := 1, fmt := 0, cached := false, stamp := 0 } }
def fullGroup : Group := { fetchGroup with a := fullA, b := { runA with mask := 0, pj := none, st := .run } }
def deepA : Slot := { runA with rets := List.replicate 32 0 }

/-- A split of half the lanes, guarded by a predicate register that half the lanes hold. -/
def halfGroup : Group := (List.range 16).foldl (fun g l => g.poke (.p 1 l) 1) fetchGroup

theorem witness_Branches :
    (∃ (s : State) (u : Issuer) (f : BF), s.issuer? = some u ∧ f.uq ∧ ¬ u.g.uniformGuard s.turn f.toCommon) ∧
    (∃ (s : State) (u : Issuer) (f : BF) (s' : State), s.issuer? = some u ∧ f.uq = false ∧ lands s u (away u.slot f.off) s') ∧
    (∃ (s : State) (u : Issuer) (f : BF), s.issuer? = some u ∧ f.uq = false ∧ 5 * (s.launch u.g).lines = away u.slot f.off ∧ mayTrap s u) ∧
    (∃ (s : State) (u : Issuer) (f : BF), s.issuer? = some u ∧ f.uq = false ∧ away u.slot f.off = -1 ∧ mayTrap s u) ∧
    (∃ (s : State) (u : Issuer) (f : BF) (s' : State) (h : Group), s.issuer? = some u ∧ partOf s u f.toCommon = 0xFFFF ∧ lands s u (away u.slot f.off) s' ∧
      away u.slot f.joff = 4 ∧ roomInCore u.g ∧ splitOf s u 0xFFFF 0xFFFF0000 1 1 4 = some h ∧ quiet h) ∧
    (∃ (s : State) (u : Issuer) (f : BF) (h : Group), s.issuer? = some u ∧ partOf s u f.toCommon = 0 ∧ roomInCore u.g ∧
      splitOf s u 0 0xFFFFFFFF 1 1 4 = some h ∧ quiet h) ∧
    (∃ (s : State) (u : Issuer), s.issuer? = some u ∧ splitOf s u 1 2 1 1 4 = none ∧ mayTrap s u ∧ roomInCore u.g) ∧
    (∃ (s : State) (u : Issuer) (f : BF), s.issuer? = some u ∧ away u.slot f.off % 5 ≠ 0 ∧ mayTrap s u) ∧
    (∃ (s : State) (u : Issuer) (f : BF) (s' : State), s.issuer? = some u ∧ away u.slot f.off = 5 ∧
      s.tableTargets u 5 f.a.toNat (lanesOf (partOf s u f.toCommon)) = (s', .ok [])) ∧
    (∃ (s : State) (u : Issuer) (f : BF) (s' : State) (h : Group), s.issuer? = some u ∧ away u.slot f.off = 5 ∧ away u.slot f.joff = 4 ∧ roomInCore u.g ∧
      s.tableTargets u 5 f.a.toNat [0] = (s', .ok [(0, 1)]) ∧ splitOf s u 1 0xFFFFFFFE 1 0 4 = some h ∧ quiet (calledIn h (holderOf u 0xFFFFFFFE) 1)) ∧
    (let g := fetchGroup.poke (.p 1 0) 1; lanesOf (partOf (on g) (by_ g) (common 0 1 0)) = [0]) :=
  ⟨⟨on fetchGroup, by_ fetchGroup, fBF 0 0 0 1 0 1 0, rfl, by decide +kernel⟩,
   ⟨on fetchGroup, by_ fetchGroup, fBF 0 7 0 0 0 1 0, ((on fetchGroup).checkTarget fetchGroup 1).1, rfl, rfl, Prod.ext rfl (by decide +kernel)⟩,
   ⟨on fetchGroup, by_ fetchGroup, fBF 0 7 0 0 0 5 0, rfl, rfl, by decide +kernel, rfl, by decide +kernel⟩,
   ⟨on fetchGroup, by_ fetchGroup, fBF 0 7 0 0 0 0xFFFFFF 0, rfl, rfl, by decide +kernel, rfl, by decide +kernel⟩,
   ⟨on halfGroup, by_ halfGroup, fBF 0 1 0 0 0 1 4, ((on halfGroup).checkTarget halfGroup 1).1, _, rfl, by decide +kernel, Prod.ext rfl (by decide +kernel), by decide +kernel,
     by unfold roomInCore; decide +kernel, rfl, by unfold quiet; decide +kernel⟩,
   ⟨on halfGroup, by_ halfGroup, fBF 0 2 0 0 0 1 4, _, rfl, by decide +kernel, by unfold roomInCore; decide +kernel, rfl, by unfold quiet; decide +kernel⟩,
   ⟨on fullGroup, by_ fullGroup, rfl, by decide +kernel, ⟨rfl, by decide +kernel⟩, by unfold roomInCore; decide +kernel⟩,
   ⟨on fetchGroup, by_ fetchGroup, fBF 0 7 0 0 0 1 4, rfl, by decide +kernel, rfl, by decide +kernel⟩,
   ⟨{ tabled with groups := [halfGroup] }, by_ halfGroup, fBF 0 2 0 0 0 5 4, _, rfl, by decide +kernel, pair_ok (by decide +kernel)⟩,
   ⟨tabled, by_ fetchGroup, fBF 0 7 0 0 0 5 4, _, _, rfl, by decide +kernel, by decide +kernel, by unfold roomInCore; decide +kernel, tabled_targets, rfl, by unfold quiet; decide +kernel⟩,
   by decide +kernel⟩

theorem witness_CallsAndLoops :
    (∃ (s : State) (u : Issuer) (s' : State), s.issuer? = some u ∧ u.slot.rets.length < 32 ∧ lands s u (away u.slot 1) s') ∧
    (∃ (s : State) (u : Issuer) (s' : State), s.issuer? = some u ∧ u.slot.rets.length = 32 ∧ lands s u (away u.slot 1) s' ∧ mayTrap s u) ∧
    (∃ (s : State) (u : Issuer), s.issuer? = some u ∧ u.slot.rets = [] ∧ mayTrap s u) ∧
    (∃ (s : State) (u : Issuer) (s' : State) (pc : Pc) (rest : List Pc), s.issuer? = some u ∧ u.slot.rets = pc :: rest ∧ lands s u pc.toNat s') ∧
    (∃ (s : State) (u : Issuer), s.issuer? = some u ∧ u.g.rdS u.slot s.turn 0 3 = 0 ∧ u.g.rdS u.slot s.turn 0 4 = 1 ∧ 1 < u.g.rdS u.slot s.turn 0 5) :=
  ⟨⟨on fetchGroup, by_ fetchGroup, ((on fetchGroup).checkTarget fetchGroup 1).1, rfl, by decide +kernel, Prod.ext rfl (by decide +kernel)⟩,
   ⟨on (withA deepA), by_ (withA deepA), ((on (withA deepA)).checkTarget (withA deepA) 1).1, rfl, by decide +kernel, Prod.ext rfl (by decide +kernel), rfl, by decide +kernel⟩,
   ⟨on fetchGroup, by_ fetchGroup, rfl, rfl, rfl, by decide +kernel⟩,
   ⟨on (withA deepA), by_ (withA deepA), ((on (withA deepA)).checkTarget (withA deepA) 0).1, 0, List.replicate 31 0, rfl, rfl, Prod.ext rfl (by decide +kernel)⟩,
   ⟨on ((withS 4 1).poke (.s 5) 2), by_ ((withS 4 1).poke (.s 5) 2), rfl, by decide +kernel, by decide +kernel, by decide +kernel⟩⟩

/-- A context with tracing on, a ring of two records at 0x1000, its write index 1; one whose index is past the ring; one parked slot. -/
def traced (twr : Nat) : State := base.storeBytes (ctxBase 0 + 48) (leBytes 8 (2 ^ 63 + 2 ^ 48 + 0x1000) ++ leBytes 4 0 ++ leBytes 4 twr)
def parkedA : Slot := { runA with wait := some { instr := .sleep (fEF 0 7 0 0 0 0 0 0 0 5), ops := [], cond := .clock 5, done := true, turn := 0, fc := 0 } }

theorem witness_WaitsYieldsAndMarks :
    (∃ (s : State) (u : Issuer), s.issuer? = some u ∧ u.slot.wait = none ∧ (fEF 0 7 0 0 0 0 0 0 0 1).imm ≠ 0 ∧ (BitVec.ofNat 64 (s.ctxWord u.g.cid 6)).msb = false) ∧
    (∃ (s : State) (u : Issuer), s.issuer? = some u ∧ u.slot.wait ≠ none) ∧
    (∀ twr, twr = 1 ∨ twr = 2 → ∃ (s : State) (u : Issuer), s.issuer? = some u ∧ let w6 := BitVec.ofNat 64 (s.ctxWord u.g.cid 6); let w7 := BitVec.ofNat 64 (s.ctxWord u.g.cid 7)
      w6.msb = true ∧ (w7.extractLsb' 32 32).toNat = twr ∧ 2 ^ (w6.extractLsb' 48 5).toNat = 2 ∧ u.g.core < 512 ∧ u.g.grp < 96 ∧
      w7.setWidth 32 ≠ BitVec.allOnes 32 ∧ (w6.extractLsb' 0 48).toNat + 32 * twr + 32 ≤ 0x800001000000 + 128 * u.g.cid + 60) :=
  ⟨⟨base, by_ fetchGroup, rfl, rfl, by decide +kernel, by decide +kernel⟩, ⟨on (withA parkedA), by_ (withA parkedA), rfl, by decide +kernel⟩,
   fun twr h => ⟨traced twr, by_ fetchGroup, rfl, by rcases h with rfl | rfl <;> decide +kernel⟩⟩

theorem witness_TrapsAndReturns :
    (∃ (s : State) (u : Issuer), s.issuer? = some u ∧ partOf s u (common 0 1 0) = 0 ∧ partOf s u (common 0 7 0) ≠ 0 ∧ mayTrap s u ∧ u.slot.trap = none) ∧
    (∃ (s : State) (u : Issuer) (m : TrapMode), s.issuer? = some u ∧ u.slot.trap = some m ∧ (u.g.peek (.s 192)).setWidth 40 = m.pc) ∧
    (∃ (s : State) (u : Issuer) (m : TrapMode), s.issuer? = some u ∧ u.slot.trap = some m ∧ (u.g.peek (.s 192)).setWidth 40 = m.pc + 1) :=
  ⟨⟨on fetchGroup, by_ fetchGroup, rfl, by decide +kernel, by decide +kernel, ⟨rfl, by decide +kernel⟩, rfl⟩,
   ⟨on (withA trapped), by_ (withA trapped), _, rfl, rfl, by decide +kernel⟩,
   ⟨on ((withA trapped).poke (.s 192) 1), by_ ((withA trapped).poke (.s 192) 1), _, rfl, rfl, by decide +kernel⟩⟩

theorem witness_GroupEnds :
    (∃ (s : State) (u : Issuer), s.issuer? = some u ∧ partOf s u (common 0 1 0) = 0xFFFF ∧ quiet (u.g.setSlot u.name { u.slot.advance with mask := u.slot.mask &&& ~~~0xFFFF#32 })) ∧
    (∃ (s : State) (u : Issuer), s.issuer? = some u ∧ u.slot.mask &&& ~~~partOf s u (common 0 7 0) = 0 ∧ u.slot.st = .run ∧ u.slot.moving = false ∧ u.slot.spill = [] ∧
      u.slot.pj = none ∧ (u.g.slot u.name.other).st = .free) ∧
    (∃ (s : State) (u : Issuer), s.issuer? = some u ∧ partOf s u (common 0 7 0) ≠ 0 ∧ u.slot.trap ≠ none) ∧
    (∃ (s : State) (u : Issuer), s.issuer? = some u ∧ partOf s u (common 0 7 0) ≠ 0 ∧ (s.launch u.g).trapPc = 0xFFFFFFFFFF) :=
  ⟨⟨on halfGroup, by_ halfGroup, rfl, by decide +kernel, by unfold quiet; decide +kernel⟩, ⟨on fetchGroup, by_ fetchGroup, rfl, by decide +kernel, rfl, rfl, rfl, rfl, rfl⟩,
   ⟨on (withA trapped), by_ (withA trapped), rfl, by decide +kernel, by decide +kernel⟩, ⟨{ on fetchGroup with grids := [] }, by_ fetchGroup, rfl, by decide +kernel, rfl⟩⟩

/-! ### Floating point -/

theorem witness_FloatValues :
    (∀ t ∈ formats, 0 < 2 ^ ((fmtOf t).expo + (fmtOf t).mant) ∧ (fmtOf t).maxCode < 2 ^ ((fmtOf t).expo + (fmtOf t).mant)) ∧
    ((fmtOf 9).maxCode < 0x7F800000 ∧ 0x7F800000 < 2 ^ ((fmtOf 9).expo + (fmtOf 9).mant)) ∧
    ((8 < 16 ∧ 255 < 256) ∧ ratOf ((fmtOf 13).widen 0x38) = some 1) ∧
    ratOf (Val.fin false 3 1 0) = some 3 ∧ ratOf (Val.fin true 3 1 0) = some (-3) ∧ ratOf (Val.fin false 1 2 0) = some (1 / 2) ∧ (1 / 2 : Rat) ≠ 0 ∧
    ratOf (Val.fin true 0 1 0) = some 0 ∧ (∃ y : Rat, 0 < y ∧ y * y = 9 ∧ ratOf (Val.fin false 9 1 0) = some 9) :=
  ⟨by decide, by decide, by decide +kernel, by decide +kernel, by decide +kernel, by decide +kernel, by decide +kernel, by decide +kernel,
   3, by decide +kernel, by decide +kernel, by decide +kernel⟩

/-- The greatest value of f16, and the first past it by a whole last place. -/
theorem witness_FloatRounding :
    (11 ∈ formats ∧ 5 < 6 ∧ 0 < 65504 ∧ (65504 : Rat) / 1 * 2 ^ (0 : Int) = codeVal (fmtOf 11) (fmtOf 11).maxCode) ∧
    codeVal (fmtOf 11) (fmtOf 11).maxCode + (codeVal (fmtOf 11) (fmtOf 11).maxCode - codeVal (fmtOf 11) ((fmtOf 11).maxCode - 1)) = 65536 :=
  ⟨by decide +kernel, by decide +kernel⟩

theorem witness_FloatArithmetic : ∃ (s : State) (u : Issuer) (f : VR), s.issuer? = some u ∧ [9, 10, 11, 12].contains f.t.toNat ∧ (Instr.fsqrt f).wf = true :=
  ⟨on fetchGroup, by_ fetchGroup, fVR 0 7 0 2 4 0 0 0 12 0 0 7, rfl, by decide⟩

theorem witness_FloatChoices : ∃ (s : State) (u : Issuer) (f : VR) (g : VI), s.issuer? = some u ∧ arithFloats.contains f.t.toNat ∧ (Instr.frnd f).wf = true ∧
    arithFloats.contains g.t.toNat ∧ (Instr.fmaxImm g).wf = true ∧ (Instr.fcmp (fVR 0 7 0 0 4 6 0 0 12 6 0 3)).wf = true :=
  ⟨on fetchGroup, by_ fetchGroup, fVR 0 7 0 2 4 0 0 0 17 4 0 7, fVI 0 7 0 2 4 10 0 0 1, rfl, by decide⟩

theorem witness_Approximations : (∃ (s : State) (u : Issuer), s.issuer? = some u) ∧ (∀ t ∈ [9, 10, 11, 12], [9, 10, 11, 12].contains t) ∧
    (0x3F800000 < 2 ^ (fmtOf 9).width ∧ ratOf ((fmtOf 9).widen 0x3F800000) = some 1 ∧ (1 : Rat) ≠ 0 ∧ magOf (1 : Rat)⁻¹ ≤ codeVal (fmtOf 9) (fmtOf 9).maxCode) ∧
    (magOf (1 : Rat) = (2 : Rat) ^ (0 : Int) ∧ (1 : Rat) * 1 = 1 ∧ (1 : Rat) = (2 : Rat) ^ (0 : Int) ∧ (0 : Rat) < 1 ∧ (1 : Rat) * 1 * 1 = 1) ∧
    (ratOf ((fmtOf 9).widen 0x40000000) = some ((2 : Int) : Rat) ∧ ratOf ((fmtOf 9).widen 0x40800000) = some ((2 : Rat) ^ (2 : Int))) ∧
    (ratOf ((fmtOf 9).widen 0x39800000) = some ((2 : Rat) ^ (-12 : Int)) ∧ magOf ((2 : Rat) ^ (-12 : Int)) ≤ (2 : Rat) ^ (-12 : Int)) ∧
    (nanAt 9 0x7F800001 ∧ signals 9 0x7F800001 0 ∧ nanAt 9 0x7FC00000 ∧ ¬ signals 9 0x7FC00000 0) ∧
    (∃ v, ratOf ((fmtOf 9).widen 0xBF800000) = some v ∧ v < 0) ∧
    (∃ v, ratOf ((fmtOf 9).widen 1) = some v ∧ v ≠ 0 ∧ codeVal (fmtOf 9) (fmtOf 9).maxCode + (2 : Rat) ^ (((fmtOf 9).bias : Int) - (fmtOf 9).mant - 1) ≤ magOf v⁻¹) ∧
    (∃ v, ratOf ((fmtOf 9).widen 0x43000000) = some v ∧ (((fmtOf 9).bias + 1 : Nat) : Rat) ≤ v) :=
  ⟨⟨on fetchGroup, by_ fetchGroup, rfl⟩, by decide, by decide +kernel, by decide +kernel, by decide +kernel, by decide +kernel, by decide +kernel,
   ⟨_, rfl, by decide +kernel⟩, ⟨_, rfl, by decide +kernel⟩, ⟨_, rfl, by decide +kernel⟩⟩

theorem witness_Conversions : ∃ (s : State) (u : Issuer), s.issuer? = some u ∧
    (let f := fVR 0 7 0 4 2 0 0 13 14 4 0 7; (isInt f.t.toNat ∨ cvtFloats.contains f.t.toNat) ∧ (isInt f.u.toNat ∨ cvtFloats.contains f.u.toNat) ∧ (Instr.cvt f).wf = true) ∧
    (let f := fVR 0 7 0 4 2 6 0 9 17 0 0 7; [(16, 9), (17, 9)].contains (f.t.toNat, f.u.toNat) ∧ (Instr.cvtp f).wf = true) ∧
    (let f := fVR 0 7 0 4 2 6 0 9 13 0 0 7; f.t.toNat = 13 ∧ f.u.toNat = 9 ∧ (Instr.cvtp f).wf = true) ∧
    (let f := fVR 0 7 0 4 2 0 0 15 12 0 0 7; [9, 11, 12].contains f.t.toNat ∧ (Instr.cvtx f).wf = true) :=
  ⟨on fetchGroup, by_ fetchGroup, rfl, by decide⟩

/-- A block with an infinity in its last place; a block of ones. -/
theorem witness_BlockQuantise : (∃ (s : State) (u : Issuer), s.issuer? = some u) ∧
    (let xs : List (Nat × Nat) := List.replicate 31 (0, 0) ++ [(0x7F800000, 0)]; xs.length = 32 ∧ ∃ x ∈ xs, ratOf ((fmtOf 9).widen x.1) = none) ∧
    (let xs : List (Nat × Nat) := List.replicate 32 (0x3F800000, 0); xs.length = 32 ∧ xs.map (fun x => ratOf ((fmtOf 9).widen x.1)) = (List.replicate 32 (1 : Rat)).map some) :=
  ⟨⟨on fetchGroup, by_ fetchGroup, rfl⟩, by decide +kernel, by decide +kernel⟩

/-! ### Memory -/

/-- An access form: V2 ← [K192 at V4 + disp], of a size and an order. -/
def mf (sz ord disp : Nat) : MF := fMF 0 7 0 2 4 6 192 sz ord 0 1 0 0 0 disp

/-- Lane 31 alone is misaligned at a size of eight bytes; lane 0 holds 8. -/
def oddGroup : Group := ((fetchGroup.poke (.v 4 31) 4).poke (.v 4 0) 8)

/-- A store under way, which holds a fence. -/
def storing : Group := { fetchGroup with accs := [{ id := 1, slot := .a, pc := 0, turn := 0, path := .st, log := some 0, ord := 0, scp := 0, lanes := 1, loads := false, stores := true, dest := [], done := false, fail := none }] }
def laterOn : State := { on storing with turn := 1 }

/-- A release form that waits. -/
def heldUp (s : State) (u : Issuer) (f : MF) (path : Path) : Prop :=
  releasing f ∧ oldestFailed (u.g.fenced false true s.turn) = none ∧ ¬ ReleaseFree s u f path ∧ u.slot.wait = none

theorem held_up (path : Path) : heldUp laterOn (by_ storing) (mf 2 3 0) path :=
  ⟨.inl rfl, by decide +kernel, fun h => absurd h.2.1 (by decide +kernel), rfl⟩

theorem witness_LoadsAndStores :
    (∃ (s : State) (u : Issuer) (f : MF), s.issuer? = some u ∧ mayTrap s u ∧ firstOff f (partOf s u f.toCommon) (fun l => (globalAt s u f l : Int)) 31 ∧
      firstOff f (partOf s u f.toCommon) (padAt s u f) 31) ∧
    (∃ (s : State) (u : Issuer) (f : MF), s.issuer? = some u ∧ aligned f (partOf s u f.toCommon) (fun l => (globalAt s u f l : Int)) ∧
      aligned f (partOf s u f.toCommon) (padAt s u f) ∧ releasing f ∧ ReleaseFree s u f .st ∧ ReleaseFree s u f .sp ∧ partOf s u f.toCommon ≠ 0) ∧
    (∃ (s : State) (u : Issuer) (f : MF), s.issuer? = some u ∧ partOf s u f.toCommon = 0) ∧
    (∃ (s : State) (u : Issuer) (f : MF), s.issuer? = some u ∧ u.g.uniformGuard s.turn f.toCommon ∧ uniformAt s u f % 2 ^ f.sz.toNat ≠ 0 ∧ mayTrap s u) ∧
    (∃ (s : State) (u : Issuer) (f : MF), s.issuer? = some u ∧ u.g.uniformGuard s.turn f.toCommon ∧ uniformAt s u f % 2 ^ f.sz.toNat = 0 ∧ releasing f ∧ ReleaseFree s u f .st) ∧
    (∃ (s : State) (u : Issuer) (f : MF), s.issuer? = some u ∧ aligned f (partOf s u f.toCommon) (fun l => (globalAt s u f l : Int)) ∧
      aligned f (partOf s u f.toCommon) (padAt s u f) ∧ u.g.uniformGuard s.turn f.toCommon ∧ uniformAt s u f % 2 ^ f.sz.toNat = 0 ∧ partOf s u f.toCommon ≠ 0 ∧
      ∀ path, heldUp s u f path) :=
  ⟨⟨on oddGroup, by_ oddGroup, mf 3 0 0, rfl, ⟨rfl, by decide +kernel⟩, by unfold firstOff; decide +kernel, by unfold firstOff; decide +kernel⟩,
   ⟨on fetchGroup, by_ fetchGroup, mf 4 3 16, rfl, by unfold aligned; decide +kernel, by unfold aligned; decide +kernel, .inl rfl, by unfold ReleaseFree; decide +kernel,
     by unfold ReleaseFree; decide +kernel, by decide +kernel⟩,
   ⟨on fetchGroup, by_ fetchGroup, fMF 0 0 0 2 4 6 192 2 0 0 1 0 0 0 0, rfl, by decide +kernel⟩,
   ⟨on fetchGroup, by_ fetchGroup, mf 2 0 0xFFFFF, rfl, by decide +kernel, by decide +kernel, ⟨rfl, by decide +kernel⟩⟩,
   ⟨on fetchGroup, by_ fetchGroup, mf 2 5 0, rfl, by decide +kernel, by decide +kernel, .inr (.inr rfl), by unfold ReleaseFree; decide +kernel⟩,
   ⟨laterOn, by_ storing, mf 2 3 0, rfl, by unfold aligned; decide +kernel, by unfold aligned; decide +kernel, by decide +kernel, by decide +kernel, by decide +kernel,
     fun path => held_up path⟩⟩

theorem witness_AtomicAccesses :
    (∀ e ∈ atomOps, e.1 ∈ atomOps.map (·.1)) ∧
    (∃ (s : State) (u : Issuer) (f : MF), s.issuer? = some u ∧ mayTrap s u ∧ firstOff f (partOf s u f.toCommon) (fun l => (globalAt s u f l : Int)) 31 ∧
      firstOff f (partOf s u f.toCommon) (padAt s u f) 31) ∧
    (∃ (s : State) (u : Issuer) (f : MF), s.issuer? = some u ∧ f.sz.toNat = 3 ∧ aligned f (partOf s u f.toCommon) (fun l => (globalAt s u f l : Int)) ∧
      aligned f (partOf s u f.toCommon) (padAt s u f) ∧ releasing f ∧ ReleaseFree s u f .atom) ∧
    (∃ (s : State) (u : Issuer) (f : MF), s.issuer? = some u ∧ aligned f (partOf s u f.toCommon) (fun l => (globalAt s u f l : Int)) ∧
      aligned f (partOf s u f.toCommon) (padAt s u f) ∧ partOf s u f.toCommon ≠ 0 ∧ heldUp s u f .atom) :=
  ⟨fun e h => List.mem_map_of_mem h,
   ⟨on oddGroup, by_ oddGroup, mf 3 0 0, rfl, ⟨rfl, by decide +kernel⟩, by unfold firstOff; decide +kernel, by unfold firstOff; decide +kernel⟩,
   ⟨on fetchGroup, by_ fetchGroup, mf 3 4 8, rfl, rfl, by unfold aligned; decide +kernel, by unfold aligned; decide +kernel, .inr (.inl rfl), by unfold ReleaseFree; decide +kernel⟩,
   ⟨laterOn, by_ storing, mf 2 3 0, rfl, by unfold aligned; decide +kernel, by unfold aligned; decide +kernel, by decide +kernel, held_up .atom⟩⟩

theorem witness_AtomicValues : (32 = 32 ∨ 32 = 64) ∧ (64 = 32 ∨ 64 = 64) ∧ ∀ tag ∈ [1, 13], 1 ≤ tag ∧ tag ≤ 13 ∧ 0 < 2 ^ updWidth tag ∧ tag ∉ [3, 4, 9, 10] := by decide

/-- A far module's extent under the K value of labels 1, 2, 3, 4: each tier pops, the last lands in module 7's memory. -/
def farK : DWord := kOf [1, 2, 3, 4]
def pool7 : Remote :=
  { id := 7, pool := true, incarnation := 0, dead := false, flash := [], hints := [], staging := [], regions := [], revokes := [], revoked := [], accessed := [] }
def far : State :=
  let s := (base.storeN (ctxBase 0 + 16) 8 (5 * 2 ^ 48 + fetchBase)).setField (dieBlock 0 + 0x50) 12 36 ((fetchBase + 0x10000) / 4096)
  let s := ((s.setField (dieBlock 0 + 0x10050) 12 36 ((fetchBase + 0x20000) / 4096)).setField (spctl 0) 0 1 1).setField (spanLink 0) 63 1 1
  let s := s.putEntry .core 0 1 { w0 := 0xFA, w1 := 0, w2 := 1, w3 := 0 }
  let s := s.putEntry .die 0 2 { w0 := 0xFA, w1 := 0, w2 := 1, w3 := 0 }
  let s := s.putEntry .port 0 3 { w0 := 0xFA + 7 * 2 ^ 27, w1 := 0, w2 := 1, w3 := 0 }
  let s := s.putEntry .remote 7 4 { w0 := 0x2FB, w1 := 0, w2 := 1, w3 := 0x1000 }
  let s := ((s.storeN (remoteBase 7 + 0x1000) 8 0x20001).storeN (remoteBase 7 + 0x2000) 8 0x30001).storeN (remoteBase 7 + 0x3000) 8 0x40001
  let s := s.storeN (remoteBase 7 + 0x4000) 8 (5 * 2 ^ 16 + 0x6FB)
  { s with remotes := [pool7] }
/-- One lane, holding K192 and a length of two pages in V6. -/
def hinter : Group := let g := (fetchGroup.poke (.k 0) farK).poke (.v 6 0) 2
  { g with a := { runA with mask := 1 } }

def farG : State := { far with groups := [hinter] }
def farLanding : Landing := { addr := remoteBase 7 + 0x5000, mode := .urm, rights := 7, device := false, leaf := remoteBase 7 + 0x4000, room := 4096 }

theorem far_lands : farG.resolve 0 0 0 farK 0 0 = ((farG.resolve 0 0 0 farK 0 0).1, .lands farLanding) := Prod.ext rfl (by decide +kernel)
theorem far_asked : (farG.turn, (by_ hinter).g.rdK farG.turn 3 ((mf 2 0 0).u.toNat - 192), globalAt farG (by_ hinter) (mf 2 0 0) 0) = (0, farK, 0) := by decide +kernel
theorem far_pool : ((farG.resolve 0 0 0 farK 0 0).1.remotes.find? (fun r => r.id == 7 && r.pool)).isSome := by decide +kernel

theorem witness_FencesAndCacheControl :
    (∃ (s : State) (u : Issuer), s.issuer? = some u ∧ oldestFailed (u.g.fenced true true s.turn) = none ∧ s.fenceHolds u.g true true 2 s.turn = true) ∧
    (∃ (s : State) (u : Issuer), s.issuer? = some u ∧ oldestFailed (u.g.fenced true true s.turn) = none ∧ s.fenceHolds u.g true true 2 s.turn = false ∧ u.slot.wait = none) ∧
    (∃ (s : State) (u : Issuer), s.issuer? = some u ∧ s.l1.Pairwise (fun x y => ¬ x.same y)) ∧
    (∃ (s : State) (u : Issuer) (f : MF) (s' : State) (a : Landing), s.issuer? = some u ∧ partOf s u f.toCommon = BitVec.twoPow 32 0 ∧
      s.resolve u.g.cid u.g.core (u.g.core / 128) (u.g.rdK s.turn 3 (f.u.toNat - 192)) (globalAt s u f 0) 0 = (s', .lands a) ∧ remoteOf a.addr = some 7 ∧ f.ch ≠ 0 ∧
      (u.g.rdV s.turn 2 f.c.toNat 0).toNat ≠ 0 ∧ 0 < a.room ∧ (s'.remotes.find? (fun r => r.id == 7 && r.pool)).isSome) :=
  ⟨⟨on fetchGroup, by_ fetchGroup, rfl, by decide +kernel, by decide +kernel⟩, ⟨{ on storing with turn := 1 }, by_ storing, rfl, by decide +kernel, by decide +kernel, rfl⟩,
   ⟨on fetchGroup, by_ fetchGroup, rfl, .nil⟩,
   ⟨farG, by_ hinter, mf 2 0 0, (farG.resolve 0 0 0 farK 0 0).1, farLanding, rfl, by decide +kernel,
    by rw [show (by_ hinter).g.rdK farG.turn 3 ((mf 2 0 0).u.toNat - 192) = farK from congrArg (·.2.1) far_asked,
         show globalAt farG (by_ hinter) (mf 2 0 0) 0 = 0 from congrArg (·.2.2) far_asked]; exact far_lands,
    by decide +kernel, by decide +kernel, by decide +kernel, by decide +kernel, far_pool⟩⟩

/-! ### The matrix array -/

/-- An MX form: bank 0, A = V4, U = S2. -/
def mx (t ks pair ru : Nat) : MX := fMX 0 7 0 0 4 2 t ks pair ru 0

/-- A state whose core 0 has this array and an allotment of 128 KiB for the group's block. -/
def withArray (m : Matrix) (g : Group) : State := { on g with cores := [(0, { Core.reset with matrix := m, room := [(1, 0, 131072)] })] }

/-- An array that the group owns, with a roster of one more position, group 1's. -/
def owned : Matrix := { Matrix.empty with owner := some 1, roster := 2 ^ 49 + 1 }
def ownedPair : Matrix := { owned with pair := true }

theorem witness_MatrixOwnership :
    (∃ (s : State) (u : Issuer), s.issuer? = some u ∧ u.slot.wait = none ∧ s.owns u.g u.g.core ∧ mayTrap s u) ∧
    (∃ (s : State) (u : Issuer) (f : MX), s.issuer? = some u ∧ u.slot.wait = none ∧ ¬ rosterOk u.g (u.g.rdS u.slot s.turn 1 f.u.toNat) f.pair ∧ mayTrap s u) ∧
    (∃ (s : State) (u : Issuer) (f : MX), s.issuer? = some u ∧ u.slot.wait = none ∧ f.pair = true ∧ rosterOk u.g (u.g.rdS u.slot s.turn 1 f.u.toNat) true ∧
      (s.matrix u.g.core).owner = none ∧ (s.matrix u.g.core).fifo = [] ∧ (s.matrix u.g.core).reserved = none ∧ (s.matrix (rowsAt u.g.core 4)).owner = none ∧
      (s.matrix (rowsAt u.g.core 4)).fifo = [] ∧ ∀ b ∈ s.blocks, ∀ e ∈ b.owed, e.1 / 2 ≠ u.g.core / 2) ∧
    (∃ (s : State) (u : Issuer) (f : MX), s.issuer? = some u ∧ u.slot.wait = none ∧ rosterOk u.g (u.g.rdS u.slot s.turn 1 f.u.toNat) f.pair ∧
      ∃ gid, (s.matrix u.g.core).owner = some gid ∧ gid ≠ u.g.id) ∧
    (∃ (s : State) (u : Issuer), s.issuer? = some u ∧ s.owns u.g u.g.core ∧ (s.matrix u.g.core).ops = [] ∧ (s.matrix u.g.core).fifo = [] ∧
      (s.matrix (rowsAt u.g.core 4)).fifo = [] ∧ ∀ b ∈ s.blocks, ∀ e ∈ b.owed, e.1 / 2 ≠ u.g.core / 2) ∧
    (∃ (s : State) (u : Issuer) (f : MX), s.issuer? = some u ∧ u.slot.wait = none ∧ s.owns u.g u.g.core = false ∧ s.ownsPair u.g = false ∧ f.pair = true ∧ mayTrap s u ∧
      partOf s u f.toCommon ≠ 0) ∧
    (∃ (s : State) (u : Issuer) (f : MX), s.issuer? = some u ∧ partOf s u f.toCommon = 0) :=
  ⟨⟨withArray owned fetchGroup, by_ fetchGroup, rfl, rfl, by decide +kernel, rfl, by decide +kernel⟩,
   ⟨on (withS 2 (2 ^ 49)), by_ (withS 2 (2 ^ 49)), mx 0 1 0 0, rfl, rfl, by decide +kernel, rfl, by decide +kernel⟩,
   ⟨on (withS 2 (2 ^ 55 + 95 * 2 ^ 42)), by_ (withS 2 (2 ^ 55 + 95 * 2 ^ 42)), mx 0 1 1 0, rfl, rfl, rfl, by decide +kernel, by decide +kernel, by decide +kernel, by decide +kernel,
     by decide +kernel, by decide +kernel, by decide +kernel⟩,
   ⟨withArray { owned with owner := some 2 } fetchGroup, by_ fetchGroup, mx 0 1 0 0, rfl, rfl, by decide +kernel, 2, by decide +kernel, by decide⟩,
   ⟨withArray owned fetchGroup, by_ fetchGroup, rfl, by decide +kernel, by decide +kernel, by decide +kernel, by decide +kernel, by decide +kernel⟩,
   ⟨on fetchGroup, by_ fetchGroup, mx 0 1 1 0, rfl, rfl, by decide +kernel, by decide +kernel, rfl, ⟨rfl, by decide +kernel⟩, by decide +kernel⟩,
   ⟨on fetchGroup, by_ fetchGroup, fMX 0 0 0 0 4 2 0 1 0 0 0, rfl, by decide +kernel⟩⟩

/-- A group with an undelivered matrix error; a self-test parked until a clock the die has reached. -/
def erring : Group := { fetchGroup with mxErrors := [({ lanes := 1, tier := 1, label := 0, reason := 3, tag := 0, lost := false }, 0)] }

theorem witness_MatrixFeedsAndWaits :
    (mxFormats (mx 9 1 0 0) 0).1 ∉ [7, 8, 11, 12, 13, 14, 15] ∧ (∀ t ∈ [7, 8, 11, 12, 13, 14, 15], (mxFormats (mx t 1 0 0) 0).1 ∈ [7, 8, 11, 12, 13, 14, 15]) ∧
    (∃ (s : State) (u : Issuer), s.issuer? = some u ∧ u.slot.wait = none ∧ mayTrap s u ∧ (∀ x ∈ (s.matrix u.g.core).ready, x.gid ≠ u.g.id) ∧ u.g.mxErrors = [] ∧
      u.g.counter .mx = 0 ∧ s.owns u.g u.g.core ∧ s.ownsPair u.g) ∧
    (∃ (s : State) (u : Issuer), s.issuer? = some u ∧ u.g.mxErrors ≠ [] ∧ mayTrap s u) ∧
    (∃ (s : State) (u : Issuer) (w : Wait), s.issuer? = some u ∧ u.slot.wait = some w ∧ w.cond = .clockTest 0 ∧ 0 ≤ (s.die (u.g.core / 128)).clock.toNat) :=
  ⟨by decide, by decide, ⟨withArray ownedPair fetchGroup, by_ fetchGroup, rfl, rfl, ⟨rfl, by decide +kernel⟩, by decide +kernel, rfl, by decide +kernel, by decide +kernel, by decide +kernel⟩,
   ⟨on erring, by_ erring, rfl, by decide, rfl, by decide +kernel⟩,
   let w : Wait := { instr := .mxtest (mx 0 1 0 0), ops := [], cond := .clockTest 0, done := false, turn := 0, fc := 0 }
   ⟨on (withA { runA with wait := some w }), by_ (withA { runA with wait := some w }), w, rfl, rfl, rfl, Nat.zero_le _⟩⟩

/-- The group at position 1, with a pending slice. -/
def feeder : Group := { fetchGroup with id := 2, grp := 1 }
def feeding : State := let m := { owned with ready := [{ gid := 2, reg := 8, fmt := 11, ks := 1, words := [], turn := 0, op := 0 }] }
  { withArray m fetchGroup with groups := [fetchGroup, feeder] }

theorem witness_MatrixOperations :
    (∃ (s : State) (u : Issuer) (f : MX), s.issuer? = some u ∧ s.owns u.g u.g.core ∧ ¬ tileOk s u f ∧ mayTrap s u ∧ partOf s u f.toCommon ≠ 0) ∧
    (∃ (s : State) (u : Issuer) (f : MX), s.issuer? = some u ∧ s.owns u.g u.g.core ∧ s.ownsPair u.g ∧ tileOk s u f ∧ u.g.rdS u.slot s.turn 2 f.u.toNat = 31 ∧
      partOf s u f.toCommon ≠ 0) ∧
    (∃ (s : State) (u : Issuer) (f : MX), s.issuer? = some u ∧ s.owns u.g u.g.core ∧ partOf s u f.toCommon = 0) ∧
    (let w := (fun (x : DWord) => (withS 2 x).rdS (withS 2 x).a 0 2 2);
      w 0x3FFF80 >>> 22 = 0 ∧ (w 0x3FFF80).toNat % 128 = 0 ∧ w 0x400000 >>> 22 ≠ 0 ∧ (w 0x3FFFFF).toNat % 128 ≠ 0 ∧ w 0xFFFF80 >>> 24 = 0 ∧ w 0x1000000 >>> 24 ≠ 0) ∧
    (∃ f : MX, ¬ formatsOk false (mxFormats f 0).1 (mxFormats f 0).2.1 (mxFormats f 0).2.2) ∧
    (∃ (s : State) (u : Issuer) (f : MX), s.issuer? = some u ∧ s.owns u.g u.g.core ∧ f.pair = false ∧ partOf s u f.toCommon ≠ 0 ∧
      u.g.rdS u.slot s.turn 2 f.u.toNat >>> 24 = 0 ∧ formatsOk false (mxFormats f u.slot.fmt).1 (mxFormats f u.slot.fmt).2.1 (mxFormats f u.slot.fmt).2.2 ∧
      (u.g.rdS u.slot s.turn 2 f.u.toNat).setWidth 7 = 0 ∧ (s.matrix u.g.core).latch = none ∧ s.presentAt u.g 1 = some feeder ∧ feeder.wrote = [] ∧
      (s.pendingSlice feeder).map (fun a => (a.fmt, a.ks)) = some (11, 1) ∧ s.presentAt u.g 2 = none ∧ s.presentAt u.g 3 = none) ∧
    (∃ (s : State) (u : Issuer) (f : MX), s.issuer? = some u ∧ s.owns u.g u.g.core ∧ f.pair = false ∧ partOf s u f.toCommon ≠ 0 ∧
      u.g.rdS u.slot s.turn 2 f.u.toNat >>> 24 = 0 ∧ formatsOk true (mxFormats f u.slot.fmt).1 (mxFormats f u.slot.fmt).2.1 (mxFormats f u.slot.fmt).2.2 ∧
      (u.g.rdS u.slot s.turn 2 f.u.toNat).setWidth 7 = 0 ∧ ∃ l, (s.matrix u.g.core).latch = some l ∧ l ≠ [] ∧
        ∀ e ∈ l, e.1 = 0 ∧ e.2.fmt = (mxFormats f u.slot.fmt).1 ∧ e.2.ks = f.ks.toNat) :=
  ⟨⟨withArray owned (withS 2 4), by_ (withS 2 4), mx 0 1 0 0, rfl, by decide +kernel, by unfold tileOk; decide +kernel, ⟨rfl, by decide +kernel⟩, by decide +kernel⟩,
   ⟨withArray ownedPair (withS 2 31), by_ (withS 2 31), mx 0 1 0 0, rfl, by decide +kernel, by decide +kernel, by unfold tileOk; decide +kernel, by decide +kernel, by decide +kernel⟩,
   ⟨withArray owned fetchGroup, by_ fetchGroup, fMX 0 0 0 0 4 2 0 1 0 0 0, rfl, by decide +kernel, by decide +kernel⟩,
   by decide +kernel, ⟨mx 15 1 0 0, by decide⟩,
   ⟨feeding, by_ fetchGroup, mx 11 1 0 0, rfl, by decide +kernel, rfl, by decide +kernel, by decide +kernel, by decide +kernel, by decide +kernel, by decide +kernel, by decide +kernel, rfl,
     by decide +kernel, by decide +kernel, by decide +kernel⟩,
   let l := [(0, { gid := 1, reg := 4, fmt := 15, ks := 4, words := [], turn := 0, op := 0 })]
   ⟨withArray { owned with latch := some l } fetchGroup, by_ fetchGroup, mx 15 4 0 1, rfl, by decide +kernel, rfl, by decide +kernel, by decide +kernel, by decide +kernel, by decide +kernel,
     l, by decide +kernel, by decide, by decide⟩⟩

/-- Its oldest operation about to retire. -/
def retiring (o : MxOp) : State := { withArray { owned with ops := [o] } fetchGroup with args := [0] }

theorem runs_of {s t : State} (hd : s.dies = t.dies) (hm : s.mmio = t.mmio) (hb : s.boot = t.boot) (c : Nat) : s.coreRuns c = t.coreRuns c := by
  simp only [State.coreRuns, State.clusterGated, State.die, State.field, State.reg, hd, hm, hb]
theorem base_runs : base.coreRuns 0 = true := by decide +kernel
theorem retiring_runs (o : MxOp) : (retiring o).coreRuns 0 = true := (runs_of (by simp only [retiring, withArray, on]) (by simp only [retiring, withArray, on]) (by simp only [retiring, withArray, on]) 0).trans base_runs
theorem retiring_may (o : MxOp) : mayRetire (retiring o) 0 fetchGroup o [] :=
  ⟨rfl, rfl, rfl, rfl, rfl, retiring_runs o, by decide +kernel, rfl, rfl, fun c => by
    by_cases h : c = 0
    · subst h; rfl
    · simp [State.matrix, State.core, retiring, withArray, Ne.symm h, Core.reset, Matrix.empty]⟩

/-- One operation of each kind; a store that ends where the allotment does. -/
theorem witness_MatrixRetirement :
    (∀ o ∈ [MxOp.read 1 0 4 7 3 0xFFFFFFFF, .write 1 1 4 0 0 1 [List.replicate 32 9], .zero 1 0 true, .store 1 0 0 65536 false,
      .product 1 1 11 11 9 1 false true false 0 [(0, { gid := 1, reg := 4, fmt := 11, ks := 1, words := List.replicate 32 [], turn := 0, op := 0 })] []],
      mayRetire (retiring o) 0 fetchGroup o []) ∧
    [List.replicate 32 (9 : Word)].length = (lanesOf 1).length ∧ 65536 + 65536 ≤ ((retiring (.zero 1 0 true)).allot 0 fetchGroup.block).2 :=
  ⟨fun o _ => retiring_may o, by decide, by decide +kernel⟩

/-- 256 times 2 in exact values: both have a rational. -/
theorem witness_MatrixElement : ∃ ps : List (Val × Val), ps ≠ [] ∧ ∀ p ∈ ps, (ratOf p.1).isSome ∧ (ratOf p.2).isSome := ⟨[(.fin false 1 1 8, .fin true 1 1 1)], by decide, by decide⟩

/-! ### The copy engine and multicast groups -/

/-- An E form: destination S1, A = S`a`, B = S4, K192. -/
def ef (a ea imm : Nat) : EF := fEF 0 7 0 1 a 4 ea 192 0 imm

/-- A request of another block, unfinished. -/
def copying (i : Nat) : CopyReq :=
  { id := 100 + i, block := 1, number := 10 + i, slices := [], started := true, progress := 0, suspended := none, stopped := none, finished := false, told := [], raced := [], seq := 0 }

/-- A group with a finished batch of one request that stopped at its slice 2³² − 1. -/
def failing : Failure := { lanes := 1, tier := 1, label := 0, reason := 3, tag := 0, lost := false }
def stoppedReq : CopyReq := { copying 0 with stopped := some (2 ^ 32 - 1, failing), finished := true }
def batched : Group := { fetchGroup with sealed := [{ number := 0, scope := 2, requests := [100] }], nextBatch := 1 }

theorem witness_CopyRequests :
    (∃ (s : State) (u : Issuer) (f : EF), s.issuer? = some u ∧ u.slot.wait = none ∧ f.a.toNat = 191 ∧ mayTrap s u) ∧
    (∃ (s : State) (u : Issuer) (f : EF), s.issuer? = some u ∧ u.slot.wait = none ∧ f.a.toNat = 190 ∧ s.engineQueue (s.blockOctet u.g.block) < 256 ∧ AwaitsSlices s u) ∧
    (∃ (s : State) (u : Issuer) (f : EF), s.issuer? = some u ∧ u.slot.wait = none ∧ f.a.toNat = 185 ∧ s.engineQueue (s.blockOctet u.g.block) = 256 ∧ s.copyReq? u.g.block u.g.copies = none) ∧
    (∃ (s : State) (u : Issuer), s.issuer? = some u ∧ u.slot.wait = none ∧ (s.unfinished u.g).length ≤ 15) ∧
    (∃ (s : State) (u : Issuer) (f : EF), s.issuer? = some u ∧ u.slot.wait = none ∧ f.ea ≠ 1 ∧ f.imm.toNat = 0 ∧ s.stoppedCopies u.g 0 = [] ∧ (s.unfinished u.g).length ≤ 0) ∧
    (∃ (s : State) (u : Issuer) (f : EF), s.issuer? = some u ∧ u.slot.wait = none ∧ f.ea = 1 ∧ (sOf s u 1 f.a).toNat = 0 ∧ s.stoppedCopies u.g 0 = [stoppedReq] ∧
      stoppedReq.stopped = some (2 ^ 32 - 1, failing) ∧ mayTrap s u) :=
  ⟨⟨on fetchGroup, by_ fetchGroup, ef 191 0 0, rfl, rfl, rfl, rfl, by decide +kernel⟩,
   ⟨on fetchGroup, by_ fetchGroup, ef 190 0 0, rfl, rfl, rfl, by decide +kernel, fun r h => nomatch h⟩,
   ⟨{ on fetchGroup with copyReqs := (List.range 256).map copying }, by_ fetchGroup, ef 185 0 0, rfl, rfl, rfl, by decide +kernel, by decide +kernel⟩,
   ⟨on fetchGroup, by_ fetchGroup, rfl, rfl, by decide +kernel⟩, ⟨on fetchGroup, by_ fetchGroup, ef 0 0 0, rfl, rfl, by decide, rfl, by decide +kernel, by decide +kernel⟩,
   ⟨{ on batched with copyReqs := [stoppedReq] }, by_ batched, ef 2 1 0, rfl, rfl, rfl, by decide +kernel, by decide +kernel, rfl, rfl, by decide +kernel⟩⟩

/-- Multicast group 63 of die 0, the group its member 31, and another. -/
def member (i g : Nat) : Member := { index := i, gid := g, object := 0, dest := 0, suspended := false, leaving := false }
def mcast (ms : List Member) : MGroup := { die := 0, cid := 0, number := 63, timer := 4096, members := ms }
def mcState (ms : List Member) (a b d : DWord) : State :=
  let g := ((fetchGroup.poke (.s 2) a).poke (.s 4) b).poke (.s 1) d
  { withArray Matrix.empty g with mgroups := if ms.isEmpty then [] else [mcast ms] }
def mcBy (a b d : DWord) : Issuer := by_ (((fetchGroup.poke (.s 2) a).poke (.s 4) b).poke (.s 1) d)

/-- The deepest timer, index 31, group 63; the object that ends with the allotment, the last destination. -/
def joinA : DWord := 2 ^ 52 + 31 * 256 + 63
def joinB : DWord := (131072 - 16) * 2 ^ 24 + 0x3FFF80

theorem mc_issuer (ms : List Member) (a b d : DWord) : (mcState ms a b d).issuer? = some (mcBy a b d) := rfl

/-- What MCJOIN and MCLD ask of their operands. -/
def joinLegal (a b : DWord) : Prop :=
  a >>> 53 = 0 ∧ (a.extractLsb' 32 21).toNat ≤ 2 ^ 20 ∧ a.extractLsb' 13 19 = 0 ∧ a.extractLsb' 6 2 = 0 ∧ b >>> 46 = 0 ∧ b.extractLsb' 22 2 = 0
def joinPlaced (s : State) (u : Issuer) (b : DWord) : Prop :=
  (b.extractLsb' 24 22).toNat % 16 = 0 ∧ (b.setWidth 22).toNat % 128 = 0 ∧ (b.extractLsb' 24 22).toNat + 16 ≤ (s.allot u.g.core u.g.block).2
def loadLegal (off b d : DWord) (len : Nat) : Prop :=
  (off.setWidth 48).toNat % 128 = 0 ∧ len % 128 = 0 ∧ 128 ≤ len ∧ len ≤ 65536 ∧ b.extractLsb' 6 26 = 0 ∧ d >>> 22 = 0 ∧ d.toNat % 128 = 0

theorem witness_MulticastGroups :
    (∃ (s : State) (u : Issuer) (f : EF), s.issuer? = some u ∧ ¬ joinLegal (sOf s u 1 f.a) (sOf s u 2 f.b) ∧ mayTrap s u) ∧
    (∃ (s : State) (u : Issuer) (f : EF), s.issuer? = some u ∧ joinLegal (sOf s u 1 f.a) (sOf s u 2 f.b) ∧ ¬ joinPlaced s u (sOf s u 2 f.b) ∧ mayTrap s u) ∧
    (∃ (s : State) (u : Issuer) (f : EF), s.issuer? = some u ∧ joinLegal (sOf s u 1 f.a) (sOf s u 2 f.b) ∧ joinPlaced s u (sOf s u 2 f.b) ∧ s.mgroup? 0 u.g.cid 63 = none) ∧
    (∃ (s : State) (u : Issuer) (f : EF), s.issuer? = some u ∧ joinLegal (sOf s u 1 f.a) (sOf s u 2 f.b) ∧ joinPlaced s u (sOf s u 2 f.b) ∧
      s.mgroup? 0 u.g.cid 63 = some (mcast [member 31 2]) ∧ ((sOf s u 1 f.a).extractLsb' 8 5).toNat = 31 ∧ u.g.id ≠ 2) ∧
    (∃ (s : State) (u : Issuer) (f : EF), s.issuer? = some u ∧ joinLegal (sOf s u 1 f.a) (sOf s u 2 f.b) ∧ joinPlaced s u (sOf s u 2 f.b) ∧
      s.mgroup? 0 u.g.cid 63 = some (mcast [member 0 1]) ∧ u.g.id = 1) ∧
    (∃ (s : State) (u : Issuer) (f : EF), s.issuer? = some u ∧ u.slot.wait = none ∧ (sOf s u 1 f.a).toNat = 64 ∧ mayTrap s u) ∧
    (∃ (s : State) (u : Issuer) (f : EF), s.issuer? = some u ∧ u.slot.wait = none ∧ (sOf s u 1 f.a).toNat = 63 ∧ s.mgroup? 0 u.g.cid 63 = none) ∧
    (∃ (s : State) (u : Issuer) (f : EF), s.issuer? = some u ∧ u.slot.wait = none ∧ (sOf s u 1 f.a).toNat = 63 ∧ s.mgroup? 0 u.g.cid 63 = some (mcast [member 0 1]) ∧ s.helds = [] ∧ s.fills = []) ∧
    (∃ (s : State) (u : Issuer) (f : EF), s.issuer? = some u ∧ ¬ loadLegal (sOf s u 1 f.a) (sOf s u 2 f.b) (sOf s u 3 f.d) f.imm.toNat ∧ mayTrap s u) ∧
    (∃ (s : State) (u : Issuer) (f : EF), s.issuer? = some u ∧ f.imm.toNat = 65536 ∧ loadLegal (sOf s u 1 f.a) (sOf s u 2 f.b) (sOf s u 3 f.d) f.imm.toNat ∧
      s.mgroup? 0 u.g.cid ((sOf s u 2 f.b).setWidth 6).toNat = some (mcast [member 0 1])) :=
  ⟨⟨mcState [] (joinA + 2 ^ 32) joinB 0, mcBy (joinA + 2 ^ 32) joinB 0, ef 2 0 0, rfl, by unfold joinLegal; decide +kernel, rfl, by decide +kernel⟩,
   ⟨mcState [] joinA (joinB + 2 ^ 24) 0, mcBy joinA (joinB + 2 ^ 24) 0, ef 2 0 0, rfl, by unfold joinLegal; decide +kernel, by unfold joinPlaced; decide +kernel, rfl, by decide +kernel⟩,
   ⟨mcState [] joinA joinB 0, mcBy joinA joinB 0, ef 2 0 0, rfl, by unfold joinLegal; decide +kernel, by unfold joinPlaced; decide +kernel, by decide +kernel⟩,
   ⟨mcState [member 31 2] joinA joinB 0, mcBy joinA joinB 0, ef 2 0 0, rfl, by unfold joinLegal; decide +kernel, by unfold joinPlaced; decide +kernel, by decide +kernel, by decide +kernel,
     by decide⟩,
   ⟨mcState [member 0 1] joinA joinB 0, mcBy joinA joinB 0, ef 2 0 0, rfl, by unfold joinLegal; decide +kernel, by unfold joinPlaced; decide +kernel, by decide +kernel, rfl⟩,
   ⟨mcState [] 64 0 0, mcBy 64 0 0, ef 2 0 0, rfl, rfl, by decide +kernel, rfl, by decide +kernel⟩, ⟨mcState [] 63 0 0, mcBy 63 0 0, ef 2 0 0, rfl, rfl, by decide +kernel, by decide +kernel⟩,
   ⟨mcState [member 0 1] 63 0 0, mcBy 63 0 0, ef 2 0 0, rfl, rfl, by decide +kernel, by decide +kernel, rfl, rfl⟩,
   ⟨mcState [] 128 63 0, mcBy 128 63 0, ef 2 0 65664, rfl, by unfold loadLegal; decide +kernel, rfl, by decide +kernel⟩,
   ⟨mcState [member 0 1] 128 (2 ^ 32 + 63) 0x3FFF80, mcBy 128 (2 ^ 32 + 63) 0x3FFF80, ef 2 0 65536, rfl, rfl, by unfold loadLegal; decide +kernel, by decide +kernel⟩⟩

/-! ### Barriers, objects, queues and waits -/

/-- A barrier form at a level; a grid of three levels of which the third is no gang. -/
def bf (level : Nat) : EF := fEF 0 7 0 1 2 4 0 192 level 0
def threeLevels : State :=
  let l := { fetchLaunch with top := 3, levels := fetchLaunch.levels ++ [{ window := 0, count := 1, gang := false, scope := 1, domain := 4 }] }
  { base with grids := [{ fetchGrid with launch := l }] }
def arrivedGroup : Group := { fetchGroup with arrivals := [(2, 0, false)] }

theorem witness_Barriers :
    (∃ (s : State) (u : Issuer), s.issuer? = some u ∧ u.slot.wait = none ∧ u.g.life = .resident ∧ (s.gridOf u.g).isSome ∧ mayTrap s u ∧ (s.launch u.g).top < (bf 3).eb.toNat) ∧
    (∃ (s : State) (u : Issuer), s.issuer? = some u ∧ u.slot.wait = none ∧ u.g.life = .resident ∧ (s.gridOf u.g).isSome ∧ mayTrap s u ∧
      (bf 3).eb.toNat ≤ (s.launch u.g).top ∧ ¬ ((bf 3).eb.toNat ≤ (s.launch u.g).blockLevel ∨ ∃ m ∈ (s.launch u.g).gangLevels, (bf 3).eb.toNat ≤ m)) ∧
    (∃ (s : State) (u : Issuer), s.issuer? = some u ∧ u.slot.wait = none ∧ u.g.life = .resident ∧ (s.gridOf u.g).isSome ∧ (bf 2).eb.toNat ≤ (s.launch u.g).blockLevel ∧
      u.arrivalOut (s.unitBarrier u.g 2) = true) ∧
    (∃ (s : State) (u : Issuer), s.issuer? = some u ∧ u.slot.wait = none ∧ u.g.life = .resident ∧ (s.gridOf u.g).isSome ∧ (bf 2).eb.toNat ≤ (s.launch u.g).top ∧
      (bf 2).eb.toNat ≤ (s.launch u.g).blockLevel ∧ u.arrivalOut (s.unitBarrier u.g 2) = false ∧ lastToArrive s u (s.unitBarrier u.g 2)) ∧
    (∃ (s : State) (u : Issuer), s.issuer? = some u ∧ u.slot.wait = none ∧ u.g.life = .resident ∧ (s.gridOf u.g).isSome ∧ (bf 2).eb.toNat ≤ (s.launch u.g).blockLevel ∧
      u.arrivalOut (s.unitBarrier u.g 2) = false ∧ ¬ lastToArrive s u (s.unitBarrier u.g 2)) :=
  ⟨⟨on fetchGroup, by_ fetchGroup, rfl, rfl, rfl, rfl, ⟨rfl, by decide +kernel⟩, by decide +kernel⟩,
   ⟨threeLevels, by_ fetchGroup, rfl, rfl, rfl, rfl, ⟨rfl, by decide +kernel⟩, by decide +kernel, by decide +kernel⟩,
   ⟨on arrivedGroup, by_ arrivedGroup, rfl, rfl, rfl, rfl, by decide +kernel, by decide +kernel⟩,
   ⟨on fetchGroup, by_ fetchGroup, rfl, rfl, rfl, rfl, by decide +kernel, by decide +kernel, by decide +kernel, by unfold lastToArrive; decide +kernel⟩,
   ⟨{ base with groups := [fetchGroup, feeder] }, by_ fetchGroup, rfl, rfl, rfl, rfl, by decide +kernel, by decide +kernel, by unfold lastToArrive; decide +kernel⟩⟩

/-- An object word and a second operand; an object of that header at place 64; the word that names the object at the end of the allotment. -/
def obj (a b : DWord) : Group := (fetchGroup.poke (.s 2) a).poke (.s 4) b
def objState (hdr : Nat) (a b : DWord) : State := (withArray Matrix.empty (obj a b)).initHeader 0 64 hdr true
def lastObj : DWord := 131072 - 16

theorem obj_issuer (h : Nat) (a b : DWord) : (objState h a b).issuer? = some (by_ (obj a b)) := rfl

theorem witness_BarrierObjects :
    (∃ (s : State) (u : Issuer) (f : EF), s.issuer? = some u ∧ ((sOf s u 2 f.b).setWidth 32).toNat = 0 ∧ mayTrap s u) ∧
    (∃ (s : State) (u : Issuer) (f : EF), s.issuer? = some u ∧ u.slot.wait = none ∧ ((sOf s u 2 f.b).setWidth 32).toNat ≠ 0 ∧ ¬ objectFits s u (sOf s u 1 f.a) 16 ∧ mayTrap s u) ∧
    (∃ (s : State) (u : Issuer) (f : EF), s.issuer? = some u ∧ ((sOf s u 2 f.b).setWidth 32).toNat = 2 ^ 32 - 1 ∧ sOf s u 1 f.a = lastObj ∧ objectFits s u (sOf s u 1 f.a) 16 ∧
      s.objectBad (objectAt s u (sOf s u 1 f.a)).1 (objectAt s u (sOf s u 1 f.a)).2 16 = false) ∧
    (∃ (s : State) (u : Issuer) (f : EF), s.issuer? = some u ∧ objectFits s u (sOf s u 1 f.a) 16 ∧ objectSound s u (sOf s u 1 f.a) 16 ∧ f.imm.toNat = (s.bobj 0 64).count ∧
      (objectAt s u (sOf s u 1 f.a)) = (0, 64)) ∧
    (∃ (s : State) (u : Issuer) (f : EF), s.issuer? = some u ∧ u.slot.wait = none ∧ objectFits s u (sOf s u 1 f.a) 16 ∧ objectSound s u (sOf s u 1 f.a) 16 ∧
      (objectAt s u (sOf s u 1 f.a)) = (0, 64) ∧ (s.bobj 0 64).flt = false ∧ (s.bobj 0 64).phase ≠ ((sOf s u 2 f.b).setWidth 32).toNat) ∧
    (∃ (s : State) (u : Issuer) (f : EF), s.issuer? = some u ∧ u.slot.wait = none ∧ objectFits s u (sOf s u 1 f.a) 16 ∧ objectSound s u (sOf s u 1 f.a) 16 ∧
      (objectAt s u (sOf s u 1 f.a)) = (0, 64) ∧ (s.bobj 0 64).flt = false ∧ (s.bobj 0 64).phase = ((sOf s u 2 f.b).setWidth 32).toNat ∧
      s.objectStalled u.g 0 64 ((sOf s u 2 f.b).setWidth 32) = false) :=
  let o : BObj := { count := 3, init := 3, phase := 5, level := 2, frsn := 0, ftier := 0, ovr := false, flt := false }
  ⟨⟨on fetchGroup, by_ fetchGroup, ef 2 0 0, rfl, by decide +kernel, rfl, by decide +kernel⟩,
   ⟨objState 0 (lastObj + 16) 1, by_ (obj (lastObj + 16) 1), ef 2 0 0, rfl, rfl, by decide +kernel, by unfold objectFits; decide +kernel, rfl, by decide +kernel⟩,
   ⟨objState 0 lastObj (2 ^ 32 - 1), by_ (obj lastObj (2 ^ 32 - 1)), ef 2 0 0, rfl, by decide +kernel, by decide +kernel, by unfold objectFits; decide +kernel, by decide +kernel⟩,
   ⟨objState o.pack 64 0, by_ (obj 64 0), ef 2 0 3, rfl, by unfold objectFits; decide +kernel, by unfold objectSound; decide +kernel, by decide +kernel, by decide +kernel⟩,
   ⟨objState o.pack 64 4, by_ (obj 64 4), ef 2 0 0, rfl, rfl, by unfold objectFits; decide +kernel, by unfold objectSound; decide +kernel, by decide +kernel, by decide +kernel, by decide +kernel⟩,
   ⟨objState o.pack 64 5, by_ (obj 64 5), ef 2 0 0, rfl, rfl, by unfold objectFits; decide +kernel, by unfold objectSound; decide +kernel, by decide +kernel, by decide +kernel, by decide +kernel,
     by decide +kernel⟩⟩

theorem witness_Queues :
    (∃ (s : State) (u : Issuer) (f : EF), s.issuer? = some u ∧ u.slot.wait = none ∧ ¬ objectFits s u (sOf s u 1 f.a) 16 ∧ mayTrap s u) ∧
    (∃ (s : State) (u : Issuer) (f : EF), s.issuer? = some u ∧ f.imm.toNat = 2 ^ 13 - 1 ∧ objectFits s u (sOf s u 1 f.a) (16 + 4 * f.imm.toNat) ∧
      s.objectBad (objectAt s u (sOf s u 1 f.a)).1 (objectAt s u (sOf s u 1 f.a)).2 (16 + 4 * f.imm.toNat) = false) ∧
    (∀ e ∈ [(2, 3, 1), (2, 2, 2), (0, 2, 0)], let q : QObj := { head := e.1, tail := e.2.1, allow := e.2.2, cap := 2 }
      ∃ (s : State) (u : Issuer) (f : EF), s.issuer? = some u ∧ u.slot.wait = none ∧ objectFits s u (sOf s u 1 f.a) (16 + 4 * q.cap) ∧ objectSound s u (sOf s u 1 f.a) (16 + 4 * q.cap) ∧
        objectAt s u (sOf s u 1 f.a) = (0, 64) ∧ s.qobj 0 64 = q ∧ 0 < q.cap ∧ fenced s u 2 ∧ s.queuedBefore 0 64 s.turn true = false ∧ s.queuedBefore 0 64 s.turn false = false) := by
  refine ⟨⟨objState 0 (lastObj + 16) 1, by_ (obj (lastObj + 16) 1), ef 2 0 0, rfl, rfl, by unfold objectFits; decide +kernel, rfl, by decide +kernel⟩,
   ⟨objState 0 64 0, by_ (obj 64 0), ef 2 0 (2 ^ 13 - 1), rfl, by decide +kernel, by unfold objectFits; decide +kernel, by decide +kernel⟩, ?_⟩
  intro e h
  simp only [List.mem_cons, List.not_mem_nil, or_false] at h
  dsimp only
  rcases h with rfl | rfl | rfl
  · exact ⟨objState (QObj.pack { head := 2, tail := 3, allow := 1, cap := 2 }) 64 0, by_ (obj 64 0), ef 2 0 0, rfl, rfl, by unfold objectFits objectSound fenced; decide +kernel⟩
  · exact ⟨objState (QObj.pack { head := 2, tail := 2, allow := 2, cap := 2 }) 64 0, by_ (obj 64 0), ef 2 0 0, rfl, rfl, by unfold objectFits objectSound fenced; decide +kernel⟩
  · exact ⟨objState (QObj.pack { head := 0, tail := 2, allow := 0, cap := 2 }) 64 0, by_ (obj 64 0), ef 2 0 0, rfl, rfl, by unfold objectFits objectSound fenced; decide +kernel⟩

/-- A word to wait for: the context's page at offset 0x1040 holds 60, the words past it are zero. -/
def waitF (imm cmp : Nat) : EF := fEF 0 7 0 1 2 4 0 192 cmp imm
def waitLanding : Landing := { addr := fetchBase + 0x5040, mode := .coh, rights := 0x1F, device := false, leaf := fetchBase + 0x4000, room := 4032 }

/-- A load under way to V32. -/
def loading : Group :=
  { storing with accs := [{ id := 1, slot := .a, pc := 0, turn := 0, path := .ld, log := some 0, ord := 0, scp := 0, lanes := 1, loads := true, stores := false, dest := [.v 32 0], done := false, fail := none }] }
/-- Two groups that hold all slabs of their quadrant, both parked in RGROW or neither. -/
def growing (n id grp slabs : Nat) (w : Bool) : Group :=
  let x := { runA with wait := if w then some { instr := .rgrow (ef 0 0 n), ops := [], cond := .slabs n, done := false, turn := id, fc := 0 } else none }
  { fetchGroup with id := id, grp := grp, slabs := slabs, a := x }
def crowd (w : Bool) : State := { base with groups := [growing 17 2 1 16 w, growing 17 1 0 16 w], issuer := some (2, .a), turn := 9 }
def crowdBy (w : Bool) : Issuer := ⟨growing 17 2 1 16 w, .a⟩
def slim : Group := { fetchGroup with slabs := 1 }

/-- Queue 63 of device side: its entry at 0x20000 in the packaged memory, two packets in its ring; write and read index. -/
def dsq (w r : Nat) (en : Bool) : State :=
  let s := base.storeN (ctxBase 0 + 64) 8 (fetchBase + 0x20000)
  let a := fetchBase + 0x20000 + 32 * 63
  { (s.storeN (a + 8) 8 ((if en then 2 ^ 63 else 0) + 2 ^ 48)).storeN (a + 16) 8 (w + 2 ^ 32 * r) with groups := [fetchGroup] }
def launchBy (w : Nat) : Issuer := by_ (obj (BitVec.ofNat 64 (63 + 2 ^ 32 * w)) 0)
def dsqTo (v w r : Nat) (en : Bool) : State := { dsq w r en with groups := [(launchBy v).g] }
/-- LAUNCH of queue 63 up to an index, no store under way. -/
def launchAsks (s : State) (u : Issuer) (w : Nat) : Prop :=
  s.issuer? = some u ∧ u.slot.wait = none ∧ u.g.cid = 0 ∧ sOf s u 1 (ef 2 0 0).a = BitVec.ofNat 64 (63 + 2 ^ 32 * w) ∧ oldestFailed (u.g.fenced false true s.turn) = none ∧
    s.fenceHolds u.g false true 5 s.turn = true


/-- The WAITW state: offset in S2, the comparison value in S4. -/
def waiting (cmp : DWord) : State := on (obj 0x40 cmp)
theorem waiting_lands (cmp : DWord) (h : cmp = 0 ∨ cmp = 1) : (waiting cmp).resolve 0 0 0 0 0x40 rightR = (((waiting cmp).resolve 0 0 0 0 0x40 rightR).1, .lands waitLanding) := by
  rcases h with rfl | rfl <;> exact Prod.ext rfl (by decide +kernel)
theorem waiting_word : ((waiting 0).resolve 0 0 0 0 0x40 rightR).1.loadN waitLanding.addr 4 = 0 ∧ ((waiting 1).resolve 0 0 0 0 0x40 rightR).1.loadN waitLanding.addr 4 = 0 := by decide +kernel
/-- What WAITW asks for in it. -/
def waitAsks (c : DWord) : Prop := let s := waiting c; let u := by_ (obj 0x40 c); let f := waitF 0 0
  (sOf s u 1 f.a).setWidth 48 = 0x40#48 ∧ sOf s u 2 f.b = c ∧ u.g.rdK s.turn 3 (f.u.toNat - 192) = 0 ∧ s.servableAt waitLanding.addr = true ∧ waitLanding.addr % 4 = 0
theorem waiting_asks : waitAsks 0 ∧ waitAsks 1 := by unfold waitAsks; decide +kernel

/-- A load and a store under way: the path st holds one. -/
theorem witness_CounterAndWordWaits :
    (∃ (s : State) (u : Issuer) (f : EF), s.issuer? = some u ∧ u.slot.wait = none ∧ f.ea ≠ 1 ∧ f.eb.toNat = 1 ∧ f.imm.toNat = 1 ∧ oldestFailed (u.g.covered .st 1) = none ∧ u.g.counter .st ≤ 1) ∧
    (∃ (s : State) (u : Issuer) (f : EF), s.issuer? = some u ∧ u.slot.wait = none ∧ f.ea = 1 ∧ f.eb.toNat = 1 ∧ (sOf s u 1 f.a).toNat = 0 ∧ oldestFailed (u.g.covered .st 0) = none ∧ 0 < u.g.counter .st) ∧
    (∃ (s : State) (u : Issuer) (f : EF), s.issuer? = some u ∧ u.slot.wait = none ∧ f.imm.getLsbD 0 = true ∧ ((sOf s u 1 f.a).setWidth 48).toNat % 8 = 4 ∧ mayTrap s u) ∧
    (∀ c, c = 0 ∨ c = 1 → (waiting c).issuer? = some (by_ (obj 0x40 c)) ∧ (by_ (obj 0x40 c)).slot.wait = none ∧ (waiting c).l1 = [] ∧ (waiting c).opens = [] ∧ (waiting c).staleCopies = [] ∧
      (waiting c).reqs = [] ∧ (waiting c).remotes = [] ∧ (waiting c).watches = [] ∧ remoteOf waitLanding.addr = none ∧ waitLanding.device = false ∧
      (waiting c).resolve 0 0 0 0 0x40 rightR = (((waiting c).resolve 0 0 0 0 0x40 rightR).1, .lands waitLanding)) ∧
    waitAsks 0 ∧ waitAsks 1 ∧ compare false (waitF 0 0).eb.toNat (BitVec.ofNat 32 0) (BitVec.setWidth 32 (0 : DWord)) ∧ ¬ compare false (waitF 0 0).eb.toNat (BitVec.ofNat 32 0) (BitVec.setWidth 32 (1 : DWord)) :=
  ⟨⟨on storing, by_ storing, fEF 0 7 0 0 2 0 0 0 1 1, rfl, rfl, by decide, rfl, rfl, by decide +kernel, by decide +kernel⟩,
   ⟨on storing, by_ storing, fEF 0 7 0 0 2 0 1 0 1 1, rfl, rfl, rfl, rfl, by decide +kernel, by decide +kernel, by decide +kernel⟩,
   ⟨on (obj 0x44 0), by_ (obj 0x44 0), waitF 1 0, rfl, rfl, rfl, by decide +kernel, rfl, by decide +kernel⟩,
   fun c h => ⟨rfl, rfl, rfl, rfl, rfl, rfl, rfl, rfl, by decide +kernel, rfl, waiting_lands c h⟩, waiting_asks.1, waiting_asks.2, by decide, by decide⟩

theorem witness_RegistersAndLaunches :
    (∃ (s : State) (u : Issuer) (f : EF), s.issuer? = some u ∧ u.slot.wait = none ∧ f.imm.toNat = 16 ∧ u.g.slabs = 16) ∧
    (∃ (s : State) (u : Issuer) (f : EF), s.issuer? = some u ∧ u.slot.wait = none ∧ u.g.slabs < f.imm.toNat ∧ f.imm.toNat = 16 ∧ s.growGranted u.g f.imm.toNat s.turn = true) ∧
    (∃ (s : State) (u : Issuer) (f : EF) (w : Wait), s.issuer? = some u ∧ u.slot.wait = some w ∧ w.cond = .slabs f.imm.toNat ∧ u.g.slabs < f.imm.toNat ∧
      s.growGranted u.g f.imm.toNat w.turn = false ∧ s.growStalled u.g = true ∧ mayTrap s u) ∧
    (∃ (s : State) (u : Issuer) (f : EF), s.issuer? = some u ∧ u.slot.wait = none ∧ u.g.slabs < f.imm.toNat ∧ s.growGranted u.g f.imm.toNat s.turn = false ∧ s.growStalled u.g = false) ∧
    (∃ (s : State) (u : Issuer) (f : EF), s.issuer? = some u ∧ u.slot.wait = none ∧ f.imm.toNat = 1 ∧ f.imm.toNat < u.g.slabs ∧ s.shrinkSettled u.g f.imm.toNat = true) ∧
    (∃ (s : State) (u : Issuer) (f : EF), s.issuer? = some u ∧ u.slot.wait = none ∧ f.imm.toNat < u.g.slabs ∧ s.shrinkSettled u.g f.imm.toNat = false) ∧
    (∃ (s : State) (u : Issuer) (f : EF), s.issuer? = some u ∧ u.slot.wait = none ∧ ((sOf s u 1 f.a).setWidth 8).toNat = 64 ∧ mayTrap s u) ∧
    (∃ (s : State) (u : Issuer), launchAsks s u 9 ∧ mayTrap s u ∧ s.dsqEnabled 0 63 = false) ∧
    (∃ (s : State) (u : Issuer), launchAsks s u 9 ∧ mayTrap s u ∧ s.dsqEnabled 0 63 = true ∧ s.dsqCap 0 63 < (BitVec.ofNat 32 9 - BitVec.ofNat 32 (s.dsqW 0 63)).toNat) ∧
    (∃ (s : State) (u : Issuer), launchAsks s u 8 ∧ s.dsqEnabled 0 63 = true ∧ (BitVec.ofNat 32 8 - BitVec.ofNat 32 (s.dsqW 0 63)).toNat = s.dsqCap 0 63 ∧
      (BitVec.ofNat 32 8 - BitVec.ofNat 32 (s.dsqRd 0 63)).toNat = s.dsqCap 0 63) ∧
    (∃ (s : State) (u : Issuer), launchAsks s u 8 ∧ s.dsqEnabled 0 63 = true ∧ (BitVec.ofNat 32 8 - BitVec.ofNat 32 (s.dsqW 0 63)).toNat = s.dsqCap 0 63 ∧
      s.dsqCap 0 63 < (BitVec.ofNat 32 8 - BitVec.ofNat 32 (s.dsqRd 0 63)).toNat) :=
  ⟨⟨on fetchGroup, by_ fetchGroup, ef 0 0 16, rfl, rfl, rfl, rfl⟩, ⟨on slim, by_ slim, ef 0 0 16, rfl, rfl, by decide, rfl, by decide +kernel⟩,
   ⟨crowd true, crowdBy true, ef 0 0 17, _, rfl, rfl, rfl, by decide, by decide +kernel, by decide +kernel, rfl, by decide +kernel⟩,
   ⟨crowd false, crowdBy false, ef 0 0 17, rfl, rfl, by decide, by decide +kernel, by decide +kernel⟩, ⟨on fetchGroup, by_ fetchGroup, ef 0 0 1, rfl, rfl, rfl, by decide, by decide +kernel⟩,
   ⟨on loading, by_ loading, ef 0 0 1, rfl, rfl, by decide, by decide +kernel⟩, ⟨on (obj 64 0), by_ (obj 64 0), ef 2 0 0, rfl, rfl, by decide +kernel, rfl, by decide +kernel⟩,
   ⟨dsqTo 9 6 6 false, launchBy 9, ⟨rfl, by decide +kernel⟩, ⟨rfl, by decide +kernel⟩, by decide +kernel⟩,
   ⟨dsqTo 9 6 6 true, launchBy 9, ⟨rfl, by decide +kernel⟩, ⟨rfl, by decide +kernel⟩, by decide +kernel⟩,
   ⟨dsqTo 8 6 6 true, launchBy 8, ⟨rfl, by decide +kernel⟩, by decide +kernel⟩,
   ⟨dsqTo 8 6 5 true, launchBy 8, ⟨rfl, by decide +kernel⟩, by decide +kernel⟩⟩

/-! ### Requests -/

/-- A lane's place in line 32, with data; its two registers from V8 on. -/
def lane (l a d : Nat) (n : Nat) : LaneOp := { lane := l, addr := a, data := d, extra := 0, result := none, cells := (List.range n).map (fun i => Cell.v (8 + i) l) }

/-- A request of the group, number 50, for line 32 of die 0. -/
def req (kind : ReqKind) (phase : Phase) (lanes : List LaneOp) (left : Mask) : Req :=
  { id := 50, acc := 7, gid := 1, core := 0, cid := 0, turn := 0, kind := kind, k0 := 0, off0 := 0, k := 0, off := 0, rights := 31, need := 1, phase := phase, lanes := lanes, left := left,
    ord := 0, scp := 0, ch := 0, window := false, seq := 0, log := 0, passed := [(0, 0, 0)], line := 32, mode := .coh, noL1 := false, fc := 0, contribs := 1, list := 0,
    behind := 0, transients := 0, carriers := [] }

/-- The state with that request, and an event that picks lanes of it. -/
def asked (r : Req) (lanes : Nat) : State := { base with reqs := [r], args := [50, lanes] }
def askedFar (r : Req) : State := { far with reqs := [r], args := [50, 0] }

/-- The far state at a held entry. -/
def heldFar (r : Req) : State := { (far.putEntry .port 0 3 { w0 := 0xFA + 4, w1 := 0, w2 := 1, w3 := 0 }) with reqs := [r], args := [50, 0] }

theorem far_port : ∀ r, r = { req .prf (.at .port 0) [] 0 with k := kOf [3, 4] } →
    ((askedFar r).lookAt .port 0 r.core r.k r.off r.need r.rights (coreDie r.core)).2 = .onward (kOf [4]) 0 31 .remote 7 ∧
    ((heldFar r).lookAt .port 0 r.core r.k r.off r.need r.rights (coreDie r.core)).2 = .waits := by
  rintro r rfl; decide +kernel

def codeLanding : Landing := { addr := fetchBase + 0x5000, mode := .coh, rights := 31, device := false, leaf := fetchBase + 0x4000, room := 4096 }

theorem witness_RequestsOnTheirWay :
    (let r := { req .prf (.at .port 0) [] 0 with k := kOf [3, 4] };
      names (askedFar r) r ∧ (askedFar r).poison = [] ∧ ((askedFar r).lookAt .port 0 r.core r.k r.off r.need r.rights (coreDie r.core)).2 = .onward (kOf [4]) 0 31 .remote 7 ∧
      names (heldFar r) r ∧ (heldFar r).poison = [] ∧ ((heldFar r).lookAt .port 0 r.core r.k r.off r.need r.rights (coreDie r.core)).2 = .waits) ∧
    (let r := { req (.atom .add 4) (.at .port 0) [lane 0 0 1 1, lane 1 4 1 1, lane 2 0 1 1] 7 with k := kOf [3, 4] };
      names (askedFar r) r ∧ (askedFar r).poison = [] ∧ isAddition r ∧ r.byAddress = [5, 2] ∧
      ((askedFar r).lookAt .port 0 r.core r.k r.off r.need r.rights (coreDie r.core)).2 = .onward (kOf [4]) 0 31 .remote 7) ∧
    (let r := req .prf (.at .core 0) [] 0;
      names (asked r 0) r ∧ (asked r 0).window? r.cid r.k = none ∧ (asked r 0).poison = [] ∧ (∀ d, (asked r 0).dieHeld d = false) ∧
      ((asked r 0).lookAt .core 0 r.core r.k r.off r.need r.rights (coreDie r.core)).2 = .lands codeLanding) ∧
    (let r := req .prf .missing [] 0; names (asked r 0) r ∧ r.phase = .missing ∧ (asked r 0).l1 = [] ∧ (asked r 0).mayCache r.mode r.sliceDie r.line = true) :=
  ⟨⟨rfl, rfl, (far_port _ rfl).1, rfl, rfl, (far_port _ rfl).2⟩, ⟨rfl, rfl, ⟨4, .inl rfl⟩, by decide, by decide +kernel⟩, ⟨rfl, rfl, rfl, fun _ => rfl, by decide +kernel⟩, rfl, rfl, rfl, by decide +kernel⟩

/-- Two lanes that store overlapping bytes; two that load. -/
def twoStores : List LaneOp := [lane 0 0 0x01020304 0, lane 31 2 0x05060708 0]
def twoLoads : List LaneOp := [lane 0 0 0 2, lane 31 120 0 2]

theorem memory32 : (decide (128 * 32 < 2 ^ 48) && paNode (128 * 32) == 6) = false ∧ (remoteOf (128 * 32)).isSome = false := by decide +kernel
theorem landed (r : Req) (size lanes : Nat) (h : r = req r.kind .ready r.lanes r.left ∨ r = { req r.kind .ready r.lanes r.left with scp := 2 })
    (hp : laneChoice (overlap size) r.lanes r.left (BitVec.ofNat 32 lanes) = true) (hl : (asked r lanes).atLanding r = true) :
    names (asked r lanes) r ∧ uncached (asked r lanes) ∧ mayPerform (asked r lanes) r size ∧ inMemory r := by
  refine ⟨?_, ⟨rfl, rfl, rfl⟩, ⟨hl, rfl, hp⟩, ?_⟩
  · rcases h with h | h <;> rw [h] <;> rfl
  · rcases h with h | h <;> rw [h] <;> exact memory32

/-- A scratchpad access of two lanes, the last past the allotment. -/
def padReq (kind : ReqKind) (lanes : List LaneOp) : SpReq :=
  { id := 50, acc := 7, gid := 1, core := 0, target := 0, base := 0, allot := 4096, turn := 0, kind := kind, ord := 0, lanes := lanes, left := 0x80000001, behind := 0 }
def padState (r : SpReq) : State := { base with spReqs := [r], args := [50, 0x80000001] }

theorem witness_RequestsPerformed :
    (let r := req (.load 8 true) .ready twoLoads 0x80000001; let s := asked r 0x80000001;
      names s r ∧ uncached s ∧ mayPerform s r 8 ∧ inMemory r ∧ s.group? r.gid = some fetchGroup ∧ fetchGroup.live = true ∧ fetchGroup.late = [] ∧ Claims.laneCells r.lanes 8 2 ∧
      ∀ o ∈ r.lanes, o.addr % 128 + 8 ≤ 128) ∧
    (let r := { req (.store 4) .ready twoStores 0x80000001 with scp := 2 }; let s := asked r 0x80000001;
      names s r ∧ uncached s ∧ mayPerform s r 4 ∧ inMemory r ∧ r.noL1 = false ∧ 2 ≤ r.scp ∧ s.grantedAlone r.mode (coreDie r.core) r.line = true ∧
      s.tokensFree (s.l1CoreOf r) r.line = true) ∧
    (let r := { req (.store 4) .ready twoStores 0x80000001 with noL1 := true, mode := .urm }; let s := asked r 0x80000001;
      names s r ∧ uncached s ∧ mayPerform s r 4 ∧ inMemory r ∧ r.noL1 = true ∧ r.mode ≠ .coh) ∧
    (let r := req (.store 4) .ready twoStores 0x80000001; let s := asked r 0x80000001;
      names s r ∧ uncached s ∧ mayPerform s r 4 ∧ inMemory r ∧ r.noL1 = false ∧ r.scp ≤ 1 ∧ s.mayCache r.mode (coreDie r.core) r.line = true ∧ ∀ o ∈ r.lanes, o.addr % 128 + 4 ≤ 128) ∧
    (let r := padReq (.load 8 true) [lane 0 0 0 2, lane 31 4092 0 2]; let s := padState r;
      s.spReqs.find? (fun x => x.id == s.arg 0) = some r ∧ s.l1 = [] ∧ s.spInOrder r = true ∧ laneChoice (shareWord 8) r.lanes r.left (eventLanes s) = true ∧ s.arg 2 % 2 ^ 32 = 0 ∧ (s.core r.target).poisoned = [] ∧
      s.group? r.gid = some fetchGroup ∧ Claims.laneCells r.lanes 8 2) ∧
    (let r := padReq (.store 4) [lane 0 0 7 0, lane 31 4092 9 0]; let s := padState r;
      s.spReqs.find? (fun x => x.id == s.arg 0) = some r ∧ s.l1 = [] ∧ s.spInOrder r = true ∧ laneChoice (shareWord 4) r.lanes r.left (eventLanes s) = true) ∧
    (let r := req .prf .ready [] 0; let s := asked r 0; names s r ∧ uncached s ∧ s.servable r = true) := by
  have cells : Claims.laneCells [lane 0 0 0 2, lane 31 4092 0 2] 8 2 ∧ Claims.laneCells twoLoads 8 2 := by unfold Claims.laneCells; decide
  obtain ⟨a, b, c, d⟩ := landed (req (.load 8 true) .ready twoLoads 0x80000001) 8 0x80000001 (.inl rfl) (by decide) (by decide +kernel)
  obtain ⟨a1, b1, c1, d1⟩ := landed { req (.store 4) .ready twoStores 0x80000001 with scp := 2 } 4 0x80000001 (.inr rfl) (by decide) (by decide +kernel)
  obtain ⟨a2, b2, c2, d2⟩ := landed (req (.store 4) .ready twoStores 0x80000001) 4 0x80000001 (.inl rfl) (by decide) (by decide +kernel)
  exact ⟨⟨a, b, c, d, rfl, by decide +kernel, rfl, cells.2, by decide⟩, ⟨a1, b1, c1, d1, rfl, by decide, by decide +kernel, by decide +kernel⟩,
    ⟨rfl, ⟨rfl, rfl, rfl⟩, ⟨by decide +kernel, rfl, by decide⟩, by unfold inMemory; decide +kernel, rfl, by decide⟩,
    ⟨a2, b2, c2, d2, rfl, by decide, by decide +kernel, by decide⟩, ⟨rfl, rfl, by decide +kernel, by decide +kernel, by decide, rfl, rfl, cells.1⟩,
    ⟨rfl, rfl, by decide +kernel, by decide +kernel⟩, rfl, ⟨rfl, rfl, rfl⟩, by decide +kernel⟩

/-- A core's copy of line 32, with its tokens. -/
def copyOf (core tokens : Nat) : L1Line :=
  { core := core, cid := 0, k := 0, off := 0, line := 32, rights := 31, mode := .coh, tokens := tokens, dirty := [], writers := [], old := none, pending := false, fc := 0, ch := 0, sectors := 15 }

theorem witness_AtomicsPerformed :
    (let r := req (.atom .dec 4) .ready [lane 0 0 5 1, lane 31 4 6 1] 0x80000001; let s := asked r 1;
      names s r ∧ uncached s ∧ r.kind.atomOp = some (.dec, 4) ∧ mayPerform s r 4 ∧ inMemory r ∧ s.grantedAlone r.mode ((homeOf r.line).getD (coreDie r.core)) r.line = true ∧
      pickedLanes r.lanes (eventLanes s) = [lane 0 0 5 1]) ∧
    (let r := req (.atom .cas 8) .replied ([lane 0 0 5 2, lane 31 8 6 2].map (fun o => { o with result := some (2 ^ 64 - 1) })) 0; let s := asked r 0;
      names s r ∧ s.l1 = [] ∧ r.acc ≠ 0 ∧ s.group? r.gid = some fetchGroup ∧ fetchGroup.live = true ∧ fetchGroup.late = [] ∧ Claims.laneCells r.lanes 8 2 ∧ ∀ o ∈ r.lanes, o.result.isSome) ∧
    (let r := req (.red .add 8) .replied [] 0; names (asked r 0) r ∧ r.acc ≠ 0) ∧
    (let r := req (.upd 13) .ready [lane 0 120 9 0] 1; let s := asked r 1;
      names s r ∧ uncached s ∧ s.atLanding r = true ∧ s.poisonedFor r = false ∧ inMemory r ∧ s.grantedAlone r.mode ((homeOf r.line).getD (coreDie r.core)) r.line = true) ∧
    (let r := req (.upd 13) .ready [lane 0 120 9 0] 1; let s := { asked r 1 with opens := [openedFor r 13 [(0, List.replicate 16 0)] []], l1 := [copyOf 0 1] };
      names s r ∧ s.atLanding r = true ∧ s.poisonedFor r = false ∧ s.fusedAt r.core = false ∧ r.noL1 = false ∧ (s.l1Of r).map (·.line) = some r.line) ∧
    (let r := { req (.upd 13) .ready [lane 0 120 9 0] 1 with noL1 := true }; let s := asked r 1;
      names s r ∧ uncached s ∧ s.atLanding r = true ∧ s.poisonedFor r = false ∧ inMemory r ∧ s.grantedAlone r.mode ((homeOf r.line).getD (coreDie r.core)) r.line = true) ∧
    (let r := { req (.upd 13) .ready [lane 0 120 9 0] 1 with noL1 := true }; let s := { asked r 1 with opens := [openedFor r 13 [] []] };
      names s r ∧ s.atLanding r = true ∧ s.poisonedFor r = false ∧ s.fusedAt r.core = false ∧ r.noL1 = true) := by
  obtain ⟨a, b, c, d⟩ := landed (req (.atom .dec 4) .ready [lane 0 0 5 1, lane 31 4 6 1] 0x80000001) 4 1 (.inl rfl) (by decide) (by decide +kernel)
  exact ⟨⟨a, b, rfl, c, d, by decide +kernel, by decide⟩, ⟨rfl, rfl, by decide, rfl, by decide +kernel, rfl, by unfold Claims.laneCells; decide, by decide⟩, ⟨rfl, by decide⟩,
    ⟨rfl, ⟨rfl, rfl, rfl⟩, by decide +kernel, by decide +kernel, ⟨rfl, rfl⟩, by decide +kernel⟩,
    ⟨rfl, by decide +kernel, by decide +kernel, by decide +kernel, rfl, by decide +kernel⟩,
    ⟨rfl, ⟨rfl, rfl, rfl⟩, by decide +kernel, by decide +kernel, ⟨rfl, rfl⟩, by decide +kernel⟩, rfl, by decide +kernel, by decide +kernel, by decide +kernel, rfl⟩

/-! ### Caches, combining and OPEN lines -/

/-- Core 3's, dirty at byte 127, or with an invalidation on its way. -/
def dirtyCopy : L1Line := { copyOf 3 1 with dirty := [(127, 9)] }
def oldCopy (p : Bool) : L1Line := { copyOf 3 1 with old := some (List.replicate 128 0), pending := p }
def cached (ls : List L1Line) (args : List Nat) : State := { base with l1 := ls, args := args }
def region (b : Nat) : Region := { die := 0, base := b, log := 12, holders := [1], alone := false, fc := 0 }

theorem witness_CacheEvents :
    (∀ a, a = 0 ∨ a = 1 → let s := cached [copyOf 3 0, copyOf 0 256] [3, 32, a];
      holdsLine s (s.arg 0) (s.arg 1) (copyOf 3 0) ∧ cleanLine s (s.arg 1) ∧ s.opens = [] ∧ s.persistent = [] ∧ s.arg 2 = a ∧ s.arg 3 = 0 ∧ s.tokensOut 0 32 = 256) ∧
    (let s := cached [copyOf 3 0] [3, 32, 0, 1]; s.l1OfLine (s.arg 0) (s.arg 1) = some (copyOf 3 0) ∧ s.arg 3 ≠ 0) ∧
    (let r := { req (.load 4 false) .ready [] 0 with core := 3, transients := 2 }; let s := { cached [copyOf 3 0] [3, 32] with reqs := [r] };
      r ∈ s.reqs ∧ r.phase = .ready ∧ r.core = s.arg 0 ∧ r.line = s.arg 1 ∧ 2 ≤ r.transients ∧ s.persistent.contains (s.arg 0, s.arg 1) = false ∧
      holdsLine s (s.arg 0) (s.arg 1) (copyOf 3 0) ∧ cleanLine s (s.arg 1) ∧ s.opens = [] ∧ (∀ p ∈ s.persistent, p.2 ≠ s.arg 1) ∧
      (s.persistent.filter (fun p => sliceOf p.2 == sliceOf (s.arg 1))).length < 64) ∧
    (let s := { cached [copyOf 3 0] [3, 32] with persistent := [(3, 32)] }; s.persistent = [(s.arg 0, s.arg 1)] ∧ holdsLine s (s.arg 0) (s.arg 1) (copyOf 3 0) ∧ cleanLine s (s.arg 1) ∧ s.opens = []) ∧
    (∀ a, a = 0 ∨ a = 1 → let s := cached [oldCopy false] [3, 32, a];
      s.l1.find? (fun (l : L1Line) => l.core == s.arg 0 && l.line == s.arg 1 && l.old.isSome && !l.pending) = some (oldCopy false) ∧ s.arg 2 = a ∧ (oldCopy false).dirty = []) ∧
    (let s := cached [oldCopy true] [3, 32]; s.l1.find? (fun (l : L1Line) => l.core == s.arg 0 && l.line == s.arg 1 && l.pending) = some (oldCopy true) ∧ (oldCopy true).dirty = []) ∧
    (let s := cached [dirtyCopy] [3, 32]; let l := dirtyCopy;
      s.l1.find? (fun (l : L1Line) => l.core == s.arg 0 && l.line == s.arg 1 && !l.dirty.isEmpty) = some l ∧ s.opens = [] ∧ s.l1Find l.core l.cid l.k l.off = some l ∧
      s.grantedAlone l.mode (coreDie l.core) l.line = true ∧ (l.dirty.map (·.1)).Pairwise (· ≠ ·) ∧ ∀ e ∈ l.dirty, e.1 < 128) ∧
    (∀ d e, (d, e) = (0, 0) ∨ (d, e) = (1, 1) → let r := { req (.load 4 false) .ready [] 0 with core := 128 * d }; let s := { base with reqs := [r], args := [0, d, 32, e] };
      homeOf (s.arg 2) = some (s.arg 0) ∧ r ∈ s.reqs ∧ r.line = s.arg 2 ∧ r.mode = .coh ∧ coreDie r.core = s.arg 1 ∧ s.open? (s.arg 2) = none ∧ s.poison.contains (s.arg 2) = false ∧ s.arg 3 = e) ∧
    (let c : StaleCopy := { die := 1, line := 32, bytes := List.replicate 128 0, writers := [] }; let s := { base with staleCopies := [c], args := [1, 32] };
      c ∈ s.staleCopies ∧ c.die = s.arg 0 ∧ c.line = s.arg 1 ∧ ∀ x ∈ s.staleCopies, x.line = s.arg 1 → x.die = s.arg 0) ∧
    (let s := { (base.setField (dieBlock 0 + 0x30000) 0 5 13) with regions := [region 4096, region 8192, region 12288], args := [0, 8192], fc := 2 ^ 32 };
      s.regions.find? (fun (r : Region) => r.die == s.arg 0 && r.base == s.arg 1) = some (region 8192) ∧
      s.regions.find? (fun (r : Region) => r.die == s.arg 0 && r.log == 12 && r.base == 8192 + 2 ^ 12) = some (region 12288) ∧ (region 8192).base % 2 ^ 13 = 0 ∧
      (region 8192).log < max 12 (s.dirLog (s.arg 0) 0 5) ∧ 2 ^ s.dirLog (s.arg 0) 16 5 ≤ s.fc) := by
  refine ⟨?_, by decide +kernel, ?_, ?_, ?_, by decide +kernel, by decide +kernel, ?_, by decide +kernel, by decide +kernel⟩
  · unfold holdsLine cleanLine
    rintro a (rfl | rfl) <;> decide +kernel
  · unfold holdsLine cleanLine
    decide +kernel
  · unfold holdsLine cleanLine
    decide +kernel
  · rintro a (rfl | rfl) <;> decide +kernel
  · rintro d e (h | h) <;> cases h <;> decide +kernel

/-- Two additions at the octet switch of octet 0, of cores 0 and 1, on their way to the DIE tier; the reply to what merges them; its record. -/
def adding (i core d : Nat) : Req := { req (.atom .add 4) (.at .die 0) [lane 0 0 d 1] 1 with id := i, core := core }
def mergedReq : Req := { req (.atom .add 4) .replied [{ lane 0 0 7 0 with result := some (2 ^ 32 - 1) }] 0 with id := 60, gid := 0, acc := 0 }
def record (l : Bool) : Record := { id := 70, switch := 0, output := 0, merged := 60, contribs := [⟨50, 0, 3, 0⟩, ⟨51, 1, 4, 3⟩], lost := l }
def heldBy (i core : Nat) : Req := { adding i core 3 with phase := .merged 70 }
def combined (l : Bool) (args : List Nat) (j : List Journal) : State := { base with reqs := [heldBy 50 0, heldBy 51 1, mergedReq], records := [record l], args := args, journal := j, nextId := 80 }
def waitingGroup : Group := { fetchGroup with accs := [{ id := 7, slot := .a, pc := 0, path := .atom, turn := 0, log := none, ord := 0, scp := 0, lanes := 1, loads := true, stores := true, dest := [], done := false, fail := none }] }
def openLine : OpenLine := { line := 32, tag := 1, cid := 0, parts := [(3, List.replicate 32 5)], fused := [], evicted := [] }

theorem witness_CombiningAndClosing :
    (let s := { base with reqs := [adding 50 0 3, adding 51 1 (2 ^ 32 - 1)], args := [0, 51, 50], nextId := 60 }; let a := adding 51 1 (2 ^ 32 - 1); let b := adding 50 0 3;
      switchOf (s.arg 0) = some (.octet 0 0) ∧ s.req? (s.arg 1) = some a ∧ s.req? (s.arg 2) = some b ∧ a.id ≠ b.id ∧ addSize a = some 4 ∧ addSize b = some 4 ∧
      s.crossing (.octet 0 0) a = some ⟨1, 0⟩ ∧ s.crossing (.octet 0 0) b = some ⟨0, 0⟩ ∧ remainingAddress a = some (0, 0) ∧ remainingAddress b = some (0, 0) ∧ a.cid = b.cid ∧ a.phase = b.phase ∧
      a.device = false ∧ b.device = false ∧ a.contribs ≤ 1 ∧ b.contribs ≤ 1 ∧ s.records = [] ∧ ∀ r ∈ s.reqs, r.id < s.nextId) ∧
    (∀ e, e = 0 ∨ e = 1 → answeredRecord (combined false [70, e] []) (record false) mergedReq 4 (2 ^ 32 - 1) ∧ (combined false [70, e] []).arg 1 = e ∧ (record false).lost = false) ∧
    (let j := [{ home := 0, merged := 60, addr := 4096, old := 2 ^ 32 - 1, contribs := [(70, ⟨50, 0, 3, 0⟩)] }];
      answeredRecord (combined true [70] j) (record true) mergedReq 4 (2 ^ 32 - 1) ∧ (record true).lost = true ∧ (combined true [70] j).journaled (record true) = true) ∧
    (answeredRecord (combined true [70] []) (record true) mergedReq 4 (2 ^ 32 - 1) ∧ (combined true [70] []).journaled (record true) = false) ∧
    (∀ p, p = .lost ∨ p = .merged 71 → let r := { heldBy 50 0 with phase := p }; let s := { on waitingGroup with reqs := [r], args := [50], fc := 2 ^ 24 };
      names s r ∧ r.gid ≠ 0 ∧ s.group? r.gid = some waitingGroup ∧ waitingGroup.live = true ∧ (waitingGroup.access? r.acc).isSome ∧ (∀ x ∈ s.reqs, x.id ≠ r.id → x.acc ≠ r.acc) ∧
      (∀ x ∈ s.spReqs, x.acc ≠ r.acc) ∧ r.fc + 2 ^ 24 ≤ s.fc ∧ s.records = []) ∧
    (let r := req (.load 4 false) .ready [] 0; let s := { base with reqs := [r], opens := [openLine], args := [32] };
      openLine.line = s.arg 0 ∧ r.line = openLine.line ∧ s.atLanding r = true ∧ r.closes openLine.tag = true ∧ 1 ≤ openLine.tag ∧ openLine.tag ≤ 13) ∧
    (let s := { base with opens := [{ openLine with evicted := [(2003, List.replicate 32 4), (2003, List.replicate 32 5)] }], args := [0, 32, 2003] };
      openLine.line = s.arg 1 ∧ nodeAbove (s.arg 2) = some 3000) ∧
    (let s := { base with opens := [openLine], args := [3, 32] }; openLine.line = s.arg 1 ∧ s.arg 2 = 0 ∧ openLine.parts = [(s.arg 0, List.replicate 32 5)] ∧ openLine.fused = []) := by
  refine ⟨by decide +kernel, ?_, ?_, ?_, ?_, by decide +kernel, by decide +kernel, by decide +kernel⟩
  · unfold answeredRecord; rintro e (rfl | rfl) <;> decide +kernel
  · unfold answeredRecord; decide +kernel
  · unfold answeredRecord; decide +kernel
  · unfold names; rintro p (rfl | rfl) <;> decide +kernel

/-! ### Slots that wake, engines, fills -/

/-- A slot parked in an instruction; the state with that group, the event's operands naming its slot A. -/
def parkedIn (i : Instr) (c : Cond) (ops : List Nat) : Slot := { runA with wait := some { instr := i, ops := ops, cond := c, done := false, turn := 0, fc := 0 } }
def slotState (x : Slot) : State := { on (withA x) with args := [1, 0], fc := 2 ^ 20 }
def spilled (c : Bool) : Slot := { runA with moving := true, spill := [{ rpc := 1, jpc := 4, mask := 1, fmt := 0, cached := c, stamp := 3 }] }
/-- A WAITW for a 64-bit word to equal a value; its watch at line 32, and the word 60 there. -/
def watchF : EF := fEF 0 7 0 1 2 4 0 192 0 1
def watcher (cmp : Nat) : Slot := parkedIn (.waitw watchF) .event [0, 0, cmp, 0]
def watch : Watch := { id := 90, gid := 1, slot := .a, addr := 4096, size := 8, written := true }
def watched (cmp : Nat) : State := { (base.storeN 4096 8 60) with groups := [withA (watcher cmp)], watches := [watch], args := [90], fc := 2 ^ 20 }
def stillState (room : Nat) : State := { ((watched 1).storeN (ctxBase 0 + 40) 8 room) with args := [1], blocks := [{ fetchBlock with stalledFc := some (2 ^ 20 - 160000) }] }

theorem witness_ParkedSlotsWake :
    (let x := parkedIn (.xch (fVR 0 7 0 2 4 0 0 1 0 0 4 3)) .event []; let s := slotState x; s.slotArg = some (by_ (withA x)) ∧ 0 + 65536 ≤ s.fc) ∧
    (let x := parkedIn (.sleep (ef 0 0 5)) (.clock 0) []; let s := slotState x; s.slotArg = some (by_ (withA x)) ∧ 0 ≤ (s.die (coreDie 0)).clock.toNat) ∧
    (let x := watcher 1; let s := slotState x; s.slotArg = some (by_ (withA x)) ∧ (withA x).life = .resident ∧ s.watches = [] ∧ (x.wait.map (·.ops.getD 3 0)) = some 0 ∧ 0 + 65536 ≤ s.fc) ∧
    (let x := { runA with refetching := some 0 }; let s := slotState x; s.slotArg = some (by_ (withA x)) ∧ s.l1 = [] ∧
      ((s.setGroup (withA { runA with refetched := [0] })).resolve 0 0 0 (s.launch (withA x)).codeK ((s.launch (withA x)).codeOff + 64 * 0) rightX).2 = .lands codeLanding) ∧
    (∀ c, c = true ∨ c = false → (slotState (spilled c)).slotArg = some (by_ (withA (spilled c))) ∧ (spilled c).moving = true ∧ (spilled c).spill.map (·.cached) = [c] ∧
      (withA (spilled c)).a.arriving = false ∧ (withA (spilled c)).b.arriving = false ∧
      (((withA (spilled c)).a.spill ++ (withA (spilled c)).b.spill).filter (·.cached)).length ≤ 2) ∧
    (∀ c, c = 60 ∨ c = 61 → let s := watched c;
      s.watches.find? (fun w => w.id == s.arg 0) = some watch ∧ s.group? watch.gid = some (withA (watcher c)) ∧ s.opens = [] ∧ (withA (watcher c)).life = .resident ∧
      s.loadN watch.addr watch.size = 60) ∧
    (wordHolds watchF 60 60 = true ∧ wordHolds watchF 60 61 = false) ∧
    (∀ room, room = 2 ^ 20 ∨ room = 0 → let s := stillState room
      ∃ b, s.block? (s.arg 0) = some b ∧ s.saveable b = decide (room ≠ 0) ∧ s.mates b = [b] ∧ b.state = .resident ∧
        (∃ g ∈ s.blockGroups b.id, g.live = true ∧ ∃ w ∈ s.watches, w.gid = g.id) ∧ bitsAt (s.ctxWord b.cid 0) 32 32 = 0 ∧ s.stoodStill b (1600 * 100) = true) :=
  ⟨⟨rfl, by decide⟩, ⟨rfl, by decide⟩, ⟨rfl, rfl, rfl, rfl, by decide⟩, ⟨rfl, rfl, by decide +kernel⟩, fun c h => by rcases h with rfl | rfl <;> decide +kernel, fun c h => by rcases h with rfl | rfl <;> decide +kernel,
   by decide, fun room h => by rcases h with rfl | rfl <;> exact ⟨_, rfl, by decide +kernel, by decide +kernel, rfl, by decide +kernel, by decide +kernel, by decide +kernel⟩⟩

/-- A copy of two elements of eight bytes, the second next; global side at offset 0x40 of the page, scratchpad at 64. -/
def element (st : Bool) : Slice := { gid := 1, store := st, k := 0, regs := [0x40, 0, 2], spad := 64, first := 0, rows := 2, record := [10 + 32, 0, 0, 0, 0, 0, 1, 0] }
def twoElements (st : Bool) : CopyReq :=
  { id := 70, block := 1, number := 0, slices := [element st], started := true, progress := 1, suspended := none, stopped := none, finished := false, told := [], raced := [], seq := 0 }
def copyState (st : Bool) : State := { withArray Matrix.empty fetchGroup with copyReqs := [twoElements st], args := [70] }
def elementLanding : Landing := { addr := fetchBase + 0x5048, mode := .coh, rights := 0x1F, device := false, leaf := fetchBase + 0x4000, room := 4024 }

def afterReach (st : Bool) : State := ((copyState st).reach 0 0 0 (if st then rightW else rightR) [(0x48, 8)]).1
theorem element_lands (st : Bool) : (copyState st).reach 0 0 0 (if st then rightW else rightR) [(0x48, 8)] = (afterReach st, .lands [(elementLanding, 8)]) := by
  cases st <;> exact Prod.ext rfl (by decide +kernel)

/-- A line request of member 0 for group 63 with a mask; a held entry past its timer; a fill. -/
def lineReq (mask : Nat) : Req := req (.mcast 63 mask) .ready [lane 0 0 256 0] 1
def lineState (mask : Nat) (ms : List Member) : State := { on fetchGroup with reqs := [lineReq mask], mgroups := [mcast ms], args := [50], nextId := 80 }
def held (mask : Nat) : Held := { id := 81, die := 0, tier := 0, label := 0, cid := 0, group := 63, mask := mask, line := 32, fc := 0, requests := [(0, 1, 256)], spent := false, waiting := [] }
def aFill (reason : Nat) : Fill := { id := 82, gid := 1, group := 63, core := 0, object := 64, dest := 128, bytes := List.replicate 128 9, reason := reason, tier := 3 }
def fillState (reason : Nat) : State := { withArray Matrix.empty fetchGroup with fills := [aFill reason], args := [82] }

theorem home32 : remoteOf (128 * 32) = none := by decide +kernel
theorem standing32 (s : State) : standing s 32 0 := fun _ h => nomatch home32.symm.trans h

theorem witness_EnginesAndFills :
    (∀ st, lastElement (copyState st) (twoElements st) (element st) 1 fetchGroup ∧ (element st).size = 8 ∧ (element st).gaddr 1 = 0x48 ∧
      (copyState st).reach 0 0 0 (if st then rightW else rightR) [(0x48, 8)] = (afterReach st, .lands [(elementLanding, 8)]) ∧ elementLanding.device = false ∧ (afterReach st).egressOn fetchGroup.id elementLanding.addr = false ∧ (afterReach st).opens = [] ∧
      (afterReach st).staleCopies = [] ∧ (afterReach st).l1 = [] ∧ (element st).saddr 1 + 8 ≤ ((afterReach st).allot 0 1).2 ∧ (afterReach st).allot 0 1 = (copyState st).allot 0 1 ∧
      elementLanding.addr % 128 + 8 ≤ 128 ∧ (afterReach st).grantedAlone elementLanding.mode 0 (lineOf elementLanding.addr) = true ∧ ((copyState st).core 0).poisoned = []) ∧
    (∀ mask ms, (mask, ms) = (2, [member 0 1, member 1 2]) ∨ (mask, ms) = (3, [member 0 1, member 1 2]) ∨ (mask, ms) = (1, [member 0 1]) →
      let s := lineState mask ms; let r := lineReq mask
      names s r ∧ r.phase = .ready ∧ s.servable r = true ∧ s.opens = [] ∧ s.poison = [] ∧ s.helds = [] ∧ s.mgroup? (coreDie r.core) r.cid 63 = some (mcast ms) ∧
      ms.find? (fun x => x.gid == r.gid && !x.leaving) = some (member 0 1) ∧ s.group? r.gid = some fetchGroup ∧ fetchGroup.core = r.core ∧ s.egressOn r.gid (128 * r.line) = false ∧ standing s r.line 0 ∧
      ms.find? (fun y => y.index == 0 && y.gid == r.gid) = some (member 0 1)) ∧
    (∀ mask ms, (mask, ms) = (3, [member 0 1, member 1 2]) ∨ (mask, ms) = (1, [member 0 1]) →
      let s := { on fetchGroup with mgroups := [mcast ms], helds := [held mask], args := [81], fc := 4096 }
      (held mask).id = s.arg 0 ∧ s.mgroup? 0 0 63 = some (mcast ms) ∧ (held mask).fc + (mcast ms).timer ≤ s.fc ∧ s.opens = [] ∧ s.poison = [] ∧ standing s 32 0 ∧ s.group? 1 = some fetchGroup ∧
      ms.find? (fun y => y.index == 0 && y.gid == 1) = some (member 0 1)) ∧
    (∀ n, n = 0 ∨ n = 15 → let s := fillState n;
      s.fills.find? (fun f => f.id == s.arg 0) = some (aFill n) ∧ s.group? (aFill n).gid = some fetchGroup ∧ s.helds = [] ∧ (s.core (aFill n).core).spoiled = [] ∧ (aFill n).bytes.length = 128 ∧
      (aFill n).dest + 128 ≤ (s.allot 0 1).2 ∧ (aFill n).object + 16 ≤ (s.allot 0 1).1 + (aFill n).dest ∧ (aFill n).tier < 4) ∧
    (let s := { base with args := [511, 128], fc := 1600000 }; s.arg 0 < 512 ∧ s.coreRuns (s.arg 0) = true ∧ (s.matrix (s.arg 0)).lastTestFc + 1600000 ≤ s.fc) := by
  refine ⟨fun st => ?_, ?_, ?_, ?_, by decide +kernel⟩
  · refine ⟨by unfold lastElement; cases st <;> decide +kernel, ?_⟩
    refine ⟨by cases st <;> decide, by cases st <;> decide +kernel, element_lands st, rfl, ?_⟩
    cases st <;> decide +kernel
  · rintro mask ms (h | h | h) <;> cases h <;>
      exact ⟨rfl, by decide +kernel, by decide +kernel, by decide +kernel, by decide +kernel, by decide +kernel, by decide +kernel, by decide +kernel, by decide +kernel, by decide +kernel,
        by decide +kernel, standing32 _, by decide +kernel⟩
  · rintro mask ms (h | h) <;> cases h <;>
      exact ⟨by decide +kernel, by decide +kernel, by decide +kernel, by decide +kernel, by decide +kernel, standing32 _, by decide +kernel, by decide +kernel⟩
  · rintro n (rfl | rfl) <;> decide +kernel

/-! ### Works and placement -/

/-- Hardware queue 15: a ring of two packets at 1 MiB, its write and read index, ERR; its first packet's word 0. -/
def queue (wr rd st w0 : Nat) (args : List Nat) : State :=
  let b := queueBlock 15
  let s := ((((base.setReg b (2 ^ 20)).setReg (b + 8) 1).setReg (b + 0x10) (BitVec.ofNat 64 wr)).setReg (b + 0x18) (BitVec.ofNat 64 rd)).setReg (b + 0x20) 1
  { (s.setReg (b + 0x28) (BitVec.ofNat 64 st)).storeN (2 ^ 20 + 64 * (rd % 2)) 8 w0 with args := args }

theorem queue_reads : readsPacket (queue 1 0 0 0 [15]) 15 ∧ readsPacket (queue 1 0 0 15 [15]) 15 ∧ readsPacket (queue 1 0 0 (12 + 2 ^ 31) [15]) 15 ∧ readsPacket (queue 1 0 0 12 [15]) 15 := by
  unfold readsPacket hasPacket; decide +kernel

/-- A work; a die window of context 0 that a label stack reaches. -/
def work (k : WorkKind) : Work :=
  { id := 9, kind := k, queue := 3, dsq := false, index := 0, cid := 0, band := 1, ser := false, k := windowK 3, words := (List.range 8).map (fun i => BitVec.ofNat 64 (i * 1000)), done := 0, node := none,
    preds := [], home := none, grid := none, parent := none, octet := none, started := false, copied := 0, result := none, status := none }
def win : Window := { id := 3, grid := 1, path := [0], cid := 0, die := 0, bytes := 65536, k := windowK 3 }
def working (w : Work) (args : List Nat) : State := { base with works := [w], windows := [win], args := args }
def winLanding (off : Nat) : Landing := { addr := windowBase 3 + off, mode := .urm, rights := 11, device := false, leaf := 0, room := 65536 - off }

/-- A COPY of 4,000 bytes with one left, from 2,000 to 3,000. -/
def copyWork : Work := { work .copy with octet := some 2, copied := 3999 }
def copyFrom : State := ((working copyWork [9]).unitReach (fdieCore + 3) 9 0 64 (windowK 3) rightR [(5999, 1)]).1
def copyTo : State := (copyFrom.unitReach (fdieCore + 3) 9 0 64 (windowK 3) rightW [(6999, 1)]).1
theorem copy_from : (working copyWork [9]).unitReach (fdieCore + 3) 9 0 64 (windowK 3) rightR [(5999, 1)] = (copyFrom, .lands [(winLanding 5999, 1)]) := Prod.ext rfl (by decide +kernel)
theorem copy_to : copyFrom.unitReach (fdieCore + 3) 9 0 64 (windowK 3) rightW [(6999, 1)] = (copyTo, .lands [(winLanding 6999, 1)]) := Prod.ext rfl (by decide +kernel)

/-- A work whose completion value goes to offset 65,528 of the window; a device-side queue whose ring is in the window. -/
def doneWork : Work := { work .marker with done := 65528 }
def doneReach : State := (((working doneWork [9]).countCompletion doneWork).reach 0 fdieCore (windowK 3) rightW [(65528, 8)]).1
theorem done_reach : ((working doneWork [9]).countCompletion doneWork).reach 0 fdieCore (windowK 3) rightW [(65528, 8)] = (doneReach, .lands [(winLanding 65528, 8)]) := Prod.ext rfl (by decide +kernel)
def dsqState : State := { (dsq 6 5 true).storeN (fetchBase + 0x20000 + 32 * 63) 8 (windowK 3).toNat with windows := [win], args := [0, 63] }
theorem triple_ok {α β γ : Type} {x : α × β × γ} {b : β} (h : x.2.1 = b) : x = (x.1, b, x.2.2) := by subst h; rfl
theorem dsq_packet : ∃ s' ls p, dsqState.dsqPacket 0 63 5 = (s', .lands ls, p) ∧ p.getD 0 0 / 8 % 2 = 0 :=
  ⟨_, [(winLanding 64, 64)], _, triple_ok (by decide +kernel), by decide +kernel⟩

theorem witness_WorkSubmission :
    (let s := queue 5 (2 ^ 32 - 1) 0 0 [15, 1]; s.arg 0 < 16 ∧ (s.arg 1 % 2 ^ 32 + 2 ^ 32 - s.field (queueBlock 15 + 0x18) 0 32) % 2 ^ 32 = 2 ^ s.field (queueBlock 15 + 8) 0 5) ∧
    (let s := queue 5 (2 ^ 32 - 1) 0 0 [15, 2]; s.arg 0 < 16 ∧ 2 ^ s.field (queueBlock 15 + 8) 0 5 < (s.arg 1 % 2 ^ 32 + 2 ^ 32 - s.field (queueBlock 15 + 0x18) 0 32) % 2 ^ 32) ∧
    (let s := queue 5 5 2 0 [15]; s.arg 0 < 16 ∧ s.field (queueBlock 15 + 0x28) 1 1 = 1) ∧
    (let s := { queue 1 0 0 0 [15] with works := List.replicate 4096 (work .marker) }; hasPacket s (s.arg 0) ∧ s.poolFull = true) ∧
    (readsPacket (queue 1 0 0 0 [15]) 15 ∧ packetWord (queue 1 0 0 0 [15]) 15 0 / 8 % 2 = 0) ∧
    (readsPacket (queue 1 0 0 15 [15]) 15 ∧ packetWord (queue 1 0 0 15 [15]) 15 0 = 15) ∧
    (readsPacket (queue 1 0 0 (12 + 2 ^ 31) [15]) 15 ∧ packetWord (queue 1 0 0 (12 + 2 ^ 31) [15]) 15 0 = 12 + 2 ^ 31) ∧
    (readsPacket (queue 1 0 0 12 [15]) 15 ∧ ∀ i < 8, packetWord (queue 1 0 0 12 [15]) 15 i = if i = 0 then 12 else 0) ∧
    (opened (working (work .host) [9]) (work .host) ∧ (work .host).started = false ∧ (working (work .host) [9]).dispatches = true) ∧
    (let w := { work .host with started := true }; let s := working w [3]; s.works.find? (fun w => w.kind == .host && !w.dsq && w.queue == s.arg 0 && w.started && w.result.isNone) = some w) ∧
    (opened (working copyWork [9]) copyWork ∧ (working copyWork [9]).dispatches = true ∧ (working copyWork [9]).engineHeld 2 = false ∧ copyWork.copied + 1 = (copyWork.words.getD 4 0).toNat % 2 ^ 40 ∧
      (working copyWork [9]).unitReach (fdieCore + 3) 9 0 64 (windowK 3) rightR [(5999, 1)] = (copyFrom, .lands [(winLanding 5999, 1)]) ∧
      copyFrom.unitReach (fdieCore + 3) 9 0 64 (windowK 3) rightW [(6999, 1)] = (copyTo, .lands [(winLanding 6999, 1)]) ∧ uncached copyTo ∧
      copyTo.grantedAlone .urm 0 ((winLanding 6999).addr / 128) = true ∧ copyTo.work? 9 = some copyWork ∧ copyTo.works = [copyWork]) ∧
    (dsqState.ctxValid 0 = true ∧ dsqState.dsqEnabled 0 63 = true ∧ dsqState.dsqRd 0 63 ≠ dsqState.dsqW 0 63 ∧ dsqState.poolFull = false ∧ dsqState.poolWait = [] ∧ dsqState.dsqWait = [] ∧
      ∃ s' ls p, dsqState.dsqPacket 0 63 5 = (s', .lands ls, p) ∧ p.getD 0 0 / 8 % 2 = 0) ∧
    (let s := { base with dsqWait := [(0, 63, 0)], args := [0, 63], fc := 65536 }; s.dsqWait.find? (fun e => e.1 == s.arg 0 && e.2.1 == s.arg 1) = some (0, 63, 0) ∧ 0 + 65536 ≤ s.fc) ∧
    (let w := doneWork; let s := working w [9]; s.work? (s.arg 0) = some w ∧ w.grid = none ∧ w.parent = none ∧ s.finalStatus w = some 0 ∧ w.done ≠ 0) ∧
    ((((working doneWork [9]).countCompletion doneWork).reach 0 fdieCore (windowK 3) rightW [(65528, 8)] = (doneReach, .lands [(winLanding 65528, 8)])) ∧
      uncached doneReach ∧ doneReach.l2 = [] ∧ doneReach.grantedAlone .urm 0 ((winLanding 65528).addr / 128) = true) := by
  obtain ⟨h1, h2, h3, h4⟩ := queue_reads
  refine ⟨by decide +kernel, by decide +kernel, by decide +kernel, ⟨by unfold hasPacket; decide +kernel, by decide +kernel⟩, ⟨h1, by decide +kernel⟩, ⟨h2, by decide +kernel⟩, ⟨h3, by decide +kernel⟩, ⟨h4, by decide +kernel⟩, ⟨⟨rfl, by decide +kernel, rfl⟩, rfl, by decide +kernel⟩, by decide +kernel,
    ⟨⟨rfl, by decide +kernel, rfl⟩, by decide +kernel, by decide +kernel, by decide +kernel, copy_from, copy_to, by unfold uncached; decide +kernel, by decide +kernel, by decide +kernel, by decide +kernel⟩,
    ⟨by decide +kernel, by decide +kernel, by decide +kernel, by decide +kernel, rfl, rfl, dsq_packet⟩, by decide +kernel, by decide +kernel, done_reach, by unfold uncached; decide +kernel, by decide +kernel, by decide +kernel⟩

/-- A grid still to place, of a ready kernel; one that holds its block; every cluster to be gated, so that nothing fits. -/
def kernelWork : Work := { work .kernel with grid := some 1 }
def freshGrid (band : Nat) : Grid := { fetchGrid with work := 9, band := band, placed := [], readyFc := some 0 }
def placing (args : List Nat) : State := { base with groups := [], blocks := [], grids := [freshGrid 1], works := [kernelWork], args := args, fc := 160000000 }
def closing (s : State) : State := (List.range 4).foldl (fun s d => s.setReg (clgateReg d) 0xFFFFFFFF) s
def homed : Grid := { freshGrid 1 with homeDie := some 3 }

/-- A gang of two blocks on one die. -/
def gangLaunch : Launch := { fetchLaunch with top := 3, levels := [{ window := 0, count := 1, gang := false, scope := 1, domain := 2 }, { window := 0, count := 2, gang := true, scope := 4, domain := 5 }] }
def gangGrid : Grid := { freshGrid 0 with launch := gangLaunch }
def gang (inst : Option Nat) : Gang := { grid := 1, path := [0], sinceFc := 0, inst := inst, failed := false }
def gangState (args : List Nat) : State := closing { placing args with grids := [gangGrid], gangs := [gang none] }

/-- A resident block of band 3, for whose image there is room; the same being saved, saved, retired. -/
def lowGrid : Grid := { fetchGrid with id := 2, band := 3 }
def lowBlock (st : BlockState) : Block := { fetchBlock with grid := 2, state := st }
def lowState (st : BlockState) (gs : List Group) (args : List Nat) : State :=
  { (base.storeN (ctxBase 0 + 40) 8 (2 ^ 20)) with groups := gs, blocks := [lowBlock st], grids := [freshGrid 0, lowGrid], works := [kernelWork], args := args, fc := 160000000 }
def savedGroup : Group := { fetchGroup with life := .saved }
def endedGroup : Group := { fetchGroup with life := .retired }

theorem witness_WorkPlacement :
    (let s := placing [1, 511, 0]; let x := freshGrid 1; s.grid? (s.arg 0) = some x ∧ s.gridPlaces x = true ∧ x.legalPath [0] = true ∧ x.placed = [] ∧ s.fitsAt [] x [0] 511 = true ∧
      s.othersFirst (x.band, 2, x.order) = false ∧ x.launch.wholeLevel = x.launch.blockLevel) ∧
    (let s := { closing (placing [1]) with grids := [homed], fc := 32000 }; let x := homed; s.grid? (s.arg 0) = some x ∧ s.gridPlaces x = true ∧ x.anyDie = false ∧ x.homeDie.isSome = true ∧
      max x.affinityFc (x.readyFc.getD 0) + 32000 ≤ s.fc ∧ x.waiting = [[0]] ∧ s.fitsSomewhere [] x [0] = false) ∧
    (let s := closing (lowState .resident [fetchGroup] [1]); let b := lowBlock .resident; s.block? (s.arg 0) = some b ∧ s.preemptible b = true ∧ s.blocks = [b] ∧ freshGrid 0 ∈ s.grids ∧
      s.gridPlaces (freshGrid 0) = true ∧ [0] ∈ (freshGrid 0).waiting ∧ (freshGrid 0).band < s.bandOf b ∧ s.fitsSomewhere s.saving (freshGrid 0) [0] = false) ∧
    (let s := lowState .saving [fetchGroup] [1]; let b := lowBlock .saving; s.block? (s.arg 0) = some b ∧ s.saveReady b = true ∧ b.cores = [0] ∧ ∀ g ∈ s.groups, g.live = true) ∧
    (let s := { lowState .saved [savedGroup] [1, 127] with grids := [lowGrid] }; let b := lowBlock .saved; s.block? (s.arg 0) = some b ∧ s.args = [b.id, s.arg 1] ∧ s.wholeUnitOf b [b.id] = true ∧
      s.resumesAt b 127 = true ∧ savedGroup.a.resumed.arriving = false ∧ savedGroup.b.resumed.arriving = false ∧ s.othersFirst (s.blockRank b) = false ∧ s.reqs = [] ∧ savedGroup.block = b.id ∧ savedGroup.life = .saved) ∧
    (let s := gangState [1, 0, 0]; let x := gangGrid; s.grid? (s.arg 0) = some x ∧ s.gangWaits x [0] = true ∧ 1600000 ≤ s.gangAge x [0] ∧ s.gang? x.id [0] = some (gang none) ∧ s.olderGang (gang none) = false ∧
      s.reservable x [0] = [0, 1, 2, 3] ∧ ∀ j ∈ [0, 1, 2, 3], s.freeCores x.launch 5 j = 0) ∧
    (let g := gang (some 0); let s := { closing (lowState .resident [fetchGroup] [1, 0]) with grids := [gangGrid, lowGrid], gangs := [g] }; let x := gangGrid; let l := x.launch
      s.grid? (s.arg 0) = some x ∧ s.gang? x.id [0] = some g ∧ s.gangWaits x [0] = true ∧ 16000000 ≤ s.gangAge x [0] ∧ l.holdsAt (s.placeRoom s.saving l) s.windowRoom (l.wholeLevel - l.blockLevel) 0 = 0 ∧
      s.blocks.filter (fun b => s.preemptible b && instanceOf (l.domainAt l.wholeLevel) (b.cores.headD 0) == 0) = [lowBlock .resident]) ∧
    (let s := gangState [1, 0]; s.grid? (s.arg 0) = some gangGrid ∧ s.gangWaits gangGrid [0] = true ∧ 160000000 ≤ s.gangAge gangGrid [0]) ∧
    (let s := lowState .retired [endedGroup] [1]; let b := lowBlock .retired; s.block? (s.arg 0) = some b ∧ (∀ g ∈ s.groups, g.block = b.id → g.accs = []) ∧ s.blockQuiet b = true ∧ s.l1 = []) := by
  refine ⟨?_, ?_, ?_, ?_, ?_, ?_, ?_, ?_, ?_⟩ <;> decide +kernel

/-! ### Contexts, Scorepad and the Fuash port -/

/-- A record of a context, and one retired under a number. -/
def meter (cid seq : Nat) (rd : Bool) : Meter := { cid := cid, words := List.replicate 16 1, pj := 999999, read := rd, seq := seq }
def fleetOf (live retired overflow : List Meter) : Fleet := { base.fleet with live := live, retired := retired, overflow := overflow, nextSeq := 2 ^ 32 - 1 }
def metering (live retired overflow : List Meter) (args : List Nat) : State := { base with fleet := fleetOf live retired overflow, args := args, fc := 1600000 }
/-- The negotiation at a stage. -/
def negotiating (stage : Nat) (args : List Nat) : State := { base with fleet := { base.fleet with spdm := stage }, boot := { base.boot with log := [([1, 2, 3], 1, 5)], identity := 2 }, args := args }

theorem witness_ContextsAndMetering :
    (let s := metering [] [] (List.replicate 255 (meter 1 5 false)) [65535]; s.arg 0 = 65535 ∧ s.meter? 65535 = none ∧ s.fleet.overflow.length = 255) ∧
    (let s := metering [] [] (List.replicate 256 (meter 1 5 false)) [65535]; s.arg 0 = 65535 ∧ s.meter? 65535 = none ∧ 256 ≤ s.fleet.overflow.length ∧ 65535 ∉ s.fleet.heldValid) ∧
    (let s := metering [] [] [] [0]; s.ctxValid (s.arg 0) = true) ∧
    (let s := metering [meter 7 0 false] [meter 1 5 true] [] [7]; s.meter? (s.arg 0) = some (meter 7 0 false) ∧ s.ctxValid 7 = false ∧ s.works = [] ∧ (∀ g ∈ s.groups, g.cid ≠ 7) ∧
      s.fleet.retired.length < 16384 ∧ s.fleet.overflow = [] ∧ (meter 7 0 false).words.length = 16) ∧
    (let s := { metering [meter 7 0 false, meter 8 0 false] [] [] [10, 3, 1, 1000001] with boot := { base.boot with powered := true } }; s.boot.powered = true ∧ s.fleet.closedFc + 1600000 ≤ s.fc ∧ (s.args.drop 2).length = s.fleet.live.length) := by
  refine ⟨?_, ?_, ?_, ?_, ?_⟩ <;> decide +kernel

theorem witness_FuashPort :
    (let s := metering [] [] [] [255, 0, 0, 0]; ∀ n ∈ [1, 2, 3], s.args.length ≠ n) ∧
    (let s := metering [] [meter 1 5 false] [] [255]; s.arg 0 < 256 ∧ s.args.length = 1 ∧ s.fleet.retired = [meter 1 5 false] ∧ s.boot.sensors = [] ∧ s.field pmstat 12 2 ≠ 3) ∧
    (let s := { (base.setField pmstat 12 2 3) with args := [0] }; s.arg 0 < 256 ∧ s.args.length = 1 ∧ s.field pmstat 12 2 = 3 ∧ s.field pmstat 15 1 ≠ 1) ∧
    (let s := metering [] [] [] [255, 65535]; s.args.length = 2 ∧ s.arg 1 = 65535 ∧ s.meter? 65535 = none) ∧
    (let s := metering [meter 65535 0 false] [] [] [255, 65535]; s.args.length = 2 ∧ s.meter? (s.arg 1) = some (meter 65535 0 false) ∧ (meter 65535 0 false).words.length = 16) ∧
    (let s := metering [] [meter 1 5 true, meter 1 6 false] [meter 1 7 false] [255, 2 ^ 32 - 1]; s.args.length = 2 ∧ s.arg 1 < 2 ^ 32 ∧ s.fleet.nextSeq ≤ s.arg 1) ∧
    (let s := metering [] [meter 1 5 true, meter 1 6 false] [meter 1 7 false] [255, 6]; s.args.length = 2 ∧ s.arg 1 < 2 ^ 32 ∧ s.arg 1 < s.fleet.nextSeq) ∧
    (∀ n ∈ [599, 600, 2000, 2001], (metering [] [] [] [0, n]).arg 1 = n ∧ (metering [] [] [] [0, n]).args.length = 2) ∧
    (let s := { (base.setField bootstat 20 4 10) with args := [0, 1023] }; s.args.length = 2 ∧ s.arg 1 < 1024 ∧ 10 ≤ s.field bootstat 20 4) ∧
    (let s := { (base.setField bootstat 20 4 9) with args := [0, 1023] }; s.args.length = 2 ∧ s.arg 1 < 1024 ∧ s.field bootstat 20 4 < 10) ∧
    (let s := metering [] [meter 1 5 true, meter 1 6 false] [] [255, 5, 8]; s.args.length = 3 ∧ s.arg 1 < 2 ^ 32 ∧ 1 ≤ s.arg 2 ∧ s.arg 2 ≤ 8) ∧
    (∀ a ∈ [5, 0x7F, 1], (negotiating 0 [a, 10]).arg 0 = a) ∧ (∀ n ∈ [1, 2, 3], (negotiating n [1, 1]).fleet.spdm = n ∧ (negotiating n [1, 1]).arg 0 ≠ 0 ∧ (negotiating n [1, 1]).arg 1 ≠ 0) ∧
    (let s := negotiating 3 (0 :: List.replicate 32 255); s.fleet.spdm = 3 ∧ s.boot.identity = 2 ∧ s.arg 0 = 0 ∧ s.args.length = 33) ∧
    (let s := { negotiating 3 [0] with boot := base.boot }; s.fleet.spdm = 3 ∧ s.boot.identity ≠ 2) ∧
    (let s := negotiating 3 [1]; 1 ≤ s.arg 0 ∧ s.arg 0 < 0xFE ∧ s.boot.log[s.arg 0 - 1]? = some ([1, 2, 3], 1, 5)) ∧
    (let s := negotiating 3 [0xFD]; s.arg 0 ≠ 0 ∧ s.arg 0 ≠ 0xFE ∧ s.boot.log[s.arg 0 - 1]? = none) ∧ (negotiating 3 [0xFE]).arg 0 = 0xFE := by
  refine ⟨?_, ?_, ?_, ?_, ?_, ?_, ?_, ?_, ?_, ?_, ?_, ?_, ?_, ?_, ?_, ?_, ?_, ?_⟩ <;> decide +kernel

/-! ### Owners' commands -/

/-- A command of DIE instance 3 that names its last label; the entry's and the block's words. -/
def command (old new : Nat) (args : List Nat) : State :=
  { (base.setReg (dieBlock 3 + 0x10) (BitVec.ofNat 64 new)).storeN (32 * 32767) 8 old with args := args }
def owner : List Nat := [1, 3, 32767]
def tierCmd (op : Nat) : TierCmd := { tier := .die, inst := 3, op := op, cid := 0, label := 32767, fc := 0 }

/-- A load of the group that passed that entry, at its landing, suspended, or merged. -/
def passing (p : Phase) : Req := { req (.load 4 false) p [lane 0 0 0 1] 1 with passed := [(1, 3, 32767)] }
def passingState (p : Phase) (args : List Nat) : State := { command 0 0 args with groups := [waitingGroup], reqs := [passing p], fc := 2 ^ 60 }
def suspendedPhase : Phase := .suspended failing (some 2) 0
def verdictTag : Nat := (base.tagOf (passing suspendedPhase)).toNat
def waitingCopy : CopyReq := { copying 0 with suspended := some (failing, 0) }

/-- A shootdown of the page at 4,096, of a module that caches a line in it and has a store to it due. -/
def shooting (rs : List Req) (cs : List TierCmd) : State :=
  { ((base.setField (dieBlock 3 + 0x30) 12 36 1).setField (dieBlock 3 + 0x38) 0 36 1) with l1 := [copyOf 3 1, { copyOf 4 1 with line := 64 }], reqs := rs, cmds := cs, args := [1, 3] }

/-- A page table in DRAM whose first page is valid, dirty and backed by a file, its write pending. -/
def pages : State :=
  (((base.storeN 0x1000 8 0x20001).storeN 0x2000 8 0x30001).storeN 0x3000 8 0x40001).storeN 0x4000 8 (5 * 2 ^ 16 + 2 ^ 11 + 2 ^ 10 + 2 ^ 4 + 3)
def pagesWalk : State × Walked := pages.walk 0 0x1000 0 4
def leafState (v : Nat) (a : Nat) : State := { base.storeN 0x4000 8 v with storage := [(0x4000, 7, 1)], args := [a] }

theorem passing_fails (p : Phase) (args : List Nat) : mayFail (passingState p args) (passing p) :=
  ⟨Nat.one_ne_zero, (by decide : 0 < fdieCore), rfl, (by decide : ReqKind.load 4 false ≠ .prf), waitingGroup, _, rfl, rfl, rfl, rfl⟩

theorem witness_OwnersCommands :
    (let s := command 4 0 owner; commands s .die 3 32767 ∧ 32767 < s.tableSize .die 3 ∧ s.opens = [] ∧ s.running 2 = none ∧ (s.entryInMem .die 3 32767).hold = true) ∧
    (let s := command 3 0 owner; commands s .die 3 32767 ∧ (s.entryInMem .die 3 32767).hold = false ∧ (s.entryInMem .die 3 32767).act ≠ 0) ∧
    (let s := command 0 (2 ^ 11) owner; commands s .die 3 32767 ∧ (s.entryInMem .die 3 32767).act = 0 ∧ Entry.malformed { w0 := 2 ^ 11, w1 := 0, w2 := 0, w3 := 0 } .die = true ∧
      (s.reg (tierBlock .die 3 + 0x10)).toNat = 2 ^ 11) ∧
    (let s := command 0 0 owner; commands s .die 3 32767 ∧ (s.entryInMem .die 3 32767).act = 0 ∧ Entry.malformed { w0 := 0, w1 := 0, w2 := 0, w3 := 0 } .die = false) ∧
    (let s := passingState .ready owner; commands s .die 3 32767 ∧ s.reqs = [passing .ready] ∧ mayFail s (passing .ready) ∧ (passing .ready).passed.contains (1, 3, 32767) = true) ∧
    (let s := { command 0 0 owner with cmds := [tierCmd 2], fc := 2 ^ 60 }; s.running 2 = some (tierCmd 2) ∧ s.inFlight .die 3 32767 = [] ∧ 0 + 1600 * s.field (dieBlock 3 + 0x40) 0 32 ≤ s.fc) ∧
    (let s := shooting [req (.store 4) .ready [lane 0 0 7 0] 1] []; s.args.length = 2 ∧ tierOf (s.arg 0) = some .die ∧ s.arg 1 < 4 ∧ s.shootArgs .die 3 = (4096, 4096) ∧ s.running 3 = none ∧
      s.field (dieBlock 3 + 8) 0 1 = 0 ∧ s.storesDue 4096 4096 = true) ∧
    (∀ cs ∈ [[], [tierCmd 3]], let s := shooting [] cs; s.running 3 = cs.head? ∧ s.field (dieBlock 3 + 8) 0 1 = 0 ∧ s.storesDue 4096 4096 = false ∧ (∀ l ∈ s.l1, l.dirty = []) ∧ s.opens = [] ∧
      s.l1.Pairwise (fun l m => l.same m = false)) ∧
    (let s := { base with args := [2, verdictTag] }; s.arg 0 < 3 ∧ s.reqs = [] ∧ s.copyAwaiting 2 (BitVec.ofNat 64 verdictTag) = none) ∧
    (let s := passingState suspendedPhase [2, verdictTag]; s.awaitsVerdict 2 (BitVec.ofNat 64 verdictTag) (passing suspendedPhase) = true ∧ mayFail s (passing suspendedPhase) ∧
      s.reqs = [passing suspendedPhase] ∧ s.group? 1 = some waitingGroup ∧ waitingGroup.life = .resident) ∧
    (let s := { base with copyReqs := [waitingCopy], args := [tierQueue 1, 0] }; s.arg 0 < 3 ∧ s.reqs = [] ∧ s.copyAwaiting (s.arg 0) 0 = some (waitingCopy, failing)) ∧
    (let s := passingState suspendedPhase [50]; names s (passing suspendedPhase) ∧ mayFail s (passing suspendedPhase) ∧ 0 + 1600 * s.field (faultBlock (min 2 2) + 0x38) 0 32 ≤ s.fc) ∧
    (let s := { base.setField (dieBlock 3 + 0x40000) 63 1 1 with args := [3] }; s.arg 0 < 4 ∧ s.field (dieBlock 3 + 0x40000) 63 1 = 1 ∧ (s.die 3).scanFc = none ∧ s.dies.length = 4 ∧
      s.field (dieBlock 3 + 0x40000) 32 8 = 0) ∧
    (let w := pagesWalk.2; w.found = true ∧ w.addr = 0x4000 ∧ w.value = pages.loadN w.addr 8 ∧ w.value / 2 ^ 4 % 2 = 1 ∧ w.value / 2 ^ 10 % 2 = 1 ∧ w.value / 2 ^ 11 % 2 = 1 ∧
      pages.storage.length < 4096 ∧ uncached pages ∧ pages.l2 = []) ∧
    (∀ e ∈ [(0, 0), (2 ^ 4, 1), (2 ^ 10, 1)], let s := leafState e.1 e.2; s.storage = [(0x4000, 7, 1)] ∧ s.arg 0 = e.2 ∧ s.loadN 0x4000 8 = e.1 ∧ s.opens = [] ∧ uncached s ∧ s.l2 = []) := by
  unfold commands uncached names
  refine ⟨?_, ?_, ?_, ?_, ⟨?_, rfl, passing_fails _ _, ?_⟩, ?_, ?_, ?_, ?_, ⟨?_, passing_fails _ _, rfl, rfl, rfl⟩, ?_, ⟨rfl, passing_fails _ _, ?_⟩, ?_, ?_, ?_⟩ <;> decide +kernel

/-! ### Containment -/

/-- Die 0's message to a domain, unacknowledged for a copy of line 32 there. -/
def message (to_ resends : Nat) : Control := { sender := 0, receiver := to_, seq := 1, fc := 0, resends := resends, acted := false }
def silent (to_ resends : Nat) (args : List Nat) : State :=
  { base with controls := [message to_ resends], staleCopies := [{ die := to_, line := 32, bytes := List.replicate 128 0, writers := [] }], args := args, fc := 1600000 }
def resetting (e : Bool) (args : List Nat) : State := { base with dieReset := some { die := 3, fc := 0, evacuated := e }, args := args, fc := 160000000 }
def egressPhase : Phase := .egress 0
/-- A link register; a link that retrains. -/
def linkState (v : DWord) (n : Nat) (args : List Nat) : State :=
  { ((base.setReg (dieBlock 3 + 0x60000 + 8 * n) v).setField bootstat 20 4 12).setField (spctl (9 + (n - 3))) 0 1 1 with args := args }
def retrainState : State := { base with dies := base.dies.set 3 { Die.reset with retraining := [5] }, args := [3, 5] }
def bankState (n : Nat) : State := { base with cores := [(511, { Core.reset with banks := (List.replicate 35 0) ++ [n] })], args := [511, 35] }

theorem base_numbered (s : State) (hg : s.groups = [fetchGroup] ∨ s.groups = []) (hd : s.dies.length = 4) (hi : s.incarnations.length = 5) : numbered s :=
  ⟨by rcases hg with h | h <;> rw [h] <;> simp, hd, hi⟩

theorem witness_Containment :
    (let s := silent 1 8 [0, 1]; s.controls.find? (fun c => c.sender == s.arg 0 && c.receiver == s.arg 1) = some (message 1 8) ∧ unacknowledged s (message 1 8) ∧ 0 + 65536 ≤ s.fc) ∧
    (∀ d, d = 3 ∨ d = 4 → let s := silent d 9 [d]; numbered s ∧ s.arg 0 = d ∧ message d 9 ∈ s.controls ∧ unacknowledged s (message d 9) ∧ 0 + 1600000 ≤ s.fc ∧ (s.die d).lost = false) ∧
    (let s := { far with args := [263] }; 256 ≤ s.arg 0 ∧ s.remote? (s.arg 0 - 256) = some pool7 ∧ pool7.dead = false ∧ s.reqs = []) ∧
    (let s := { base with incarnations := [1, 0, 0, 0, 0], args := [0, 0] }; s.arg 1 < s.incarnation (s.arg 0)) ∧
    (let s := { base with args := [3] }; s.field dierst 3 1 = 0 ∧ s.field pmstat 14 1 = 0) ∧
    (let s := { lowState .resident [fetchGroup] [0] with grids := [lowGrid] }; s.field dierst 3 1 = 0 ∧ s.field pmstat 14 1 = 0 ∧ s.blocks = [lowBlock .resident] ∧ s.saveable (lowBlock .resident) = true) ∧
    (∀ e, e = true ∨ e = false → let s := { resetting e [0] with blocks := [] }; numbered s ∧ s.dieReset = some { die := 3, fc := 0, evacuated := e } ∧ s.blocks = [] ∧ uncached s ∧ 0 + 160000000 ≤ (resetting e [0]).fc) ∧
    (let s := passingState egressPhase [50]; names s (passing egressPhase) ∧ mayFail s (passing egressPhase) ∧ 0 + 1600000000 ≤ s.fc) ∧
    (∀ v : DWord, v = 0x80000000FFFFFFFF ∨ v = 0x8000000000000000 → let s := linkState v 5 [3, 5]; s.arg 0 < 4 ∧ s.arg 1 < 6 ∧ s.dies.length = 4 ∧ s.field (dieBlock 3 + 0x60000 + 8 * 5) 63 1 = 1) ∧
    (5 ∈ (retrainState.die (retrainState.arg 0)).retraining) ∧
    (∀ n, n = 2 ∨ n = 5 → let s := linkState 0 n [3, n, 7, 1]; s.field (dieBlock 3 + 0x60000 + 8 * n) 63 1 = 0 ∧ (s.die 3).lost = false ∧ (s.die 3).disabled = false ∧ s.field bootstat 20 4 ≠ 0 ∧
      (n = 5 → s.field (spctl 11) 0 1 = 1) ∧ 7 ≠ s.field modid 0 10 ∧ s.args.length = 4) ∧
    (let s := { base with l2 := [{ die := 3, line := 2 ^ 30 - 1, cid := 0, k := 0, off := 0, ch := 0, sectors := 15 }], args := [2 ^ 30 - 1, 1] };
      s.populated (128 * (2 ^ 30 - 1)) = true ∧ paNode (128 * (2 ^ 30 - 1)) < 4 ∧ ∃ x ∈ s.l2, x.line = s.arg 0) ∧
    (let s := { base with windows := [win], args := [(windowBase 3 + 65408) / 128, 1] }; win ∈ s.windows ∧ s.arg 1 ≠ 0 ∧ windowBase win.id ≤ 128 * s.arg 0 ∧
      128 * s.arg 0 < windowBase win.id + win.bytes) ∧
    (let s := { base with args := [0, 2 ^ 30 - 1] }; homeOf (s.arg 1 % 2 ^ 41) = some (s.arg 0) ∧ s.populated (128 * (s.arg 1 % 2 ^ 41)) = true) ∧
    (∀ n, n = 14 ∨ n = 15 → let s := bankState n; s.arg 0 < 512 ∧ s.arg 1 < 36 ∧ (s.core 511).banks.getD 35 0 = n ∧ (s.core 511).mark = none) ∧
    (let s := { base with fc := 16000000, boot := { base.boot with evacFc := some 0 } }; s.boot.evacFc = some 0 ∧ s.evacuees ≠ [] ∧ s.groups = [fetchGroup]) := by
  refine ⟨?_, ?_, ?_, ?_, ?_, ?_, ?_, ⟨?_, passing_fails _ _, ?_⟩, ?_, ?_, ?_, ?_, by decide +kernel, ?_, ?_, ?_⟩
  · unfold unacknowledged; decide +kernel
  · rintro d (rfl | rfl) <;> exact ⟨base_numbered _ (.inl rfl) rfl rfl, by unfold unacknowledged; decide +kernel⟩
  · decide +kernel
  · decide +kernel
  · decide +kernel
  · decide +kernel
  · rintro e (rfl | rfl) <;> exact ⟨base_numbered _ (.inl rfl) rfl rfl, rfl, rfl, ⟨rfl, rfl, rfl⟩, by decide⟩
  · unfold names; decide +kernel
  · decide +kernel
  · rintro v (rfl | rfl) <;> decide +kernel
  · decide +kernel
  · rintro n (rfl | rfl) <;> decide +kernel
  · decide +kernel
  · decide +kernel
  · rintro n (rfl | rfl) <;> decide +kernel
  · decide +kernel

/-! ### Starts and power states -/

/-- A module handed over, with no block, at a power state. -/
def handedAt (m : Nat) (args : List Nat) : State :=
  let s := base.setField pmstat 12 2 m
  { s with blocks := [], groups := [], args := args, boot := { base.boot with powered := true, handed := true, ceiling := 2000 } }
def busyWith (l : List Nat) (m : Nat) : State := let s := handedAt m []; { s with boot := { s.boot with busy := l, evacFc := none } }
def starting (n : Nat) (args : List Nat) : State := { base with boot := { base.boot with nfail := n }, args := args }

/-- The same with PMMODE.BIST set. -/
def selfTesting (l : List Nat) : State := (busyWith l 0).setField pmmode 3 1 1

theorem witness_StartsAndPower :
    (∀ n, n = 0 ∨ n = 2 → let s := starting n [0]; starts s ∧ s.args = [0] ∧ s.boot.nfail ≠ 3) ∧
    (∀ step, step ∈ Claims.failing → let s := starting 2 [step]; starts s ∧ s.arg 0 = step ∧ s.boot.nfail ≤ 3 ∧ s.boot.nfail ≠ 3) ∧
    (∀ step, step ∈ [1, 2, 3, 11] → let s := starting 3 [step]; starts s ∧ step ∈ Claims.failing ∧ s.arg 0 = step ∧ s.boot.nfail = 3) ∧
    (∀ step, step = 1 ∨ step = 12 → let s := starting 2 [step + 16]; starts s ∧ s.arg 0 = step + 16 ∧ s.boot.nfail ≠ 3) ∧
    (let s := starting 3 [0]; starts s ∧ s.args = [0] ∧ s.boot.nfail = 3) ∧
    (handedAt 0 []).boot.powered = true ∧
    (∀ m, m = 0 ∨ m = 3 → let s := handedAt m [m]; s.boot.handed = true ∧ pmBusy s = 0 ∧ s.boot.busy = [] ∧ mcur s = m ∧ vacant s ∧ s.arg 0 % 4 = mcur s) ∧
    (let s := handedAt 0 [3]; s.boot.handed = true ∧ pmBusy s = 0 ∧ s.boot.busy = [] ∧ s.arg 0 % 4 ≠ mcur s ∧ mcur s ≠ 3 ∧ vacant s) ∧
    (∀ b, b = 0 ∨ b = 1 → let s := (handedAt 0 [0]).setField pmstat 19 1 b; s.boot.handed = true ∧ pmBusy s = 0 ∧ s.boot.busy = [] ∧ s.dies.length = 4 ∧
      s.field pmstat (16 + 3) 1 = b ∧ ratedPower (s.arg 0 / 2 ^ (8 * 3) % 8) ≤ s.boot.ceiling ∧ ratedPower (s.arg 0 / 2 ^ (8 * 3 + 3) % 8) ≤ s.boot.ceiling ∧
      ∃ p, p < 8 ∧ ratedPower p ≤ s.boot.ceiling) ∧
    (∀ v : Nat, v = 0 ∨ v = 2 ^ 32 - 1 → let s := handedAt 0 [3, v]; s.boot.handed = true ∧ pmBusy s = 0 ∧ s.boot.busy = [] ∧ s.arg 0 = 3 ∧ vacant s ∧ s.cldis 3 < 2 ^ 32 ∧
      (s.reg (clgateReg 3)).toNat.testBit (511 / 4 % 32) = false) ∧
    (∀ p ∈ [(0, 1), (1, 3), (1, 2), (1, 0), (2, 0), (2, 1)], let s := busyWith [1, p.2] p.1; s.boot.evacFc = none ∧ s.dies.length = 4 ∧ s.boot.busy = [1, p.2] ∧ s.args = [] ∧ uncached s ∧
      mcur s = p.1) ∧
    (∀ step ∈ [1, 5, 6, 8], let s := { busyWith [1, 1] 2 with args := [step] }; s.boot.evacFc = none ∧ s.dies.length = 4 ∧ s.boot.busy = [1, 1] ∧ mcur s = 2 ∧ s.arg 0 = step) ∧
    (∀ m, m = 0 ∨ m = 1 → let s := busyWith [3] m; s.boot.evacFc = none ∧ s.dies.length = 4 ∧ s.boot.busy = [3] ∧ mcur s = m) ∧
    (∀ step, step = 0 ∨ step = 7 → let s := busyWith [2, step, 1, 1] 0; s.boot.evacFc = none ∧ s.dies.length = 4 ∧ s.boot.busy = 2 :: step :: [1, 1] ∧ ¬ warmFails s step ∧ uncached s) ∧
    (∀ step, step ∈ [1, 5, 6, 7, 8, 11] → let s := selfTesting [2, step]; s.boot.evacFc = none ∧ s.dies.length = 4 ∧ s.boot.busy = 2 :: step :: [] ∧ warmFails s step) := by
  unfold starts uncached vacant warmFails
  refine ⟨?_, ?_, ?_, ?_, ?_, ?_, ?_, ?_, ?_, ?_, ?_, ?_, ?_, ?_, ?_⟩
  · rintro n (rfl | rfl) <;> decide +kernel
  · intro step h; exact ⟨.inl rfl, rfl, (by decide : 2 ≤ 3), (by decide : 2 ≠ 3)⟩
  · decide +kernel
  · rintro n (rfl | rfl) <;> decide +kernel
  · decide +kernel
  · decide +kernel
  · rintro m (rfl | rfl) <;> decide +kernel
  · decide +kernel
  · rintro b (rfl | rfl) <;> exact ⟨rfl, by decide +kernel, rfl, rfl, by decide +kernel, by decide +kernel, by decide +kernel, 0, by decide +kernel⟩
  · rintro v (rfl | rfl) <;> decide +kernel
  · decide +kernel
  · decide +kernel
  · rintro n (rfl | rfl) <;> decide +kernel
  · rintro n (rfl | rfl) <;> decide +kernel
  · decide +kernel

/-! ### Heat, registers and the pod -/

def warm (c : Nat) : State := let s := handedAt 0 [35, c]; { s with boot := { s.boot with config := (List.replicate 20 0) ++ [100] } }
/-- The A-die's cores run. -/
def awake (s : State) : State := { s.setField bootstat 12 1 1 with boot := { s.boot with powered := true } }
def writing (off v : Nat) : State := { awake base with args := [off, v] }
def accessing (m : Nat) (args : List Nat) : State := { ((awake base).setField pmstat 12 2 m) with args := args }
def lastCtx : State := accessing 0 [1, ctxBase 65535, 1, 1]
/-- The appliance at port 0 with revocations under way. -/
def revoking (rs : List (Nat × Nat)) (args : List Nat) : State :=
  let x := { pool7 with revokes := rs, flash := [2 ^ 32 - 1], regions := [(0x5000, 0)] }
  { ((far.setField (spctl 0) 16 10 7).putEntry .port 0 32767 { w0 := 4, w1 := 0, w2 := 0, w3 := 0 }) with remotes := [x], args := args, fc := 10 }
def revoked7 (rs : List (Nat × Nat)) : Remote := { pool7 with revokes := rs, flash := [2 ^ 32 - 1], regions := [(0x5000, 0)] }

theorem witness_HeatRegistersAndPods :
    (let s := (handedAt 0 [3]).setField pmstat 19 1 1; s.arg 0 < 4 ∧ s.dies.length = 4 ∧ s.field pmstat (16 + s.arg 0) 1 = 1) ∧
    (let s := handedAt 0 [3]; s.arg 0 < 4 ∧ s.dies.length = 4 ∧ s.boot.handed = true ∧ mcur s = 0 ∧ (s.die 3).lost = false ∧ (s.die 3).disabled = false) ∧
    (∀ c ∈ [99, 100, 109, 110], let s := warm c; s.arg 0 < 36 ∧ s.boot.powered = true ∧ s.arg 1 = c ∧ s.twarn = 100) ∧
    (let s := { base.setField bootstat 13 1 1 with args := [] }; s.field bootstat 13 1 = 1 ∧ headerWord (s.args.map (BitVec.ofNat 8)) 0 4 ≠ 0x394C5957) ∧
    (base.aDieRuns = false ∧ ∀ off v, off = 0 ∧ v = 1 → (writing off v).aDieRuns = true) ∧
    (∀ e ∈ [(7, 5), (tierBlock .port 11 + 0x10 + 8 * 3, 2 ^ 64 - 1), (tierBlock .core 0 + 8, 0xFF00), (pmstat, 0x8FF0)], (writing e.1 e.2).arg 2 = 0 ∧ (writing e.1 e.2).arg 0 = e.1 ∧ (writing e.1 e.2).aDieRuns = true) ∧
    block6 7 = .none ∧ 11 < tierCount .port ∧ 0 < tierCount .core ∧
    (∀ o, o = 0 ∨ o = 8 → let s := (writing (queueBlock 15 + o) 4).setField (queueBlock 15 + 0x20) 0 1 1; s.arg 2 = 0 ∧ s.arg 0 = queueBlock 15 + o ∧ s.field (queueBlock 15 + 0x20) 0 1 = 1) ∧
    (∀ v ∈ [3, 4, 16, 17], let s := writing (queueBlock 15 + 8) v; s.arg 2 = 0 ∧ s.field (queueBlock 15 + 0x20) 0 1 = 0 ∧ s.arg 1 % 32 = v) ∧
    (∀ v ∈ [0x18070F, 0x0A0F0F, 0x19070F, 0x180F0E], let s := writing (dieBlock 3 + 0x30000) v; s.arg 2 = 0 ∧ s.arg 0 = dieBlock 3 + 0x30000) ∧
    (∀ a : List Nat, a = [0, 127, 1] ∨ a = [1, 127, 1, 255] → let s := accessing 2 a; s.arg 1 < 2 ^ 48 ∧ 1 ≤ s.arg 2 ∧ s.arg 1 % 128 + s.arg 2 ≤ 128 ∧ s.arg 0 ≤ 1 ∧
      (s.arg 0 = 1 → ((s.args.drop 3).map (BitVec.ofNat 8)).length = s.arg 2) ∧ s.aDieRuns = true ∧ mcur s = 2 ∧ paNode (s.arg 1) < 4) ∧
    (∀ a : List Nat, a = [0, 0, 128] ∨ a = [1, 127, 1, 255] → let s := accessing 1 a; s.arg 1 < 2 ^ 48 ∧ 1 ≤ s.arg 2 ∧ s.arg 1 % 128 + s.arg 2 ≤ 128 ∧
      (s.arg 0 = 1 → ((s.args.drop 3).map (BitVec.ofNat 8)).length = s.arg 2) ∧ s.aDieRuns = true ∧ mcur s < 2 ∧ s.aDieReaches (s.arg 1) = true ∧ uncached s ∧ s.dqTables = []) ∧
    (let s := lastCtx; s.aDieReaches (s.arg 1) = true ∧ s.aDieRuns = true ∧ mcur s < 2 ∧ uncached s ∧ s.dqTables = [] ∧ s.arg 1 ≤ ctxBase 65535 ∧ ctxBase 65535 < s.arg 1 + s.arg 2 ∧
      s.ctxValid 65535 = false ∧ s.meter? 65535 = none ∧ inCtxTable (s.arg 1) = true ∧ s.arg 1 % 128 < 64 ∧ ∃ (t : State), exec .aDieAccess s = .next t ∧ t.ctxValid 65535 = true) ∧
    (let s := { awake (dsq 6 5 true) with args := [1, fetchBase + 0x20000, 1, 1] }; s.dqTables = [(0, fetchBase + 0x20000)] ∧ s.aDieRuns = true ∧ s.aDieReaches (s.arg 1) = true ∧ mcur s < 2 ∧
      uncached s ∧ 0x800001800000 ≤ fetchBase + 0x20000 ∧ (fetchBase + 0x20000) % 8 = 0) ∧
    (∀ v, v = 0 ∨ v = 1 → let s := { base with args := [11, v] }; s.arg 0 < 12 ∧ s.dies.length = 4 ∧ s.arg 1 % 2 = v) ∧
    (let s := revoking [] [0, 3, 32767]; s.dies.length = 4 ∧ s.applianceAt (s.arg 0) = some (revoked7 []) ∧ s.args.length = 3 ∧ s.arg 2 = 32767 ∧ s.opens = [] ∧ ∀ r ∈ (revoked7 []).revokes, r.1 ≠ 3) ∧
    (let s := revoking [(3, 9)] [0, 3, 32767]; s.applianceAt (s.arg 0) = some (revoked7 [(3, 9)]) ∧ s.args.length = 3 ∧ s.opens = [] ∧ (∃ r ∈ (revoked7 [(3, 9)]).revokes, r.1 = 3) ∧
      s.inFlight .port 0 32767 = [] ∧ (portEntry s 32767).hold = true) ∧
    (let s := revoking [(3, 10)] [7, 3]; s.remote? (s.arg 0) = some (revoked7 [(3, 10)]) ∧ (revoked7 [(3, 10)]).revokes.find? (fun r => r.1 == s.arg 1 % 32768) = some (3, 10) ∧ 10 ≤ s.fc) ∧
    (let s := revoking [] [7, 2 ^ 32 - 1]; s.remote? (s.arg 0) = some (revoked7 []) ∧ (revoked7 []).pool = true ∧ s.arg 1 ∈ (revoked7 []).flash) ∧
    (let s := revoking [] [7, 2 ^ 32 - 2]; s.remote? (s.arg 0) = some (revoked7 []) ∧ s.arg 1 < 2 ^ 32 ∧ s.arg 1 ∉ (revoked7 []).flash ∧ (revoked7 []).spares (s.arg 1) = false) ∧
    (let s := revoking [] [7, 0x5000, 1]; s.remote? (s.arg 0) = some (revoked7 []) ∧ (revoked7 []).regions.find? (fun e => e.1 == s.arg 1) = some (0x5000, 0) ∧
      s.loadN (remoteBase 7 + 0x5000) 4 ≠ 1 ∧ ¬ (s.loadN (remoteBase 7 + 0x5000 + 16) 8 / 2 ^ 32 = 1 ∧ s.loadN (remoteBase 7 + 0x5000 + 16) 8 % 2 ^ 32 ≠ 0)) := by
  unfold uncached
  refine ⟨?_, ?_, ?_, ?_, ?_, ?_, ?_, ?_, ?_, ?_, ?_, ?_, ?_, ?_, ?_, ?_, ?_, ?_, ?_, ?_, ?_, ?_, ?_⟩
  all_goals first | decide +kernel | skip
  · exact ⟨by decide +kernel, by rintro off v ⟨rfl, rfl⟩; decide +kernel⟩
  · rintro o (rfl | rfl) <;> decide +kernel
  · rintro a (rfl | rfl) <;> decide +kernel
  · rintro a (rfl | rfl) <;> decide +kernel
  · exact ⟨by decide +kernel, by decide +kernel, by decide +kernel, by decide +kernel, by decide +kernel, by decide +kernel, by decide +kernel, by decide +kernel, by decide +kernel,
      by decide +kernel, by decide +kernel, _, rfl, by decide +kernel⟩
  · rintro v (rfl | rfl) <;> decide +kernel

/-- A recovery image with an empty body, its key and its signature zeros. -/
def imageStart : List Byte := leBytes 4 0x394C5957 ++ leBytes 4 3 ++ leBytes 4 0 ++ leBytes 4 0
def anImage : List Byte := imageStart ++ (Config.sha3 [] ++ List.replicate 4048 0)

/-- Such an image meets the five checks, where the constants that Lean cannot evaluate let it: the key is fused, the signature verifies. -/
theorem witness_AcceptedImage (h : (Config.sha3 []).length = 32) (hk : Config.fusedKey 3 = some (Config.sha3 (List.replicate 1312 0)))
    (hv : Config.verifies (List.replicate 1312 0) (List.replicate 2420 0) (Config.sha3 (anImage.take 1360)) = true) (hs : Config.minSvn 3 = 0) :
    let part := fun (a n : Nat) => (anImage.drop a).take n; let word := headerWord anImage
    word 0 4 = 0x394C5957 ∧ (1 ≤ word 4 4 ∧ word 4 4 ≤ 5) ∧ part 3780 316 = List.replicate 316 0 ∧ word 12 4 = (anImage.drop 4096).length ∧
      (∃ i, i < 4 ∧ Config.fusedKey i = some (Config.sha3 (part 48 1312))) ∧ Config.verifies (part 48 1312) (part 1360 2420) (Config.sha3 (anImage.take 1360)) = true ∧
      Config.sha3 (anImage.drop 4096) = part 16 32 ∧ Config.minSvn (word 4 4) ≤ word 8 4 := by
  have h16 : imageStart.length = 16 := by decide
  have tail (a : Nat) (ha : 48 ≤ a) : anImage.drop a = List.replicate (4096 - a) 0 := by
    rw [anImage, List.drop_append, List.drop_eq_nil_of_le (by omega), List.drop_append, List.drop_eq_nil_of_le (by omega), List.drop_replicate, h16, h]
    simp only [List.nil_append]; congr 1; omega
  have zeros (a n : Nat) (ha : 48 ≤ a) (hn : a + n ≤ 4096) : (anImage.drop a).take n = List.replicate n 0 := by
    rw [tail a ha, List.take_replicate]; congr 1; omega
  have start (a : Nat) (ha : a + 4 ≤ 16) : headerWord anImage a 4 = headerWord imageStart a 4 := by
    simp only [headerWord, anImage]
    rw [List.drop_append_of_le_length (by omega), List.take_append_of_le_length (by simp only [List.length_drop]; omega)]
  have digest : (anImage.drop 16).take 32 = Config.sha3 [] := by
    rw [anImage, List.drop_append, List.drop_eq_nil_of_le (by omega), h16, List.nil_append, List.drop_zero, List.take_append_of_le_length (by omega),
      List.take_of_length_le (by omega)]
  have none : anImage.drop 4096 = [] := tail 4096 (by decide)
  simp only [zeros 3780 316 (by decide) (by decide), zeros 48 1312 (by decide) (by decide), zeros 1360 2420 (by decide) (by decide), digest, none,
    start 0 (by decide), start 4 (by decide), start 8 (by decide), start 12 (by decide), hv]
  exact ⟨by decide, by decide, trivial, by decide, ⟨3, by decide, hk⟩, trivial, trivial, Nat.le_trans (Nat.le_of_eq hs) (Nat.zero_le _)⟩

/-! ### Steps -/

/-- The first quadrant's turn, its slot at the manual's IADD; the state after the slots have aged, and after the fetch. -/
def turning : State := State.reset.withFetchWord 96 0x0001C0002000000800040803
def aged : State := State.ageQuad { turning with agenda := [] } 0 0
/-- The group, its slot aged. -/
def agedGroup : Group := { fetchGroup with a := { fetchGroup.a with age := 1 } }
def fetched : State := (aged.fetchLine agedGroup 0).1
def fetchedLine : List Byte := (match (aged.fetchLine agedGroup 0).2 with | .line bs => bs | _ => [])
def fetchedCode : Code := BitVec.ofNat 96 (leNat (fetchedLine.take 12))
def fetchedInstr : Instr := .iadd (plainVR (guardOf true 1) 2 0 1 0 1 0)
/-- The same turn with the slot parked. -/
def parkedSleep : Wait := { instr := .sleep (fEF 0 7 0 0 0 0 0 0 0 5), ops := [], cond := .clock 5, done := true, turn := 0, fc := 0 }
def turningParked : State := { turning with groups := [withA { runA with wait := some parkedSleep }] }

theorem ok_of_toOption {ε α : Type} {x : Except ε α} {a : α} (h : x.toOption = some a) : x = .ok a := by
  cases x with
  | error e => cases h
  | ok b => exact congrArg _ (Option.some.inj h)

theorem fetched_line : aged.fetchLine agedGroup 0 = (fetched, .line fetchedLine) := Prod.ext rfl (by decide +kernel)

theorem turns : Turned turning 0 0 [] aged agedGroup .a :=
  ⟨rfl, by decide +kernel, rfl, ⟨1, [], by decide +kernel⟩, by decide +kernel⟩

theorem witness_StepRunsTheDecodedInstruction :
    (Turned turning 0 0 [] aged agedGroup .a ∧ (aged.launch agedGroup).inSegment 0 = true ∧
      aged.fetchLine agedGroup 0 = (fetched, .line fetchedLine) ∧ lwpOk (lineWord fetchedLine) = true ∧ lineKind (lineWord fetchedLine) = 0 ∧ lineWord fetchedLine / 2 ^ 16 = 0 ∧
      (agedGroup.a.check = true → lineMarked (lineWord fetchedLine) 0 = true) ∧ slotOk fetchedLine 0 = true ∧ decode fetchedCode = .ok fetchedInstr ∧
      partnerOf fetchedLine 0 fetchedInstr fetchedCode = none ∧
      fetched.lateChecks agedGroup agedGroup.a.fmt fetchedInstr fetchedCode none = .run fetchedInstr fetchedCode none ∧ fetched.pathHeld agedGroup fetchedCode = false ∧
      fetched.markerHeld agedGroup .a = false ∧ agedGroup.neededFailure agedGroup.a fetchedInstr = none) ∧
    (let s := { turningParked with agenda := [] }; let g := withA { runA with wait := some parkedSleep };
      s.group? 1 = some g ∧ s.lateVerdict g .a = none ∧ (g.slot SlotName.a.other).trap = none ∧ s.slotResumes g .a = some parkedSleep.instr) ∧
    (let s := { base with agenda := [.event .info []] }; s.agenda = .event .info [] :: []) ∧ base.agenda = [] ∧
    (∃ (t : State), exec .info { base with agenda := [], args := [0], issuer := none } = .next t) ∧
    (∃ (f : Fault), exec .mainPowerLoss { base with agenda := [], args := [], issuer := none } = .fault f) := by
  refine ⟨⟨turns, by decide +kernel, fetched_line, ?_, ?_, ?_, ?_, ?_, ok_of_toOption (by decide +kernel), ?_, ?_, ?_, ?_, ?_⟩, ⟨rfl, ?_, rfl, ?_⟩, rfl, rfl, ?_, ?_⟩
  all_goals first | decide +kernel | skip
  · exact ⟨_, rfl⟩
  · exact ⟨_, rfl⟩

theorem witness_StepKeepsCanonicalForm : State.reset.Canonical := ⟨rfl, reset_mmio_wf⟩

theorem witness_EncodingRoundTrips : fetchedInstr.wf = true ∧ encode fetchedInstr = some 0x0001C0002000000800040803#96 ∧
    decode 0x0001C0002000000800040803#96 = .ok fetchedInstr ∧ fetchedInstr.isCode = true := by
  refine ⟨?_, ?_, ok_of_toOption ?_, ?_⟩ <;> decide +kernel

end Sys2Proof.Tests
end

section
/-! What a read of a register can give (R14, R59), and how a vector instruction reads its sources while nothing is pending (R27, R102). -/
namespace Sys2Proof.Machine
open Sys2Proof

/-! ## Reads with results pending -/

theorem exists_of_mem_oldValues {x : DWord} : ∀ {l : List Stale}, x ∈ oldValues l → ∃ e ∈ l, x = e.old
  | e :: rest, h => by
    rw [oldValues] at h
    split at h
    · exact ⟨e, List.mem_cons_self, List.mem_singleton.mp h⟩
    · rcases List.mem_cons.mp h with h | h
      · exact ⟨e, List.mem_cons_self, h⟩
      · obtain ⟨y, hy, hx⟩ := exists_of_mem_oldValues h
        exact ⟨y, List.mem_cons_of_mem _ hy, hx⟩

theorem oldValues_cons_ne_nil (e : Stale) (rest : List Stale) : oldValues (e :: rest) ≠ [] := by
  rw [oldValues]; split <;> exact List.cons_ne_nil _ _

theorem getD_mod_length_mem {α : Type} {l : List α} (h : l ≠ []) (n : Nat) (d : α) : l.getD (n % l.length) d ∈ l := by
  have hlt : n % l.length < l.length := Nat.mod_lt _ (List.length_pos_iff.mpr h)
  rw [List.getD_eq_getElem?_getD, List.getElem?_eq_getElem hlt, Option.getD_some]
  exact List.getElem_mem hlt

theorem Group.read_of_not_pending {g : Group} {c : Cell} (h : ∀ e ∈ g.stale, e.cell ≠ c) (turn port : Nat) : g.read turn port c = g.peek c := by
  have none : g.stale.filter (fun e => e.cell == c) = [] := List.filter_eq_nil_iff.mpr fun e he => by simpa using h e he
  rw [Group.read, none]

/-- Assumption 4: the choice falls on the value held, or on one that a result still pending replaced. -/
theorem Group.read_cases (g : Group) (turn port : Nat) (c : Cell) :
    g.read turn port c = g.peek c ∨ ∃ e ∈ g.stale, e.cell = c ∧ g.read turn port c = e.old := by
  unfold Group.read
  split
  case h_1 => exact .inl rfl
  case h_2 e rest pending =>
    dsimp only
    have some : oldValues (e :: rest) ++ (if (e :: rest).any (·.paired) then [] else [g.peek c]) ≠ [] :=
      List.append_ne_nil_of_left_ne_nil (oldValues_cons_ne_nil e rest) _
    rcases List.mem_append.mp (getD_mod_length_mem some (Config.pick turn c.code port) (g.peek c)) with old | new
    · obtain ⟨y, hy, hx⟩ := exists_of_mem_oldValues old
      obtain ⟨mem, cell⟩ := List.mem_filter.mp (pending ▸ hy)
      exact .inr ⟨y, mem, by simpa using cell, hx⟩
    · exact .inl (List.mem_singleton.mp ((List.mem_ite_nil_left.mp new).2))

/-- A marker leaves pending the results that were issued for none of its lanes. -/
theorem Group.mem_mark_stale (g : Group) (m : Mask) (e : Stale) : e ∈ (g.mark m).stale ↔ e ∈ g.stale ∧ e.lanes &&& m = 0 := by
  simp [Group.mark, List.mem_filter]

/-! ## Sources with nothing pending -/

theorem Group.read_of_settled {g : Group} (h : g.stale = []) (turn port : Nat) (c : Cell) : g.read turn port c = g.peek c :=
  Group.read_of_not_pending (by rw [h]; intro e he; cases he) turn port

theorem Group.rdV_toNat {g : Group} (h : g.stale = []) (turn port r l : Nat) : (g.rdV turn port r l).toNat = (g.peek (.v r l)).toNat := by
  rw [Group.rdV, Group.read_of_settled h, Group.peek, BitVec.setWidth_setWidth_of_le _ (by decide), BitVec.setWidth_eq]
  rw [BitVec.toNat_setWidth, Nat.mod_eq_of_lt (Nat.lt_of_lt_of_le (BitVec.isLt _) (by decide))]

theorem sum_map_mul (f : Nat → Nat) (c : Nat) : ∀ l : List Nat, (l.map f).sum * c = (l.map (fun i => f i * c)).sum
  | [] => Nat.zero_mul c
  | i :: rest => by
    rw [List.map_cons, List.map_cons, List.sum_cons, List.sum_cons, Nat.add_mul, sum_map_mul f c rest]

/-- A lane's value `n` registers wide, low register first (R27). -/
theorem Group.rdWide_eq_sum {g : Group} (h : g.stale = []) (turn port l : Nat) : ∀ n r : Nat,
    g.rdWide turn port r l n = ((List.range n).map (fun i => (g.peek (.v (r + i) l)).toNat * 2 ^ (32 * i))).sum
  | 0, _ => rfl
  | n + 1, r => by
    have shift : ∀ i, (g.peek (.v (r + 1 + i) l)).toNat * 2 ^ (32 * i) * 2 ^ 32 = (g.peek (.v (r + (i + 1)) l)).toNat * 2 ^ (32 * (i + 1)) := by
      intro i
      rw [Nat.mul_assoc, ← Nat.pow_add, Nat.mul_succ, Nat.add_assoc, Nat.add_comm 1 i]
    rw [Group.rdWide, Group.rdV_toNat h, Group.rdWide_eq_sum h turn port l n (r + 1), Nat.mul_comm, sum_map_mul,
      List.range_succ_eq_map, List.map_cons, List.map_map, List.sum_cons, Nat.mul_zero, Nat.pow_zero, Nat.mul_one, Nat.add_zero]
    exact congrArg (_ + List.sum ·) (List.map_congr_left fun i _ => shift i)

/-- With nothing pending the port that reads makes no difference. -/
theorem Group.rdWide_port {g : Group} (h : g.stale = []) (turn port port' r l n : Nat) : g.rdWide turn port r l n = g.rdWide turn port' r l n := by
  rw [Group.rdWide_eq_sum h, Group.rdWide_eq_sum h]

/-- U as a source (R102): the same in every lane, 32 bits of it where the type is narrow. -/
theorem Issuer.uniform_of_settled {u : Issuer} (h : u.g.stale = []) (turn port n r : Nat) :
    u.uniform turn port n r = (let x := (u.g.peek (.s (sName u.slot r))).toNat; if n = 1 then x % 2 ^ 32 else x) := by
  rw [Issuer.uniform, Group.rdS, Group.read_of_settled h]

/-- Settles O8: the cases of a read, and the operands rewritten by what a settled group reads. -/
theorem readsOfRegisters : Obligations.ReadsOfRegisters := by
  unfold Obligations.ReadsOfRegisters
  refine ⟨⟨Group.read_cases, fun g turn port c h => Group.read_of_not_pending h turn port, fun g m => ⟨g.mark_peek m, g.mem_mark_stale m⟩⟩, ?_⟩
  intro u turn f n l h
  refine ⟨fun r => Group.rdWide_eq_sum h turn 1 l n r, rfl, ?_, ?_⟩
  · rw [Issuer.opB, Issuer.uniform_of_settled h, Group.rdWide_port h turn 2 1]
  · rw [Issuer.opC, Issuer.uniform_of_settled h, Group.rdWide_port h turn 3 1]

end Sys2Proof.Machine
end

section
/-! What the operations over caches, multicast entries and matrix arrays leave standing of the groups, the blocks and the cores (R168, R202, R248):
the frames that placing, saving and resuming a block rest on. -/
namespace Sys2Proof.Machine
open Sys2Proof

/-! ## Units and cores stand -/

/-- A state with the memory, the caches over it, the requests, the multicast groups and the registers of another. -/
def State.flowOf (t s : State) : State :=
  { t with nextId := s.nextId, dies := s.dies, windows := s.windows, mem := s.mem, poison := s.poison, mmio := s.mmio, reqs := s.reqs, l1 := s.l1, l2 := s.l2,
           staleCopies := s.staleCopies, regions := s.regions, opens := s.opens, mgroups := s.mgroups, helds := s.helds, fills := s.fills,
           watches := s.watches, cache := s.cache, controls := s.controls }

/-- Nothing changed but what flows through memory, the caches, the requests and the multicast groups: groups, blocks, grids and cores stand. -/
structure UnitsStand (s t : State) : Prop where
  rest : t.flowOf s = s

namespace UnitsStand

theorem refl (s : State) : UnitsStand s s := ⟨rfl⟩

theorem trans {s t r : State} (h : UnitsStand s t) (h2 : UnitsStand t r) : UnitsStand s r := by
  have e : r.flowOf s = (r.flowOf t).flowOf s := rfl
  exact ⟨by rw [e, h2.rest]; exact h.rest⟩

theorem of_look {s t : State} (h : LookOnly s t) : UnitsStand s t := by
  have e : t.flowOf s = (t.lookOf s).flowOf s := rfl
  exact ⟨by rw [e, h.rest]; rfl⟩

theorem ite {c : Prop} [Decidable c] {s x y : State} (hx : UnitsStand s x) (hy : UnitsStand s y) : UnitsStand s (if c then x else y) := by
  split <;> assumption

theorem foldl {α : Type} {f : State → α → State} (h : ∀ s x, UnitsStand s (f s x)) (s : State) (l : List α) : UnitsStand s (l.foldl f s) :=
  List.foldlRecOn l f (refl s) fun _ hs x _ => hs.trans (h _ x)

/-- The lines of the caches, what the homes record of them, and the lines that are OPEN, replaced. -/
theorem lines (s : State) (l1 : List L1Line) (l2 : List L2Line) (stale : List StaleCopy) (regions : List Region) (opens : List OpenLine) :
    UnitsStand s { s with l1 := l1, l2 := l2, staleCopies := stale, regions := regions, opens := opens } := ⟨rfl⟩

/-- The requests, the multicast groups with their entries and fills, and the next number, replaced. -/
theorem casts (s : State) (reqs : List Req) (mgroups : List MGroup) (helds : List Held) (fills : List Fill) (next : Nat) :
    UnitsStand s { s with reqs := reqs, mgroups := mgroups, helds := helds, fills := fills, nextId := next } := ⟨rfl⟩

theorem groups {s t : State} (h : UnitsStand s t) : t.groups = s.groups := (congrArg State.groups h.rest : (t.flowOf s).groups = _)
theorem blocks {s t : State} (h : UnitsStand s t) : t.blocks = s.blocks := (congrArg State.blocks h.rest : (t.flowOf s).blocks = _)
theorem cores {s t : State} (h : UnitsStand s t) : t.cores = s.cores := (congrArg State.cores h.rest : (t.flowOf s).cores = _)
theorem copyReqs {s t : State} (h : UnitsStand s t) : t.copyReqs = s.copyReqs := (congrArg State.copyReqs h.rest : (t.flowOf s).copyReqs = _)
theorem fc {s t : State} (h : UnitsStand s t) : t.fc = s.fc := (congrArg State.fc h.rest : (t.flowOf s).fc = _)

theorem core {s t : State} (h : UnitsStand s t) (c : Nat) : t.core c = s.core c := by rw [State.core, State.core, h.cores]

end UnitsStand

/-! ## Lines of the L1s -/

theorem State.closeLine_stand (s : State) (line : Nat) : UnitsStand s (s.closeLine line) := .of_look (s.closeLine_look line)

theorem State.invalidateOn_stand (s : State) (die line : Nat) (but : Option Nat) : UnitsStand s (s.invalidateOn die line but) := .lines s _ _ _ _ _

theorem State.publish_stand (s : State) (die : Nat) (core : Option Nat) (line off : Nat) (bs : List Byte) (gids : List Nat) :
    UnitsStand s (s.publish die core line off bs gids) :=
  ((s.closeLine_stand line).trans (State.invalidateOn_stand _ die line core)).trans
    ((UnitsStand.lines _ _ _ _ _ _).trans (.of_look (State.storeBytes_look _ _ _)))

theorem State.cleanL1_stand (s : State) (l : L1Line) : UnitsStand s (s.cleanL1 l) := by
  have h := UnitsStand.foldl (fun s (e : Nat × Byte) => State.publish_stand s (coreDie l.core) (some l.core) l.line e.1 [e.2] l.writers) s l.dirty
  unfold State.cleanL1
  dsimp only
  split
  · exact h.trans (.lines _ _ _ _ _ _)
  · exact h

theorem State.evictU_stand (s : State) (core line : Nat) : UnitsStand s (s.evictU core line) := .lines s _ _ _ _ _

theorem State.dropL1_stand (s : State) (l : L1Line) : UnitsStand s (s.dropL1 l) := .lines s _ _ _ _ _

theorem State.recallL1_stand (s : State) (l : L1Line) : UnitsStand s (s.recallL1 l) :=
  ((s.evictU_stand l.core l.line).trans (State.cleanL1_stand _ l)).trans (State.dropL1_stand _ l)

/-! ## The region directory -/

theorem State.setField_stand (s : State) (off lo w x : Nat) : UnitsStand s (s.setField off lo w x) := ⟨rfl⟩

theorem State.countDir_stand (s : State) (h lo : Nat) : UnitsStand s (s.countDir h lo) := s.setField_stand _ _ _ _

theorem State.syncUsed_stand (s : State) (h : Nat) : UnitsStand s (s.syncUsed h) := s.setField_stand _ _ _ _

theorem State.sendControl_stand (s : State) (sender receiver : Nat) (op : Bool) : UnitsStand s (s.sendControl sender receiver op) := by
  unfold State.sendControl; split <;> exact ⟨rfl⟩

theorem State.dieMessage_stand (s : State) (a b : Nat) : UnitsStand s (s.dieMessage a b) := by
  unfold State.dieMessage; split <;> exact ⟨rfl⟩

theorem State.invalidateHolder_stand (s : State) (holder line : Nat) : UnitsStand s (s.invalidateHolder holder line) := by
  unfold State.invalidateHolder
  dsimp only
  split
  · exact ((State.sendControl_stand _ _ _ _).trans (State.dieMessage_stand _ _ _)).trans (.lines _ _ _ _ _ _)
  · exact .refl s

theorem State.roomInDir_stand (s : State) (h : Nat) : UnitsStand s (s.roomInDir h) := by
  unfold State.roomInDir
  dsimp only
  split
  · exact .refl s
  · split
    · exact .refl s
    · exact ((s.countDir_stand h 32).trans (UnitsStand.foldl State.recallL1_stand _ _)).trans (.lines _ _ _ _ _ _)

theorem State.splitRegion_stand (h line : Nat) (want : List Nat) (fuel : Nat) : ∀ s : State, UnitsStand s (s.splitRegion h line want fuel) := by
  induction fuel with
  | zero => exact .refl
  | succ n ih =>
    intro s
    rw [State.splitRegion]
    split
    · exact .refl s
    · dsimp only
      split
      · exact .refl s
      · refine UnitsStand.trans ?_ (ih _)
        exact (s.countDir_stand h 16).trans (.lines _ _ _ _ _ _)

theorem State.recallRegion_stand (s : State) (r : Region) (h holder line : Nat) : UnitsStand s (s.recallRegion r h holder line) :=
  (UnitsStand.foldl State.recallL1_stand s _).trans (.lines _ _ _ _ _ _)

theorem State.grantLine_stand (s : State) (h holder line : Nat) (alone : Bool) : UnitsStand s (s.grantLine h holder line alone) := by
  unfold State.grantLine
  extract_lets room log s1 before s2
  have h2 : UnitsStand s s2 := by
    refine UnitsStand.trans (.ite (.refl s) ?_) (State.splitRegion_stand _ _ _ _ _)
    exact (s.roomInDir_stand h).trans (.lines _ _ _ _ _ _)
  split
  · exact h2
  · extract_lets others s3 s4 s5 s6
    have h3 : UnitsStand s2 s3 :=
      .ite ((UnitsStand.foldl (fun s d => State.invalidateHolder_stand s d line) s2 others).trans (State.recallRegion_stand _ _ _ _ _)) (.refl s2)
    have h4 : UnitsStand s3 s4 := .ite (State.invalidateOn_stand _ _ _ _) (.refl s3)
    have h5 : UnitsStand s4 s5 := .ite (State.invalidateOn_stand _ _ _ _) (.refl s4)
    have h6 : UnitsStand s5 s6 := .lines _ _ _ _ _ _
    exact ((((h2.trans h3).trans h4).trans h5).trans h6).trans ((State.dieMessage_stand _ _ _).trans (State.syncUsed_stand _ _))

theorem State.ensureAlone_stand (s : State) (mode : Mode) (die line : Nat) : UnitsStand s (s.ensureAlone mode die line) := by
  unfold State.ensureAlone
  split
  · exact .refl s
  · split
    · exact State.grantLine_stand _ _ _ _ _
    · exact .refl s

/-! ## Lines that leave an L1 -/

theorem State.flushL1_stand (s : State) (l : L1Line) : UnitsStand s (s.flushL1 l) :=
  .ite (.refl s) ((State.ensureAlone_stand s _ _ _).trans (State.cleanL1_stand _ l))

theorem State.evictL1_stand (s : State) (l : L1Line) : UnitsStand s (s.evictL1 l) :=
  ((s.evictU_stand l.core l.line).trans (State.flushL1_stand _ l)).trans (State.dropL1_stand _ l)

/-- Fusing a cluster's L1s, or ceasing to, only empties them (R248). -/
theorem State.reFuse_stand (s : State) (cluster : Nat) (was : Bool) : UnitsStand s (s.reFuse cluster was) :=
  .ite (.refl s) (UnitsStand.foldl State.evictL1_stand s _)

theorem State.applyPending_stand (s : State) (core : Nat) : UnitsStand s (s.applyPending core) := UnitsStand.foldl State.evictL1_stand s _

/-! ## Multicast -/

theorem State.readFill_stand (s : State) (line label : Nat) : UnitsStand s (s.readFill line label).1 := by
  have read := s.closeLine_stand (lineOf (128 * line))
  unfold State.readFill
  split
  · exact .refl s
  · cases remoteOf (128 * line) with
    | none => exact read
    | some m =>
      dsimp only
      split
      · exact .refl s
      · exact read

theorem State.castTo_stand (h : Held) (bs : List Byte) (reason : Nat) (rs : List (Nat × Nat × Nat)) : ∀ s : State, UnitsStand s (s.castTo h bs reason rs) := by
  induction rs with
  | nil => exact .refl
  | cons r rest ih =>
    intro s
    rw [State.castTo]
    refine UnitsStand.trans ?_ (ih _)
    split
    · split
      · exact .casts _ _ _ _ _ _
      · exact .refl s
    · exact .refl s

theorem State.fire_stand (s : State) (h : Held) : UnitsStand s (s.fire h) :=
  ((s.readFill_stand h.line h.label).trans (State.castTo_stand _ _ _ _ _)).trans (.casts _ _ _ _ _ _)

theorem State.settleHelds_stand (s : State) : UnitsStand s s.settleHelds := (UnitsStand.foldl State.fire_stand s _).trans (.casts _ _ _ _ _ _)

theorem State.withdraw_stand (s : State) (die cid mg idx gid : Nat) (save : Bool) : UnitsStand s (s.withdraw die cid mg idx gid save) := .casts s _ _ _ _ _

theorem State.keepHeld_stand (s : State) (g : Group) : UnitsStand s (s.keepHeld g) := by
  refine UnitsStand.foldl (fun s h => ?_) s _
  exact UnitsStand.foldl (fun s e => .casts s _ _ _ _ _) s _

theorem State.suspendMember_stand (s : State) (g : Group) : UnitsStand s (s.suspendMember g) := by
  unfold State.suspendMember
  extract_lets base mine kept s2
  have h2 : UnitsStand kept s2 := UnitsStand.foldl (fun s m => UnitsStand.foldl (fun s y => State.withdraw_stand s _ _ _ _ _ _) s _) kept mine
  exact ((s.keepHeld_stand g).trans h2).trans (.casts _ _ _ _ _ _)

theorem State.noteAcquire_stand (s : State) (g : Group) : UnitsStand s (s.noteAcquire g) := ⟨rfl⟩

theorem State.rejoin_stand (s : State) (g : Group) : UnitsStand s (s.rejoin g) := ⟨rfl⟩

end Sys2Proof.Machine
end

section
/-! What stands of groups and blocks while arrays change hands and requests are settled: all but the accesses under way and the arrays still owed
(R168, R184), and what a save request leaves of the blocks (R338). -/
namespace Sys2Proof.Machine
open Sys2Proof

/-! ## Only cores -/

/-- A state with the cores of another. -/
def State.coresOf (t s : State) : State := { t with cores := s.cores }

/-- Nothing changed but the cores. -/
structure CoresOnly (s t : State) : Prop where
  rest : t.coresOf s = s

namespace CoresOnly

theorem trans {s t r : State} (h : CoresOnly s t) (h2 : CoresOnly t r) : CoresOnly s r := by
  have e : r.coresOf s = (r.coresOf t).coresOf s := rfl
  exact ⟨by rw [e, h2.rest]; exact h.rest⟩

theorem foldl {α : Type} {f : State → α → State} (h : ∀ s x, CoresOnly s (f s x)) (s : State) (l : List α) : CoresOnly s (l.foldl f s) :=
  List.foldlRecOn l f ⟨rfl⟩ fun _ hs x _ => hs.trans (h _ x)

theorem groups {s t : State} (h : CoresOnly s t) : t.groups = s.groups := (congrArg State.groups h.rest : (t.coresOf s).groups = _)
theorem blocks {s t : State} (h : CoresOnly s t) : t.blocks = s.blocks := (congrArg State.blocks h.rest : (t.coresOf s).blocks = _)
theorem reqs {s t : State} (h : CoresOnly s t) : t.reqs = s.reqs := (congrArg State.reqs h.rest : (t.coresOf s).reqs = _)
theorem fc {s t : State} (h : CoresOnly s t) : t.fc = s.fc := (congrArg State.fc h.rest : (t.coresOf s).fc = _)
theorem mem {s t : State} (h : CoresOnly s t) : t.mem = s.mem := (congrArg State.mem h.rest : (t.coresOf s).mem = _)
theorem l1 {s t : State} (h : CoresOnly s t) : t.l1 = s.l1 := (congrArg State.l1 h.rest : (t.coresOf s).l1 = _)

end CoresOnly

theorem State.setCore_only (s : State) (n : Nat) (c : Core) : CoresOnly s (s.setCore n c) := ⟨rfl⟩

theorem find_putCore (n : Nat) (c : Core) (m : Nat) (l : List (Nat × Core)) :
    (putCore n c l).find? (fun e => e.1 == m) = if m = n then some (n, c) else l.find? (fun e => e.1 == m) := by
  fun_induction putCore n c l with grind

/-- A core read after a core is replaced. -/
theorem State.core_setCore (s : State) (n : Nat) (c : Core) (m : Nat) : (s.setCore n c).core m = if m = n then c else s.core m := by
  rw [State.core, State.setCore_cores, find_putCore]
  by_cases h : m = n
  · rw [if_pos h, if_pos h]
  · rw [if_neg h, if_neg h, State.core]

/-! ## Blocks but for the arrays owed to them -/

/-- A block without the arrays that it has yet to take back. -/
def Block.bare (b : Block) : Block := { b with owed := [] }

theorem Block.id_of_bare {x y : Block} (same : y.bare = x.bare) : y.id = x.id := (congrArg Block.id same : y.bare.id = _)
theorem Block.state_of_bare {x y : Block} (same : y.bare = x.bare) : y.state = x.state := (congrArg Block.state same : y.bare.state = _)

/-- The blocks stand, but for the arrays owed to them. -/
structure BlocksStand (s t : State) : Prop where
  ids : t.blocks.map (·.id) = s.blocks.map (·.id)
  bare : ∀ y ∈ t.blocks, ∃ x ∈ s.blocks, y.bare = x.bare

theorem BlocksStand.of_eq {s t : State} (h : t.blocks = s.blocks) : BlocksStand s t := ⟨by rw [h], fun y hy => ⟨y, h ▸ hy, rfl⟩⟩

theorem BlocksStand.refl (s : State) : BlocksStand s s := .of_eq rfl

theorem BlocksStand.trans {s t r : State} (h : BlocksStand s t) (h2 : BlocksStand t r) : BlocksStand s r :=
  ⟨h2.ids.trans h.ids, fun z hz => by
    obtain ⟨y, hy, e2⟩ := h2.bare z hz
    obtain ⟨x, hx, e⟩ := h.bare y hy
    exact ⟨x, hx, e2.trans e⟩⟩

theorem State.setBlock_ids (s : State) (b : Block) : (s.setBlock b).blocks.map (·.id) = s.blocks.map (·.id) := by
  rw [State.setBlock, List.map_map]
  refine List.map_congr_left fun x _ => ?_
  by_cases h : x.id = b.id <;> simp [h]

theorem State.mem_setBlock {s : State} {b y : Block} (h : y ∈ (s.setBlock b).blocks) : y = b ∨ (y ∈ s.blocks ∧ y.id ≠ b.id) := by
  obtain ⟨x, hx, e⟩ := List.mem_map.mp h
  by_cases hi : x.id = b.id
  · exact .inl (by rw [← e, if_pos hi])
  · rw [if_neg hi] at e; exact .inr ⟨e ▸ hx, e ▸ hi⟩

theorem State.setBlock_owed_stand {s : State} {b : Block} (h : b ∈ s.blocks) (o : List (Nat × Matrix)) : BlocksStand s (s.setBlock { b with owed := o }) :=
  ⟨State.setBlock_ids _ _, fun y hy => by
    rcases State.mem_setBlock hy with rfl | ⟨hy, -⟩
    · exact ⟨b, h, rfl⟩
    · exact ⟨y, hy, rfl⟩⟩

/-! ## Groups but for their accesses -/

/-- A group without its accesses under way, and the mark of a pending slice. -/
def Group.bare (g : Group) : Group := { g with accs := [], feeding := false }

/-- Groups and blocks stand, but for accesses, pending slices and arrays owed; so does fc. -/
structure Standing (s t : State) : Prop where
  bare : ∀ h ∈ t.groups, ∃ g ∈ s.groups, h.bare = g.bare
  group? : ∀ i, (t.group? i).map Group.bare = (s.group? i).map Group.bare
  blocks : BlocksStand s t
  fc : t.fc = s.fc

namespace Standing

theorem of_eq {s t : State} (hg : t.groups = s.groups) (hb : BlocksStand s t) (hf : t.fc = s.fc) : Standing s t :=
  ⟨fun h hh => ⟨h, hg ▸ hh, rfl⟩, fun i => by rw [State.group?, hg]; rfl, hb, hf⟩

theorem refl (s : State) : Standing s s := .of_eq rfl (.refl s) rfl

theorem trans {s t r : State} (h : Standing s t) (h2 : Standing t r) : Standing s r :=
  ⟨fun z hz => by
    obtain ⟨y, hy, e2⟩ := h2.bare z hz
    obtain ⟨x, hx, e⟩ := h.bare y hy
    exact ⟨x, hx, e2.trans e⟩, fun i => (h2.group? i).trans (h.group? i), h.blocks.trans h2.blocks, h2.fc.trans h.fc⟩

theorem foldl {α : Type} {f : State → α → State} (h : ∀ s x, Standing s (f s x)) (s : State) (l : List α) : Standing s (l.foldl f s) :=
  List.foldlRecOn l f (refl s) fun _ hs x _ => hs.trans (h _ x)

theorem of_units {s t : State} (h : UnitsStand s t) : Standing s t := .of_eq h.groups (.of_eq h.blocks) h.fc

theorem of_cores {s t : State} (h : CoresOnly s t) : Standing s t := .of_eq h.groups (.of_eq h.blocks) h.fc

theorem ite {c : Prop} [Decidable c] {s x y : State} (hx : Standing s x) (hy : Standing s y) : Standing s (if c then x else y) := by
  split <;> assumption

end Standing

/-! ## Arrays that change hands -/

theorem State.setMatrix_standing (s : State) (core : Nat) (m : Matrix) : Standing s (s.setMatrix core m) := .of_cores (s.setCore_only _ _)

theorem State.grantEven_standing (s : State) (e : Nat) : Standing s (s.grantEven e) := by
  unfold State.grantEven
  dsimp only
  split
  · exact State.setMatrix_standing _ _ _
  · split
    · exact (State.setMatrix_standing _ _ _).trans (State.setMatrix_standing _ _ _)
    · exact State.setMatrix_standing _ _ _
  · exact .refl s

theorem State.grantOdd_standing (s : State) (o : Nat) : Standing s (s.grantOdd o) := by
  unfold State.grantOdd
  dsimp only
  split
  · exact State.setMatrix_standing _ _ _
  · exact .refl s

theorem State.grantOwed_standing (s : State) (core : Nat) : Standing s (s.grantOwed core) := by
  unfold State.grantOwed
  split
  · exact .refl s
  · split
    · exact .refl s
    · rename_i b hb
      split
      · exact .refl s
      · rename_i e _
        have load : Standing s (s.loadArray core e.2) := State.setMatrix_standing _ _ _
        have mem : b ∈ (s.loadArray core e.2).blocks := List.mem_of_find?_eq_some hb
        exact load.trans (.of_eq rfl (State.setBlock_owed_stand mem _) rfl)

theorem State.grantArrays_standing (s : State) (core : Nat) : Standing s (s.grantArrays core) :=
  (((s.grantOwed_standing _).trans (State.grantOwed_standing _ _)).trans (State.grantEven_standing _ _)).trans (State.grantOdd_standing _ _)

theorem State.leaveFifo_standing (s : State) (g : Group) : Standing s (s.leaveFifo g) := by
  unfold State.leaveFifo
  extract_lets drop
  have dropped : ∀ s c, Standing s (drop s c) := fun s c => State.setMatrix_standing s c _
  exact ((dropped s _).trans (dropped _ _)).trans (State.grantArrays_standing _ _)

theorem State.giveUpArrays_standing (s : State) (b : Block) (saved : List (Nat × Matrix)) : Standing s (s.giveUpArrays b saved) := by
  unfold State.giveUpArrays
  extract_lets gs s1 s2
  have freed : Standing s s1 := by
    refine Standing.foldl (fun s e => ?_) s saved
    exact State.setMatrix_standing s _ _
  have left : Standing s1 s2 := Standing.foldl State.leaveFifo_standing s1 gs
  refine (freed.trans left).trans ?_
  exact Standing.foldl (fun s (e : Nat × Matrix) => State.grantArrays_standing s e.1) s2 saved

theorem State.syncFeeding_standing (s : State) : Standing s s.syncFeeding where
  bare h hh := by
    obtain ⟨g, hg, rfl⟩ := List.mem_map.mp hh
    exact ⟨g, hg, rfl⟩
  group? i := by
    rw [State.group?, State.syncFeeding, List.find?_map, Option.map_map]
    rfl
  blocks := .of_eq rfl
  fc := rfl

theorem State.putReady_standing (s : State) (core : Nat) (x : Matrix) : Standing s (s.putReady core x) :=
  .ite (.refl s) (State.setMatrix_standing _ _ _)

/-! ## Save requests -/

/-- Every block of this number is being saved, and there is one. -/
def State.savingAll (s : State) (i : Nat) : Prop := i ∈ s.blocks.map (·.id) ∧ ∀ y ∈ s.blocks, y.id = i → y.state = .saving

theorem State.savingAll.of_stand {s t : State} {i : Nat} (h : s.savingAll i) (hb : BlocksStand s t) : t.savingAll i := by
  refine ⟨hb.ids ▸ h.1, fun y hy hi => ?_⟩
  obtain ⟨x, hx, e⟩ := hb.bare y hy
  exact (Block.state_of_bare e).trans (h.2 x hx ((Block.id_of_bare e).symm.trans hi))

theorem State.quitParks_blocks (s : State) (g : Group) : BlocksStand s (s.quitParks g) := by
  have group : BlocksStand s (s.setGroup { g with a := g.a.quit, b := g.b.quit }) := .of_eq rfl
  exact (group.trans (State.leaveFifo_standing _ g).blocks).trans (.of_eq rfl)

/-- A block whose save begins is saving from now on; of the other blocks only the arrays owed to them may change. -/
theorem State.beginSave_blocks {s t : State} {b : Block} (h : s.beginSave b = some t) :
    ∃ base size, BlocksStand (s.setBlock { b with state := .saving, savedBase := base, savedSize := size }) t := by
  obtain ⟨base, -, rfl⟩ := Option.map_eq_some_iff.mp h
  exact ⟨base, _, List.foldlRecOn _ _ (.refl _) fun _ hs g _ => hs.trans (State.quitParks_blocks _ g)⟩

theorem State.beginSave_ids {s t : State} {b : Block} (h : s.beginSave b = some t) : t.blocks.map (·.id) = s.blocks.map (·.id) := by
  obtain ⟨base, size, stand⟩ := State.beginSave_blocks h
  rw [stand.ids, State.setBlock_ids]

theorem State.savingAll.of_beginSave {s t : State} {b : Block} {i : Nat} (h : s.beginSave b = some t)
    (hi : s.savingAll i ∨ b.id = i ∧ i ∈ s.blocks.map (·.id)) : t.savingAll i := by
  obtain ⟨base, size, stand⟩ := State.beginSave_blocks h
  refine State.savingAll.of_stand ⟨?_, fun y hy e => ?_⟩ stand
  · rw [State.setBlock_ids]; exact hi.elim (·.1) (·.2)
  · rcases State.mem_setBlock hy with rfl | ⟨hy, hne⟩
    · rfl
    · rcases hi with hi | ⟨hi, -⟩
      · exact hi.2 y hy e
      · exact absurd (e.trans hi.symm) hne

theorem State.savingAll.of_beginSaves : ∀ {l : List Block} {s t : State} {i : Nat}, s.beginSaves l = some t →
    (s.savingAll i ∨ (∃ b ∈ l, b.id = i ∧ b.state = .resident) ∧ i ∈ s.blocks.map (·.id)) → t.savingAll i
  | [], s, t, i, h, hi => by
    cases h
    rcases hi with hi | ⟨⟨b, hb, -⟩, -⟩
    · exact hi
    · cases hb
  | b :: rest, s, t, i, h, hi => by
    rw [State.beginSaves] at h
    split at h
    · obtain ⟨s1, h1, h2⟩ := Option.bind_eq_some_iff.mp h
      refine State.savingAll.of_beginSaves h2 ?_
      rcases hi with hi | ⟨⟨y, hy, hid, hst⟩, hmem⟩
      · exact .inl (.of_beginSave h1 (.inl hi))
      · rcases List.mem_cons.mp hy with rfl | hy
        · exact .inl (.of_beginSave h1 (.inr ⟨hid, hmem⟩))
        · exact .inr ⟨⟨y, hy, hid, hst⟩, State.beginSave_ids h1 ▸ hmem⟩
    · rename_i hne
      refine State.savingAll.of_beginSaves h (hi.imp_right fun ⟨⟨y, hy, hid, hst⟩, hmem⟩ => ⟨⟨y, ?_, hid, hst⟩, hmem⟩)
      rcases List.mem_cons.mp hy with rfl | hy
      · exact absurd hst hne
      · exact hy

theorem State.mem_mates {s : State} {b : Block} (h : b ∈ s.blocks) : b ∈ s.mates b := by
  unfold State.mates
  split
  · exact List.mem_singleton_self b
  · exact List.mem_filter.mpr ⟨h, by simp⟩

/-- A block of which a save may be requested is saving once it is (R338). -/
theorem State.requestSave_saving {s : State} {b : Block} (hb : s.block? b.id = some b) (h : s.saveable b = true) :
    ∃ y ∈ (s.requestSave b.id).blocks, y.id = b.id ∧ y.state = .saving := by
  obtain ⟨resident, begun⟩ := Bool.and_eq_true_iff.mp h
  have resident : b.state = .resident := by simpa using resident
  obtain ⟨t, ht⟩ := Option.isSome_iff_exists.mp begun
  have mem : b ∈ s.blocks := List.mem_of_find?_eq_some hb
  have saving : t.savingAll b.id := .of_beginSaves ht (.inr ⟨⟨b, State.mem_mates mem, rfl, resident⟩, List.mem_map_of_mem mem⟩)
  rw [State.requestSave, hb]
  dsimp only
  rw [if_pos resident, ht, Option.getD_some]
  obtain ⟨y, hy, e⟩ := List.mem_map.mp saving.1
  exact ⟨y, hy, e, saving.2 y hy e⟩

end Sys2Proof.Machine
end

section
/-! The waits of the distributor's units (R335 to R337): a home die without room, saves requested for other work, gangs; and the release of a
block's room (R233). Each event where it comes about. -/
namespace Sys2Proof.Machine
open Sys2Proof

theorem State.grid?_id {s : State} {i : Nat} {x : Grid} (h : s.grid? i = some x) : x.id = i := by simpa using List.find?_some h

theorem State.block?_id {s : State} {i : Nat} {b : Block} (h : s.block? i = some b) : b.id = i := by simpa using List.find?_some h

theorem State.mem_of_block? {s : State} {i : Nat} {b : Block} (h : s.block? i = some b) : b ∈ s.blocks := List.mem_of_find?_eq_some h

/-- A search by number, in a list whose entries change but keep their numbers. -/
theorem find?_map_key {α : Type} {key : α → Nat} {f : α → α} (h : ∀ x, key (f x) = key x) (l : List α) (i : Nat) :
    (l.map f).find? (fun x => key x == i) = (l.find? (fun x => key x == i)).map f := by
  have same : (fun x => key x == i) ∘ f = fun x => key x == i := funext fun x => congrArg (· == i) (h x)
  rw [List.find?_map, same]

/-- A grid read after it is replaced. -/
theorem State.grid?_setGrid {s : State} {i : Nat} {x : Grid} (h : s.grid? i = some x) {y : Grid} (hy : y.id = x.id) : (s.setGrid y).grid? i = some y := by
  have keeps : ∀ z : Grid, (if z.id = y.id then y else z).id = z.id := fun z => by split <;> simp [*]
  have read := find?_map_key keeps s.grids i
  rw [show s.grids.find? (fun g => g.id == i) = some x from h, Option.map_some, if_pos hy.symm] at read
  exact read

/-- A block read after it is replaced. -/
theorem State.block?_setBlock {s : State} {b : Block} (h : b.id ∈ s.blocks.map (·.id)) : (s.setBlock b).block? b.id = some b := by
  obtain ⟨x, hx, e⟩ := List.mem_map.mp h
  obtain ⟨y, hy⟩ : ∃ y, (s.setBlock b).block? b.id = some y := Option.isSome_iff_exists.mp
    (List.find?_isSome.mpr ⟨b, List.mem_map.mpr ⟨x, hx, if_pos e⟩, by simp⟩)
  rcases State.mem_setBlock (State.mem_of_block? hy) with rfl | ⟨-, hne⟩
  · exact hy
  · exact absurd (State.block?_id hy) hne

/-! ## Home dies and saves -/

theorem exec_affinityTimeout {s : State} {x : Grid} (hx : s.grid? (s.arg 0) = some x) (places : s.gridPlaces x = true) (any : x.anyDie = false)
    (home : x.homeDie.isSome = true) (due : max x.affinityFc (x.readyFc.getD 0) + 32000 ≤ s.fc)
    (full : ∀ path ∈ x.waiting, s.fitsSomewhere [] x path = false) : exec .affinityTimeout s = .next (s.setGrid { x with anyDie := true }) := by
  have none : x.waiting.any (s.fitsSomewhere [] x) = false := List.any_eq_false.mpr fun p hp => by simp [full p hp]
  have home : x.homeDie.isNone = false := by simpa using home
  show whenDue _ = _
  rw [hx, Option.bind_eq_bind, Option.bind_some, if_neg (by simp only [places, any, home, none, decide_eq_false (Nat.not_lt.mpr due)]; decide)]
  rfl

/-- The block that stands first in the order of saves, where it alone may be saved (R336). -/
theorem State.nextSaved_self {s : State} {bs : List Block} {b : Block} (h : ∀ y ∈ bs, y = b) : s.nextSaved bs b = true :=
  List.all_eq_true.mpr fun y hy => by simp [h y hy]

theorem State.saveable_of_preemptible {s : State} {b : Block} (h : s.preemptible b = true) : s.saveable b = true := by
  simp only [State.preemptible, Bool.and_eq_true] at h
  exact h.1.1

/-- Does a unit of a lower band number than a block's wait, which would not fit with the saves under way (R336)? -/
def State.outranked (s : State) (b : Block) : Bool :=
  s.someWaiting (fun x path => decide (x.band < s.bandOf b) && !s.fitsSomewhere s.saving x path)

theorem exec_saveRequest {s : State} {b : Block} {x : Grid} {path : List Nat} (hb : s.block? (s.arg 0) = some b) (may : s.preemptible b = true)
    (only : ∀ y ∈ s.blocks, s.preemptible y = true → y = b) (hx : x ∈ s.grids) (places : s.gridPlaces x = true) (waits : path ∈ x.waiting)
    (band : x.band < s.bandOf b) (full : s.fitsSomewhere s.saving x path = false) : exec .saveRequest s = .next (s.requestSave b.id) := by
  have wanted : s.outranked b = true := List.any_eq_true.mpr ⟨x, hx, by simpa [places] using ⟨path, waits, by simpa using band, full⟩⟩
  have next : s.nextSaved (s.blocks.filter (fun y => s.preemptible y && s.outranked y)) b = true := by
    refine State.nextSaved_self fun y hy => ?_
    obtain ⟨mem, want⟩ := List.mem_filter.mp hy
    exact only y mem (Bool.and_eq_true_iff.mp want).1
  have due : ((s.preemptible b && s.outranked b) && s.nextSaved (s.blocks.filter (fun y => s.preemptible y && s.outranked y)) b) = true := by
    rw [may, wanted, next]; rfl
  show whenDue _ = _
  rw [hb, Option.bind_eq_bind, Option.bind_some]
  exact congrArg whenDue (if_pos due)

/-! ## Gangs -/

theorem State.gang?_of_age {s : State} {x : Grid} {unit : List Nat} {n : Nat} (h : n + 1 ≤ s.gangAge x unit) : ∃ g, s.gang? x.id unit = some g := by
  unfold State.gangAge at h
  split at h
  · exact ⟨_, ‹_›⟩
  · omega

theorem exec_gangReserve {s : State} {x : Grid} (hx : s.grid? (s.arg 0) = some x) (waits : s.gangWaits x (s.args.drop 2) = true)
    (age : 1600000 ≤ s.gangAge x (s.args.drop 2)) (turn : ∀ g, s.gang? x.id (s.args.drop 2) = some g → g.inst = none ∧ s.olderGang g = false)
    (mem : s.arg 1 ∈ s.reservable x (s.args.drop 2))
    (best : let free := s.freeCores x.launch (x.launch.domainAt x.launch.wholeLevel)
      ∀ j ∈ s.reservable x (s.args.drop 2), free j < free (s.arg 1) ∨ (free j = free (s.arg 1) ∧ s.arg 1 ≤ j)) :
    exec .gangReserve s = .next { s with gangs := s.gangs.map (fun y => if y.grid = x.id ∧ y.path = s.args.drop 2 then { y with inst := some (s.arg 1) } else y) } := by
  obtain ⟨g, hg⟩ := State.gang?_of_age age
  obtain ⟨free, older⟩ := turn g hg
  have first : (s.reservable x (s.args.drop 2)).all (fun j => let free := s.freeCores x.launch (x.launch.domainAt x.launch.wholeLevel)
      decide (free j < free (s.arg 1)) || (free j == free (s.arg 1) && decide (s.arg 1 ≤ j))) = true :=
    List.all_eq_true.mpr fun j hj => by simpa using best j hj
  have mem : (s.reservable x (s.args.drop 2)).contains (s.arg 1) = true := by simpa using mem
  have free : g.inst.isSome = false := by simp [free]
  show whenDue _ = _
  rw [hx, Option.bind_eq_bind, Option.bind_some]
  dsimp only
  rw [hg, Option.bind_eq_bind, Option.bind_some,
    if_neg (by simp only [waits, free, older, mem, first, decide_eq_false (Nat.not_lt.mpr age)]; decide)]
  rfl

theorem exec_gangEvict {s : State} {x : Grid} {g : Gang} {i : Nat} {b : Block} (hx : s.grid? (s.arg 0) = some x)
    (hg : s.gang? x.id (s.args.drop 1) = some g) (hi : g.inst = some i) (live : g.failed = false) (waits : s.gangWaits x (s.args.drop 1) = true)
    (age : 16000000 ≤ s.gangAge x (s.args.drop 1))
    (full : x.launch.holdsAt (s.placeRoom s.saving x.launch) s.windowRoom (x.launch.wholeLevel - x.launch.blockLevel) i = 0)
    (only : s.blocks.filter (fun b => s.preemptible b && instanceOf (x.launch.domainAt x.launch.wholeLevel) (b.cores.headD 0) == i) = [b]) :
    exec .gangEvict s = .next (s.requestSave b.id) := by
  have next : s.nextSaved [b] b = true := State.nextSaved_self fun y hy => List.mem_singleton.mp hy
  have found : [b].find? (s.nextSaved [b]) = some b := by rw [List.find?_cons, next]
  show whenDue _ = _
  simp only [hx, hg, hi, only, found, Option.bind_eq_bind, Option.bind_some]
  rw [if_neg (by simp only [live, waits, full, decide_eq_false (Nat.not_lt.mpr age)]; decide)]
  rfl

theorem exec_gangTimeout {s : State} {x : Grid} (hx : s.grid? (s.arg 0) = some x) (waits : s.gangWaits x (s.args.drop 1) = true)
    (age : 160000000 ≤ s.gangAge x (s.args.drop 1)) :
    exec .gangTimeout s = .next { s.setGrid { x with failed := true } with gangs := s.gangs.filter (fun g => g.grid != x.id) } := by
  show whenDue _ = _
  rw [hx, Option.bind_eq_bind, Option.bind_some, if_neg (by simp only [waits, decide_eq_false (Nat.not_lt.mpr age)]; decide)]
  rfl

/-! ## Release -/

theorem State.freeRoom_only (s : State) (block core : Nat) : CoresOnly s (s.freeRoom block core) := s.setCore_only _ _

/-- No room of a block is left on the cores that its room is taken away on, and none comes on others. -/
theorem State.foldl_freeRoom_room (block : Nat) : ∀ (cores : List Nat) (s : State) (c : Nat),
    (((cores.foldl (fun s c => s.freeRoom block c) s).core c).room = if c ∈ cores then (s.core c).room.filter (fun e => e.1 != block) else (s.core c).room)
  | [], s, c => by simp
  | d :: rest, s, c => by
    rw [List.foldl_cons, State.foldl_freeRoom_room block rest, State.freeRoom, State.core_setCore]
    by_cases h : c = d
    · subst h
      by_cases hr : c ∈ rest <;> simp [hr]
    · simp [h]

theorem State.emptyL1s_of_nil {s : State} (h : s.l1 = []) (cluster : Nat) : s.emptyL1s cluster = s := by rw [State.emptyL1s, h]; rfl

/-- With no line in any L1, nothing leaves as a cluster is fused or ceases to be. -/
theorem State.reFuse_of_nil {s : State} (h : s.l1 = []) (cluster : Nat) (was : Bool) : s.reFuse cluster was = s := by
  rw [State.reFuse, State.emptyL1s_of_nil h, ite_self]

/-- The state without a block's room, its groups and its copies. -/
def State.unplaced (s : State) (b : Block) : State :=
  let t := b.cores.foldl (fun (s : State) c => s.freeRoom b.id c) s
  { t with groups := t.groups.filter (fun g => g.block != b.id), copyReqs := t.copyReqs.filter (fun r => r.block != b.id) }

theorem State.foldl_freeRoom_only (s : State) (block : Nat) (cores : List Nat) : CoresOnly s (cores.foldl (fun s c => s.freeRoom block c) s) :=
  CoresOnly.foldl (fun s c => s.freeRoom_only block c) s cores

theorem exec_blockRelease {s : State} {b : Block} (hb : s.block? (s.arg 0) = some b) (retired : b.state = .retired)
    (none : ∀ g ∈ s.groups, g.block = b.id → g.accs = []) (quiet : s.blockQuiet b = true) (l1 : s.l1 = []) :
    exec .blockRelease s = .next ((s.unplaced b).setBlock { b with state := .released }) := by
  have still : (s.blockGroups b.id).all (fun g => g.accs.isEmpty) = true := List.all_eq_true.mpr fun g hg => by
    obtain ⟨mem, blk⟩ := List.mem_filter.mp hg
    rw [none g mem (by simpa using blk)]; rfl
  have nil : ((s.unplaced b).setBlock { b with state := .released }).l1 = [] := (s.foldl_freeRoom_only b.id b.cores).l1.trans l1
  show whenDue _ = _
  rw [hb, Option.bind_eq_bind, Option.bind_some, if_neg (by simp only [retired, still, quiet]; decide)]
  exact congrArg Host.Outcome.next (State.reFuse_of_nil nil _ _)

end Sys2Proof.Machine
end

section
/-! Placing a block (R15, R86, R144, R231): its windows, its allotments, which read zero, and its groups as they start. -/
namespace Sys2Proof.Machine
open Sys2Proof

/-! ## Windows and allotments -/

theorem State.pinWindows_stand (s : State) (x : Grid) (path : List Nat) (die : Nat) : UnitsStand s (s.pinWindows x path die) := by
  refine UnitsStand.foldl (fun s e => ?_) s _
  dsimp only
  split
  · exact .refl s
  · exact ⟨rfl⟩

/-- A block has an allotment of `n` bytes on a core, all zero. -/
def State.allotted (s : State) (block n core : Nat) : Prop :=
  ∃ e ∈ (s.core core).room, e.1 = block ∧ e.2.2 = n ∧ ∀ p, p < n → Sparse.get (s.core core).spad (e.2.1 + p) = 0

theorem State.allotOn_only (s : State) (block size core : Nat) : CoresOnly s (s.allotOn block size core) := s.setCore_only _ _

theorem Core.clearRun_spad (c : Core) (a n p : Nat) :
    Sparse.get (c.clearRun a n).spad p = if a ≤ p ∧ p < a + n then 0 else Sparse.get c.spad p := by
  rw [Core.clearRun, Sparse.get_filter c.spad (fun o => !(decide (a ≤ o ∧ o < a + n))) p]
  by_cases h : a ≤ p ∧ p < a + n <;> simp [h]

theorem State.allotOn_allotted (s : State) (block n core : Nat) : (s.allotOn block n core).allotted block n core := by
  refine ⟨(block, ((s.core core).room.map (fun e => e.2.1 + e.2.2)).foldl max 0, n), ?_, rfl, rfl, fun p hp => ?_⟩
  · rw [State.allotOn, State.core_setCore, if_pos rfl]
    exact List.mem_append_right _ (List.mem_singleton_self _)
  · rw [State.allotOn, State.core_setCore, if_pos rfl]
    exact (Core.clearRun_spad _ _ _ _).trans (if_pos ⟨Nat.le_add_right _ _, Nat.add_lt_add_left hp _⟩)

theorem State.allotted.allotOn {s : State} {block n core : Nat} (h : s.allotted block n core) (block' n' core' : Nat) :
    (s.allotOn block' n' core').allotted block n core := by
  obtain ⟨e, mem, id, size, zero⟩ := h
  rw [State.allotted, State.allotOn, State.core_setCore]
  split
  · subst core
    refine ⟨e, List.mem_append_left _ mem, id, size, fun p hp => (Core.clearRun_spad _ _ _ _).trans ?_⟩
    split
    · rfl
    · exact zero p hp
  · exact ⟨e, mem, id, size, zero⟩

/-- A block gets an allotment on each of its cores, and keeps it while it gets those on the others. -/
theorem State.foldl_allotOn_allotted (block n : Nat) : ∀ (cores : List Nat) (s : State) (c : Nat), c ∈ cores ∨ s.allotted block n c →
    (cores.foldl (fun s c => s.allotOn block n c) s).allotted block n c
  | [], s, c, h => h.resolve_left List.not_mem_nil
  | d :: rest, s, c, h => by
    refine State.foldl_allotOn_allotted block n rest _ c ?_
    rcases h with h | h
    · rcases List.mem_cons.mp h with rfl | h
      · exact .inr (s.allotOn_allotted block n c)
      · exact .inl h
    · exact .inr (h.allotOn block n d)

/-! ## Groups -/

/-- Group `i` of a block at its start (R15, R86): slot A at the entry PC with all lanes, S0 to S3 the arguments, the other registers zero. -/
structure Started (x : Grid) (block first i : Nat) (g : Group) : Prop where
  block : g.block = block
  cid : g.cid = x.cid
  life : g.life = .resident
  slabs : g.slabs = x.launch.slabs
  core : g.core = first + (x.launch.seat i).1
  accs : g.accs = []
  a : g.a = { Slot.empty with st := .run, pc := x.launch.entry, mask := 0xFFFFFFFF, check := true }
  b : g.b = .empty
  uniform : ∀ r, g.peek (.s r) = if r < 4 then x.args.getD r 0 else 0
  vector : ∀ r l, g.peek (.v r l) = 0

/-- The four arguments, as S0 to S3 take them. -/
theorem get_startArgs (args : List DWord) (r : Nat) :
    Sparse.get ((List.range 4).foldl (fun (m : Sparse 64) j => Sparse.set m j (args.getD j 0)) []) r = if r < 4 then args.getD r 0 else 0 := by
  have four : List.range 4 = [0, 1, 2, 3] := rfl
  rw [four]
  simp only [List.foldl_cons, List.foldl_nil, Sparse.get_set]
  match r with
  | 0 | 1 | 2 | 3 => rfl
  | n + 4 =>
    rw [if_neg (by omega), if_neg (by omega), if_neg (by omega), if_neg (by omega), if_neg (by omega)]
    rfl

theorem State.startGroup_spec (s : State) (x : Grid) (block first : Nat) (path : List Nat) (i : Nat) :
    ∃ g, s.startGroup x block first path i = ({ s with nextId := s.nextId + 1, groups := s.groups ++ [g] }, g.id) ∧ Started x block first i g := by
  refine ⟨_, rfl, ⟨rfl, rfl, rfl, rfl, rfl, rfl, rfl, rfl, fun r => get_startArgs x.args r, fun _ _ => rfl⟩⟩

theorem State.startGroups_spec (x : Grid) (block first : Nat) (path : List Nat) : ∀ (is : List Nat) (s : State),
    ∃ gs, s.startGroups x block first path is = ({ s with nextId := s.nextId + is.length, groups := s.groups ++ gs }, gs.map (·.id)) ∧
      gs.length = is.length ∧ ∀ g ∈ gs, ∃ i ∈ is, Started x block first i g
  | [], s => ⟨[], by rw [List.append_nil]; rfl, rfl, fun g hg => nomatch hg⟩
  | i :: rest, s => by
    obtain ⟨g, hg, started⟩ := s.startGroup_spec x block first path i
    obtain ⟨gs, hgs, len, all⟩ := State.startGroups_spec x block first path rest { s with nextId := s.nextId + 1, groups := s.groups ++ [g] }
    refine ⟨g :: gs, ?_, congrArg (· + 1) len, fun y hy => ?_⟩
    · rw [State.startGroups, hg]
      dsimp only
      rw [hgs]
      simp [Nat.add_assoc, Nat.add_comm 1]
    · rcases List.mem_cons.mp hy with rfl | hy
      · exact ⟨i, List.mem_cons_self, started⟩
      · obtain ⟨j, hj, h⟩ := all y hy
        exact ⟨j, List.mem_cons_of_mem _ hj, h⟩

/-- Each group of a block has its seat on a core that the block uses (R231). -/
theorem Launch.seat_mem_coresAt {l : Launch} {i : Nat} (h : i < l.groupCount) (core : Nat) : (l.coresAt core).headD 0 + (l.seat i).1 ∈ l.coresAt core := by
  unfold Launch.coresAt Launch.seat
  split
  · have first : ((List.range (min l.groupCount 4)).map (fun i => core - core % 4 + i)).headD 0 = core - core % 4 := by
      obtain ⟨n, hn⟩ : ∃ n, min l.groupCount 4 = n + 1 := ⟨min l.groupCount 4 - 1, by omega⟩
      rw [hn, List.range_succ_eq_map]; rfl
    rw [first]
    exact List.mem_map.mpr ⟨i % 4, List.mem_range.mpr (by omega), rfl⟩
  · exact List.mem_singleton_self core

/-! ## The block -/

/-- The state in which a block's groups start: its windows pinned, its number taken, its allotments given. -/
def State.roomMade (s : State) (x : Grid) (path : List Nat) (core : Nat) : State :=
  let cores := x.launch.coresAt core
  let t := s.pinWindows x path (coreDie (cores.headD 0))
  cores.foldl (fun (u : State) c => u.allotOn t.nextId x.launch.spad c) { t with nextId := t.nextId + 1 }

/-- The number that a block takes. -/
def State.newBlockId (s : State) (x : Grid) (path : List Nat) (core : Nat) : Nat := (s.pinWindows x path (coreDie ((x.launch.coresAt core).headD 0))).nextId

/-- What stands once a block is placed at a core: the block, and its groups, started. -/
structure PlacedAt (s t : State) (x : Grid) (path : List Nat) (core : Nat) (b : Block) (gs : List Group) : Prop where
  blocks : t.blocks = s.blocks ++ [b]
  grid : b.grid = x.id
  path : b.path = path
  cores : b.cores = x.launch.coresAt core
  state : b.state = .resident
  groups : t.groups = s.groups ++ gs
  count : gs.length = x.launch.groupCount
  ids : gs.map (·.id) = b.groups
  started : ∀ g ∈ gs, g.core ∈ b.cores ∧ ∃ i, Started x b.id ((x.launch.coresAt core).headD 0) i g
  room : ∀ c ∈ b.cores, t.allotted b.id x.launch.spad c

theorem State.roomMade_rest (s : State) (x : Grid) (path : List Nat) (core : Nat) :
    (s.roomMade x path core).groups = s.groups ∧ (s.roomMade x path core).blocks = s.blocks := by
  have pinned := s.pinWindows_stand x path (coreDie ((x.launch.coresAt core).headD 0))
  have given : CoresOnly { s.pinWindows x path (coreDie ((x.launch.coresAt core).headD 0)) with nextId := s.newBlockId x path core + 1 } (s.roomMade x path core) :=
    CoresOnly.foldl (fun s c => s.allotOn_only _ _ c) _ _
  exact ⟨given.groups.trans pinned.groups, given.blocks.trans pinned.blocks⟩

/-- Placing, step by step: room, groups, the block, its cluster's L1s fused, its grid's account. -/
theorem State.placeBlock_eq {s : State} {x : Grid} (hx : s.grid? x.id = some x) (path : List Nat) (core : Nat) :
    let id := s.newBlockId x path core
    let r := (s.roomMade x path core).startGroups x id ((x.launch.coresAt core).headD 0) path (List.range x.launch.groupCount)
    ∃ b y u, b.id = id ∧ b.grid = x.id ∧ b.path = path ∧ b.cores = x.launch.coresAt core ∧ b.state = .resident ∧ b.groups = r.2 ∧
      UnitsStand { r.1 with blocks := r.1.blocks ++ [b] } u ∧ s.placeBlock x.id path core = u.setGrid y := by
  refine ⟨?block, ?grid, ?fused, ?id, ?of, ?path, ?cores, ?state, ?groups, ?stand, ?placed⟩
  case placed => rw [State.placeBlock, hx]
  case stand => exact State.reFuse_stand _ _ _
  all_goals rfl

theorem State.placeBlock_placed {s : State} {x : Grid} (hx : s.grid? x.id = some x) (path : List Nat) (core : Nat) :
    ∃ b gs, PlacedAt s (s.placeBlock x.id path core) x path core b gs := by
  obtain ⟨b, y, u, id, grid, hpath, cores, state, groups, stand, placed⟩ := State.placeBlock_eq hx path core
  obtain ⟨gs, hgs, len, started⟩ := State.startGroups_spec x (s.newBlockId x path core) ((x.launch.coresAt core).headD 0) path
    (List.range x.launch.groupCount) (s.roomMade x path core)
  obtain ⟨sameGroups, sameBlocks⟩ := s.roomMade_rest x path core
  rw [hgs] at groups stand
  have given : ∀ c ∈ x.launch.coresAt core, (s.roomMade x path core).allotted b.id x.launch.spad c := fun c hc =>
    id ▸ State.foldl_allotOn_allotted _ _ _ _ c (.inl hc)
  rw [placed]
  refine ⟨b, gs, ⟨stand.blocks.trans ?_, grid, hpath, cores, state, stand.groups.trans ?_, len.trans List.length_range, groups.symm, fun g hg => ?_, fun c hc => ?_⟩⟩
  · rw [sameBlocks]
  · rw [sameGroups]
  · obtain ⟨i, hi, h⟩ := started g hg
    rw [cores, h.core, id]
    exact ⟨Launch.seat_mem_coresAt (List.mem_range.mp hi) core, i, h⟩
  · have same : (u.setGrid y).core c = (s.roomMade x path core).core c := stand.core c
    rw [State.allotted, same]
    exact given c (cores ▸ hc)

/-- BLOCK_PLACE of a unit that is no gang, once no unit of an earlier rank could be placed (R336). -/
theorem exec_blockPlace {s : State} {x : Grid} (hx : s.grid? (s.arg 0) = some x) (places : s.gridPlaces x = true) (core : s.arg 1 < 512)
    (legal : x.legalPath (s.args.drop 2) = true) (fresh : x.placed.contains (s.args.drop 2) = false)
    (fits : s.fitsAt [] x (s.args.drop 2) (s.arg 1) = true) (first : s.othersFirst (x.band, 2, x.order) = false)
    (whole : x.launch.wholeLevel = x.launch.blockLevel) :
    let t := s.placeBlock x.id (s.args.drop 2) (s.arg 1)
    exec .blockPlace s = .next { t with gangs := t.gangs.filter (fun g => !(g.grid == x.id && g.path == x.wholeUnit (s.args.drop 2))) } := by
  show whenDue _ = _
  rw [hx, Option.bind_eq_bind, Option.bind_some]
  dsimp only
  rw [if_neg (by simp only [places, legal, fresh, fits, first, decide_eq_false (Nat.not_le.mpr core)]; decide), if_pos whole]
  rfl

end Sys2Proof.Machine
end

section
/-! Saving a block (R338, R339): its groups are saved, its room is free, and its image holds its scratchpad. -/
namespace Sys2Proof.Machine
open Sys2Proof

/-! ## The image of a scratchpad -/

/-- A stretch of a sparse store, moved down to zero. -/
theorem Sparse.get_stretch {w : Nat} (m : Sparse w) (base size p : Nat) (h : p < size) :
    Sparse.get ((m.filter (fun e => decide (base ≤ e.1 ∧ e.1 < base + size))).map (fun e => (e.1 - base, e.2))) p = Sparse.get m (base + p) := by
  induction m with
  | nil => rfl
  | cons e rest ih =>
    obtain ⟨k, v⟩ := e
    rw [List.filter_cons]
    by_cases inside : base ≤ k ∧ k < base + size
    · have same : k - base = p ↔ k = base + p := by omega
      simp only [inside, and_self, decide_true, if_true, List.map_cons, Sparse.get, ih, same]
    · have other : k ≠ base + p := by omega
      simp only [inside, decide_false, Bool.false_eq_true, if_false, ih, Sparse.get, other]

theorem State.spImage_bytes (s : State) (block core p : Nat) (h : p < (s.allot core block).2) :
    Sparse.get (s.spImage block core).bytes p = Sparse.get (s.core core).spad ((s.allot core block).1 + p) :=
  Sparse.get_stretch (s.core core).spad (s.allot core block).1 (s.allot core block).2 p h

/-! ## Groups as they are saved -/

theorem State.saveGroup_blocks (s : State) (g : Group) : (s.saveGroup g).blocks = s.blocks := by
  unfold State.saveGroup
  split
  · rfl
  · split <;> rfl

theorem State.saveGroup_copyReqs (s : State) (g : Group) : (s.saveGroup g).copyReqs = s.copyReqs := by
  unfold State.saveGroup
  split
  · rfl
  · split <;> rfl

/-- Saving a group of a block leaves no group of its number that is not saved, unless it is a retired one with copies. -/
theorem State.mem_saveGroup {s : State} {g h : Group} (done : g.live = true ∨ s.copies g = false) (mem : h ∈ (s.saveGroup g).groups) :
    h.life = .saved ∨ h ∈ s.groups ∧ h.id ≠ g.id := by
  unfold State.saveGroup at mem
  split at mem
  · obtain ⟨y, hy, rfl⟩ := List.mem_map.mp mem
    by_cases e : y.id = g.id
    · rw [if_pos e]; exact .inl rfl
    · rw [if_neg e]; exact .inr ⟨hy, e⟩
  · rename_i dead
    rw [if_neg (by simp [done.resolve_left dead])] at mem
    obtain ⟨hm, hne⟩ := List.mem_filter.mp mem
    exact .inr ⟨hm, by simpa using hne⟩

theorem State.foldl_saveGroup_saved {block : Nat} : ∀ {gs : List Group} {s : State}, (∀ g ∈ gs, g.live = true ∨ s.copies g = false) →
    (∀ h ∈ s.groups, h.block = block → h.life = .saved ∨ h.id ∈ gs.map (·.id)) →
    ∀ h ∈ (gs.foldl State.saveGroup s).groups, h.block = block → h.life = .saved
  | [], s, _, left, h, mem, blk => (left h mem blk).resolve_right List.not_mem_nil
  | g :: rest, s, done, left, h, mem, blk => by
    refine State.foldl_saveGroup_saved (s := s.saveGroup g) (fun y hy => ?_) (fun y hy yblk => ?_) h mem blk
    · rw [State.copies, State.saveGroup_copyReqs]
      exact done y (List.mem_cons_of_mem _ hy)
    · rcases State.mem_saveGroup (done g List.mem_cons_self) hy with saved | ⟨hm, hne⟩
      · exact .inl saved
      · refine (left y hm yblk).imp_right fun listed => ?_
        rcases List.mem_cons.mp listed with e | e
        · exact absurd e hne
        · exact e

/-! ## A block queued for relaunch -/

theorem State.wakeBlock_groups (s : State) (block : Nat) : (s.wakeBlock block).groups = s.groups := by unfold State.wakeBlock; split <;> rfl

theorem State.wakeBlock_core (s : State) (block c : Nat) : (s.wakeBlock block).core c = s.core c := by unfold State.wakeBlock; split <;> rfl

/-- Waking leaves a saved block saved, or queues it for relaunch; its image stands. -/
theorem State.wakeBlock_block? {s : State} {i : Nat} {b : Block} (h : s.block? i = some b) (saved : b.state = .saved) (block : Nat) :
    ∃ b', (s.wakeBlock block).block? i = some b' ∧ (b'.state = .saved ∨ b'.state = .woken) ∧ b'.images = b.images := by
  unfold State.wakeBlock
  split
  case h_1 z _ =>
    have keeps : ∀ y : Block, (if ((s.mates z).map (·.id)).contains y.id ∧ y.waiting then
        { y with state := if y.state = .saved then .woken else y.state, waiting := false } else y).id = y.id := fun y => by split <;> rfl
    refine ⟨_, (find?_map_key keeps s.blocks i).trans (congrArg (Option.map _) h), ?_, ?_⟩
    · dsimp only
      rw [saved]
      split
      · exact .inr rfl
      · exact .inl saved
    · dsimp only
      split <;> rfl
  case h_2 => exact ⟨b, h, .inl saved, rfl⟩

/-! ## The save -/

/-- Before the image is taken: the block's dirty lines written out, its memberships suspended. -/
def State.calmed (s : State) (b : Block) : State :=
  let gs := s.blockGroups b.id
  (gs.foldl State.suspendMember ((s.l1.filter (fun l => l.writers.any (fun gid => gs.any (fun g => g.id == gid)))).foldl State.flushL1 s)).settleHelds

/-- Once it is taken: the groups saved, the arrays given up, the room free. -/
def State.vacated (s : State) (b : Block) : State :=
  let calm := s.calmed b
  b.cores.foldl (fun (s : State) c => s.freeRoom b.id c)
    (((s.blockGroups b.id).foldl State.saveGroup calm).giveUpArrays b (calm.arraysOf b)).syncFeeding

theorem State.calmed_stand (s : State) (b : Block) : UnitsStand s (s.calmed b) :=
  ((UnitsStand.foldl State.flushL1_stand s _).trans (UnitsStand.foldl State.suspendMember_stand _ _)).trans (State.settleHelds_stand _)

theorem State.vacated_ids (s : State) (b : Block) : (s.vacated b).blocks.map (·.id) = s.blocks.map (·.id) := by
  have saved : ((s.blockGroups b.id).foldl State.saveGroup (s.calmed b)).blocks = s.blocks :=
    List.foldlRecOn (motive := fun (t : State) => t.blocks = s.blocks) _ _ (s.calmed_stand b).blocks fun _ h g _ => (State.saveGroup_blocks _ g).trans h
  rw [State.vacated, (State.foldl_freeRoom_only _ _ _).blocks, ← saved]
  exact ((State.giveUpArrays_standing _ b _).trans (State.syncFeeding_standing _)).blocks.ids

theorem State.vacated_groups {s : State} {b : Block} (done : ∀ g ∈ s.groups, g.block = b.id → g.live = true ∨ s.copies g = false) :
    ∀ g ∈ (s.vacated b).groups, g.block = b.id → g.life = .saved := by
  intro g hg blk
  rw [State.vacated, (State.foldl_freeRoom_only _ _ _).groups] at hg
  obtain ⟨h, hh, e⟩ := ((State.giveUpArrays_standing _ b _).trans (State.syncFeeding_standing _)).bare g hg
  have calm := s.calmed_stand b
  refine (congrArg Group.life e).trans (State.foldl_saveGroup_saved (block := b.id) (fun y hy => ?_) (fun y hy yblk => .inr ?_) h hh
    ((congrArg Group.block e).symm.trans blk))
  · obtain ⟨mem, yblk⟩ := List.mem_filter.mp hy
    rw [State.copies, calm.copyReqs]
    exact done y mem (by simpa using yblk)
  · exact List.mem_map_of_mem (List.mem_filter.mpr ⟨calm.groups ▸ hy, by simpa using yblk⟩)

/-- BLOCK_SAVED, step by step: the block vacated, its image written, its cluster's L1s no longer fused for it, and the wake that came meanwhile. -/
theorem exec_blockSaved_eq {s : State} {b : Block} (hb : s.block? (s.arg 0) = some b) (saving : b.state = .saving) (ready : s.saveReady b = true) :
    ∃ reqs a bs was b1, b1.id = b.id ∧ b1.state = .saved ∧ b1.images = b.cores.map ((s.calmed b).spImage b.id) ∧
      let t := ((({ s.vacated b with reqs := reqs } : State).storeBytes a bs).setBlock b1).reFuse b.cluster was
      exec .blockSaved s = .next (if (s.blockGroups b.id).any Group.woken then t.wakeBlock b.id else t) := by
  refine ⟨?reqs, ?a, ?bs, ?was, ?b1, ?id, ?state, ?images, ?run⟩
  case run =>
    show whenDue _ = _
    rw [hb, Option.bind_eq_bind, Option.bind_some, if_neg (by simp only [saving, ready]; decide)]
    rfl
  all_goals rfl

theorem exec_blockSaved {s : State} {b : Block} {c : Nat} (hb : s.block? (s.arg 0) = some b) (saving : b.state = .saving)
    (ready : s.saveReady b = true) (cores : b.cores = [c]) (done : ∀ g ∈ s.groups, g.block = b.id → g.live = true ∨ s.copies g = false) :
    ∃ t b' m, exec .blockSaved s = .next t ∧ t.block? b.id = some b' ∧ (b'.state = .saved ∨ b'.state = .woken) ∧
      (∀ g ∈ t.groups, g.block = b.id → g.life = .saved) ∧ (∀ e ∈ (t.core c).room, e.1 ≠ b.id) ∧ b'.images = [m] ∧ m.core = c ∧
      ∀ p, p < (s.allot c b.id).2 → Sparse.get m.bytes p = Sparse.get (s.core c).spad ((s.allot c b.id).1 + p) := by
  obtain ⟨reqs, a, bs, was, b1, id, saved, images, run⟩ := exec_blockSaved_eq hb saving ready
  have fused := State.reFuse_stand ((({ s.vacated b with reqs := reqs } : State).storeBytes a bs).setBlock b1) b.cluster was
  generalize ((({ s.vacated b with reqs := reqs } : State).storeBytes a bs).setBlock b1).reFuse b.cluster was = u at run fused
  have listed : b1.id ∈ (s.vacated b).blocks.map (·.id) := by
    rw [id, State.vacated_ids]; exact List.mem_map_of_mem (State.mem_of_block? hb)
  have found : u.block? b.id = some b1 := by
    rw [State.block?, fused.blocks, ← id]
    exact State.block?_setBlock (s := ({ s.vacated b with reqs := reqs } : State).storeBytes a bs) listed
  have groups : ∀ g ∈ u.groups, g.block = b.id → g.life = .saved := by
    rw [fused.groups]; exact State.vacated_groups done
  have room : ∀ e ∈ (u.core c).room, e.1 ≠ b.id := by
    intro e he
    rw [fused.core c] at he
    have kept : ((s.vacated b).core c).room = _ := State.foldl_freeRoom_room b.id b.cores _ c
    rw [if_pos (by rw [cores]; exact List.mem_singleton_self c)] at kept
    rw [show (((({ s.vacated b with reqs := reqs } : State).storeBytes a bs).setBlock b1).core c).room = ((s.vacated b).core c).room from rfl, kept] at he
    simpa using (List.mem_filter.mp he).2
  have calm := s.calmed_stand b
  have allot : (s.calmed b).allot c b.id = s.allot c b.id := by rw [State.allot, State.allot, calm.core c]
  have bytes : ∀ p, p < (s.allot c b.id).2 →
      Sparse.get ((s.calmed b).spImage b.id c).bytes p = Sparse.get (s.core c).spad ((s.allot c b.id).1 + p) := fun p hp => by
    rw [State.spImage_bytes _ _ _ _ (allot ▸ hp), calm.core c, allot]
  rw [cores, List.map_singleton] at images
  split at run
  · obtain ⟨b', found', state, same⟩ := State.wakeBlock_block? found saved b.id
    exact ⟨_, b', _, run, found', state, by rw [State.wakeBlock_groups]; exact groups, by rw [State.wakeBlock_core]; exact room,
      same.trans images, rfl, bytes⟩
  · exact ⟨_, b1, _, run, found, .inl saved, groups, room, images, rfl, bytes⟩

end Sys2Proof.Machine
end

section
/-! Resuming a block (R209, R234, R339): its groups stand on the cores of the new cluster, with what else they held; the block is resident there. -/
namespace Sys2Proof.Machine
open Sys2Proof

/-! ## Requests settled on resumption -/

section
variable {g h : Group} (same : h.bare = g.bare)
include same

theorem Group.id_of_bare : h.id = g.id := (congrArg Group.id same : h.bare.id = _)
theorem Group.life_of_bare : h.life = g.life := (congrArg Group.life same : h.bare.life = _)
theorem Group.core_of_bare : h.core = g.core := (congrArg Group.core same : h.bare.core = _)
theorem Group.slot_of_bare (n : SlotName) : h.slot n = g.slot n := (congrArg (Group.slot · n) same : h.bare.slot n = _)

end

/-- A group replaced by one that differs in accesses alone. -/
theorem State.setGroup_standing {s : State} {i : Nat} {g h : Group} (hg : s.group? i = some g) (same : h.bare = g.bare) : Standing s (s.setGroup h) where
  bare y hy := by
    obtain ⟨x, hx, rfl⟩ := List.mem_map.mp hy
    by_cases e : x.id = h.id
    · rw [if_pos e]; exact ⟨g, List.mem_of_find?_eq_some hg, same⟩
    · rw [if_neg e]; exact ⟨x, hx, rfl⟩
  group? j := by
    rw [State.group?_setGroup]
    split
    · have id := Group.id_of_bare same
      rename_i e
      rw [e, id, State.group?_id hg, hg]
      exact congrArg some same
    · rfl
  blocks := .of_eq rfl
  fc := rfl

theorem State.failAccess_standing (s : State) (gid acc : Nat) (f : Failure) : Standing s (s.failAccess gid acc f) := by
  unfold State.failAccess
  split
  · exact .refl s
  · next g hg =>
    split
    · exact .refl s
    · exact State.setGroup_standing hg rfl

theorem State.settleAccess_standing (s : State) (gid acc : Nat) : Standing s (s.settleAccess gid acc) := by
  unfold State.settleAccess
  split
  · exact .refl s
  · split
    · exact .refl s
    · next g hg =>
      split
      · exact .refl s
      · exact State.setGroup_standing hg rfl

theorem State.setReq_stand (s : State) (r : Req) : UnitsStand s (s.setReq r) := .casts s _ _ _ _ _

theorem State.finishReq_standing (s : State) (r : Req) : Standing s (s.finishReq r) :=
  (Standing.of_units (.casts s _ _ _ _ _)).trans (State.settleAccess_standing _ _ _)

/-- A failure settled of a request that is no slot's own: it takes no trap. -/
theorem State.settleFail_standing (s : State) {r : Req} (h : r.kind.ofSlot = false) (e : Failure) : Standing s (s.settleFail r e) := by
  unfold State.settleFail
  split
  case h_1 fetch _ => rw [fetch] at h; cases h
  case h_2 word _ => rw [word] at h; cases h
  case h_3 => exact (s.failAccess_standing _ _ _).trans (State.finishReq_standing _ _)

theorem State.resumeReq_standing (s : State) (core : Nat) {r : Req} (h : r.kind.ofSlot = false) : Standing s (s.resumeReq core r) := by
  unfold State.resumeReq
  dsimp only
  split
  case h_3 e _ => exact State.settleFail_standing s (r := { r with core := core }) h e
  all_goals exact .of_units (State.setReq_stand _ _)

/-! ## A group put back -/

/-- No request is a slot's own. -/
def State.noSlotReqs (s : State) : Prop := ∀ r ∈ s.reqs, r.kind.ofSlot = false

/-- A group as its block resumes on a cluster: a saved one is resident there, its log entries still to be found; of a retired one only its place moves. -/
def Group.resumedOn (cluster : Nat) (g : Group) : Group :=
  if g.life = .saved then
    { g with core := 4 * cluster + g.core % 4, life := .resident, a := g.a.resumed, b := g.b.resumed,
             accs := g.accs.map (fun a => if a.log.isSome then { a with log := some 64 } else a) }
  else { g with core := 4 * cluster + g.core % 4 }

@[simp] theorem Group.resumedOn_id (cluster : Nat) (g : Group) : (g.resumedOn cluster).id = g.id := by unfold Group.resumedOn; split <;> rfl

theorem State.relog_standing (gid : Nat) : ∀ (as : List Access) (s : State), Standing s (s.relog gid as)
  | [], s => .refl s
  | a :: rest, s => by
    rw [State.relog]
    split
    · next g _ hg _ =>
      refine Standing.trans ?_ (State.relog_standing gid rest _)
      refine Standing.trans ?_ (.of_units (.casts _ _ _ _ _ _))
      exact State.setGroup_standing hg rfl
    · exact State.relog_standing gid rest s

theorem State.relog_noSlotReqs (gid : Nat) : ∀ (as : List Access) (s : State), s.noSlotReqs → (s.relog gid as).noSlotReqs
  | [], s, h => h
  | a :: rest, s, h => by
    rw [State.relog]
    split
    · refine State.relog_noSlotReqs gid rest _ fun r hr => ?_
      obtain ⟨y, hy, rfl⟩ := List.mem_map.mp hr
      split <;> exact h y hy
    · exact State.relog_noSlotReqs gid rest s h

theorem State.spillOut_look (s : State) (g : Group) (n : SlotName) : LookOnly s (s.spillOut g n) := by
  refine List.foldlRecOn (motive := LookOnly s) _ _ (.refl s) fun t h _ _ => h.trans ?_
  split
  · split
    · exact .refl t
    · exact State.storeBytes_look _ _ _
  · exact .refl t

theorem LookOnly.reqs {s t : State} (h : LookOnly s t) : t.reqs = s.reqs := (congrArg State.reqs h.rest : (t.lookOf s).reqs = _)

/-- The state with a group's spilled entries written at its new place, and its watches gone. -/
def State.spilledOut (s : State) (g : Group) : State :=
  let t := (s.spillOut g .a).spillOut g .b
  { t with watches := t.watches.filter (fun w => w.gid != g.id) }

theorem State.spilledOut_look (s : State) (g : Group) : LookOnly s (s.spilledOut g) :=
  ((s.spillOut_look g .a).trans (State.spillOut_look _ g .b)).trans ⟨rfl⟩

theorem State.resumeGroup_eq (s : State) (cluster : Nat) (g : Group) : s.resumeGroup cluster g =
    if g.life = .saved then ((s.setGroup (g.resumedOn cluster)).spilledOut (g.resumedOn cluster)).relog (g.resumedOn cluster).id (g.resumedOn cluster).accs
    else s.setGroup (g.resumedOn cluster) := by
  by_cases life : g.life = .saved
  · rw [State.resumeGroup, if_neg (by simp [life]), Group.resumedOn, if_pos life, if_pos life]; rfl
  · rw [State.resumeGroup, if_pos (by simpa using life), Group.resumedOn, if_neg life, if_neg life]

/-- A group put back stands as resumed, but for its accesses. -/
theorem State.resumeGroup_standing (s : State) (cluster : Nat) (g : Group) : Standing (s.setGroup (g.resumedOn cluster)) (s.resumeGroup cluster g) := by
  rw [State.resumeGroup_eq]
  exact .ite ((Standing.of_units (.of_look (State.spilledOut_look _ _))).trans (State.relog_standing _ _ _)) (.refl _)

theorem State.resumeGroup_noSlotReqs {s : State} (none : s.noSlotReqs) (cluster : Nat) (g : Group) : (s.resumeGroup cluster g).noSlotReqs := by
  rw [State.resumeGroup_eq]
  split
  · refine State.relog_noSlotReqs _ _ _ fun r hr => none r ?_
    rw [(State.spilledOut_look _ _).reqs] at hr
    exact hr
  · exact none

/-- What putting some groups back does. -/
structure PutBack (cluster : Nat) (gs : List Group) (s t : State) : Prop where
  blocks : BlocksStand s t
  fc : t.fc = s.fc
  slots : s.noSlotReqs → t.noSlotReqs
  others : ∀ i, i ∉ gs.map (·.id) → (t.group? i).map Group.bare = (s.group? i).map Group.bare
  back : ∀ g ∈ gs, (s.group? g.id).isSome → (t.group? g.id).map Group.bare = some (g.resumedOn cluster).bare

theorem State.foldl_resumeGroup (cluster : Nat) : ∀ (gs : List Group) (s : State), (gs.map (·.id)).Nodup →
    PutBack cluster gs s (gs.foldl (fun s g => s.resumeGroup cluster g) s)
  | [], s, _ => ⟨.refl s, rfl, id, fun _ _ => rfl, fun _ hg => nomatch hg⟩
  | g :: rest, s, distinct => by
    obtain ⟨fresh, distinct⟩ := List.nodup_cons.mp distinct
    have stand := s.resumeGroup_standing cluster g
    have ih := State.foldl_resumeGroup cluster rest (s.resumeGroup cluster g) distinct
    have first : ∀ i, ((s.resumeGroup cluster g).group? i).map Group.bare =
        if i = g.id then (s.group? i).map (fun _ => (g.resumedOn cluster).bare) else (s.group? i).map Group.bare := by
      intro i
      rw [stand.group?, State.group?_setGroup, Group.resumedOn_id]
      split
      · rw [Option.map_map]; rfl
      · rfl
    have put : BlocksStand s (s.setGroup (g.resumedOn cluster)) := .of_eq rfl
    refine ⟨put.trans (stand.blocks.trans ih.blocks), ih.fc.trans stand.fc,
      fun none => ih.slots (State.resumeGroup_noSlotReqs none cluster g), fun i hi => ?_, fun y hy there => ?_⟩
    · obtain ⟨hne, hi⟩ := not_or.mp fun e => hi (List.mem_cons.mpr e)
      rw [List.foldl_cons, ih.others i hi, first, if_neg hne]
    · rcases List.mem_cons.mp hy with rfl | hy
      · obtain ⟨z, hz⟩ := Option.isSome_iff_exists.mp there
        rw [List.foldl_cons, ih.others _ fresh, first, if_pos rfl, hz]; rfl
      · have hne : y.id ≠ g.id := fun e => fresh (List.mem_map.mpr ⟨y, hy, e⟩)
        have kept := first y.id
        rw [if_neg hne] at kept
        refine ih.back y hy ?_
        rw [← Option.isSome_map, kept, Option.isSome_map]; exact there

/-! ## The block put back -/

theorem State.loadImage_only (s : State) (block core : Nat) (m : SpImage) : CoresOnly s (s.loadImage block core m) := s.setCore_only _ _

theorem State.raiseCount_only (s : State) (core : Nat) : CoresOnly s (s.raiseCount core) := by
  unfold State.raiseCount
  dsimp only
  split
  · exact ⟨rfl⟩
  · exact s.setCore_only _ _

theorem State.acquireAt_standing (s : State) (g : Group) : Standing s (s.acquireAt g) :=
  (Standing.of_units ((UnitsStand.ite (UnitsStand.foldl (fun s _ => s.applyPending_stand _) s _) (s.applyPending_stand _)).trans
    (State.noteAcquire_stand _ g))).trans (.of_cores (State.raiseCount_only _ _))

/-- A block's allotments, images, groups and replays on a cluster, before the block itself is entered there. -/
def State.returned (s : State) (b : Block) (spad cluster : Nat) : State :=
  let at_ := fun (c : Nat) => 4 * cluster + c % 4
  let cores := b.cores.map at_
  let s := cores.foldl (fun (s : State) c => s.allotOn b.id spad c) s
  let s := b.images.foldl (fun (s : State) m => s.loadImage b.id (at_ m.core) m) s
  let gs := s.blockGroups b.id
  let live := gs.filter Group.live
  let s := gs.foldl (fun (s : State) g => s.resumeGroup cluster g) s
  let s := cores.foldl (fun (s : State) c => s.setCore c { s.core c with lclk := mergeCount (s.core c).lclk b.savedLclk }) s
  (s.reqs.filter (fun r => live.any (fun g => g.id == r.gid))).foldl (fun (s : State) r => s.resumeReq (at_ r.core) r) s

theorem State.returned_spec {s : State} (b : Block) (spad cluster : Nat) (slots : s.noSlotReqs) (distinct : (s.groups.map (·.id)).Nodup) :
    BlocksStand s (s.returned b spad cluster) ∧ (s.returned b spad cluster).fc = s.fc ∧
      ∀ g ∈ s.blockGroups b.id, ∃ h, (s.returned b spad cluster).group? g.id = some h ∧ h.bare = (g.resumedOn cluster).bare := by
  unfold State.returned
  extract_lets at_ cores s1 s2 gs live s3 s4
  have roomed : CoresOnly s s2 := (CoresOnly.foldl (fun s c => s.allotOn_only b.id spad c) s cores).trans
    (CoresOnly.foldl (fun s (m : SpImage) => s.loadImage_only b.id (at_ m.core) m) s1 b.images)
  have mine : gs = s.blockGroups b.id := by rw [State.blockGroups, ← roomed.groups]; rfl
  have back : PutBack cluster gs s2 s3 := State.foldl_resumeGroup cluster gs s2
    (mine ▸ List.Nodup.sublist (List.filter_sublist.map _) distinct)
  have counted : CoresOnly s3 s4 := CoresOnly.foldl (fun s c => s.setCore_only c _) s3 cores
  have none : s4.noSlotReqs := fun r hr => back.slots (fun r hr => slots r (roomed.reqs ▸ hr)) r (counted.reqs ▸ hr)
  have settled : Standing s4 ((s4.reqs.filter (fun r => live.any (fun g => g.id == r.gid))).foldl (fun (s : State) r => s.resumeReq (at_ r.core) r) s4) :=
    List.foldlRecOn _ _ (.refl s4) fun t h r hr => h.trans (State.resumeReq_standing t _ (none r (List.mem_filter.mp hr).1))
  have after : Standing s3 _ := (Standing.of_cores counted).trans settled
  refine ⟨(BlocksStand.of_eq roomed.blocks).trans (back.blocks.trans after.blocks), after.fc.trans (back.fc.trans roomed.fc), fun g hg => ?_⟩
  have there : (s2.group? g.id).isSome := by
    rw [State.group?, roomed.groups]
    exact List.find?_isSome.mpr ⟨g, (List.mem_filter.mp hg).1, by simp⟩
  exact Option.map_eq_some_iff.mp ((after.group? g.id).trans (back.back g (mine ▸ hg) there))

/-- Resuming, step by step: the block returned and entered at its cluster; what else follows leaves groups and block standing, but that the
slots of its groups meet their joins. -/
theorem State.resumeBlock_eq (s : State) (b : Block) (spad cluster : Nat) :
    ∃ b1 u, b1.id = b.id ∧ b1.state = .resident ∧ b1.cluster = cluster ∧ b1.placedFc = (s.returned b spad cluster).fc ∧
      Standing ((s.returned b spad cluster).setBlock b1) u ∧
      s.resumeBlock b spad cluster = ((s.blockGroups b.id).filter Group.live).foldl (fun (s : State) g => s.settleSlots g.id) u := by
  unfold State.resumeBlock
  extract_lets at_ cores s1 s2 gs live mine s3 s4 replays s5 owed fused s6 s7 s8 s9 s10 s11
  have roomed : CoresOnly s s2 := (CoresOnly.foldl (fun s c => s.allotOn_only b.id spad c) s cores).trans
    (CoresOnly.foldl (fun s (m : SpImage) => s.loadImage_only b.id (at_ m.core) m) s1 b.images)
  have groups : gs = s.blockGroups b.id := by rw [State.blockGroups, ← roomed.groups]; rfl
  have refused : Standing s6 s7 := .of_units (State.reFuse_stand s6 _ _)
  have ready : Standing s7 s8 := Standing.foldl (fun s (e : Nat × Matrix) => s.putReady_standing (at_ e.1) e.2) s7 b.arrays
  have granted : Standing s8 s9 := Standing.foldl (fun s (e : Nat × Matrix) => s.grantArrays_standing e.1) s8 owed
  have joined : Standing s9 s10 := .of_units ((UnitsStand.foldl State.rejoin_stand s9 _).trans (State.settleHelds_stand _))
  have acquired : Standing s10 s11 := (Standing.foldl State.acquireAt_standing s10 _).trans (State.syncFeeding_standing _)
  refine ⟨_, s11, ?id, ?state, ?cluster, ?placed, (((refused.trans ready).trans granted).trans joined).trans acquired, ?run⟩
  case run => rw [← groups]
  all_goals rfl

/-! ## Slots that meet no join -/

theorem Slot.arriving_of_resumed {x : Slot} (h : x.resumed.arriving = false) : x.arriving = false := by
  cases hw : x.wait with
  | none =>
    have none : x.watching.isSome = false := by rw [Slot.watching, hw]; rfl
    rwa [Slot.resumed, none] at h
  | some w => simp [Slot.arriving, hw]

theorem Group.resumedOn_not_arriving {g : Group} (ha : g.a.resumed.arriving = false) (hb : g.b.resumed.arriving = false) (cluster : Nat) :
    (g.resumedOn cluster).a.arriving = false ∧ (g.resumedOn cluster).b.arriving = false := by
  unfold Group.resumedOn
  split
  · exact ⟨ha, hb⟩
  · exact ⟨Slot.arriving_of_resumed ha, Slot.arriving_of_resumed hb⟩

theorem State.settleSlot_of_not_arriving {s : State} {i : Nat} {g : Group} (hg : s.group? i = some g) {n : SlotName} (h : (g.slot n).arriving = false) :
    ∀ fuel, s.settleSlot i n fuel = s
  | 0 => rfl
  | fuel + 1 => by rw [State.settleSlot, hg]; simp [h]

theorem State.foldl_settleSlots {s : State} : ∀ {gs : List Group},
    (∀ g ∈ gs, ∃ h, s.group? g.id = some h ∧ h.a.arriving = false ∧ h.b.arriving = false) → gs.foldl (fun (s : State) g => s.settleSlots g.id) s = s
  | [], _ => rfl
  | g :: rest, still => by
    obtain ⟨h, hg, ha, hb⟩ := still g List.mem_cons_self
    have same : s.settleSlots g.id = s := by
      rw [State.settleSlots, State.settleSlot_of_not_arriving hg (n := .a) ha, State.settleSlot_of_not_arriving hg (n := .b) hb]
    rw [List.foldl_cons, same]
    exact State.foldl_settleSlots fun y hy => still y (List.mem_cons_of_mem _ hy)

/-! ## The event -/

theorem State.block?_of_stand {s t : State} {b : Block} (listed : b.id ∈ s.blocks.map (·.id)) (h : BlocksStand (s.setBlock b) t) :
    ∃ b', t.block? b.id = some b' ∧ b'.bare = b.bare := by
  rw [← State.setBlock_ids s b, ← h.ids] at listed
  obtain ⟨y, hy, e⟩ := List.mem_map.mp listed
  obtain ⟨b', hb'⟩ : ∃ b', t.block? b.id = some b' := Option.isSome_iff_exists.mp (List.find?_isSome.mpr ⟨y, hy, by simp [e]⟩)
  obtain ⟨x, hx, same⟩ := h.bare b' (State.mem_of_block? hb')
  refine ⟨b', hb', same.trans ?_⟩
  rcases State.mem_setBlock hx with rfl | ⟨-, hne⟩
  · rfl
  · exact absurd ((Block.id_of_bare same).symm.trans (State.block?_id hb')) hne

/-- BLOCK_RESUME of a unit of one block, where no unit of an earlier rank comes first (R336, R339). -/
theorem exec_blockResume_eq {s : State} {b : Block} (hb : s.block? (s.arg 0) = some b) (args : s.args = [b.id, s.arg 1]) (inside : s.arg 1 < 128)
    (whole : s.wholeUnitOf b [b.id] = true) (fits : s.resumesAt b (s.arg 1) = true) (first : s.othersFirst (s.blockRank b) = false) :
    ∃ spad, exec .blockResume s = .next (s.resumeBlock b spad (s.arg 1)) := by
  obtain ⟨x, hx⟩ : ∃ x, s.grid? b.grid = some x := by
    unfold State.resumesAt at fits
    split at fits
    · cases fits
    · exact ⟨_, ‹_›⟩
  have places : pairsOf s.args = [(b.id, s.arg 1)] := by rw [args]; rfl
  have again : s.block? b.id = some b := by rw [State.block?_id hb]; exact hb
  refine ⟨x.launch.spad, ?_⟩
  show whenDue _ = _
  rw [hb, Option.bind_eq_bind, Option.bind_some, places]
  dsimp only
  rw [if_neg (by simp only [List.map_cons, List.map_nil, whole, first]; decide), State.resumeAll, again, Option.bind_eq_bind, Option.bind_some, hx,
    Option.bind_eq_bind, Option.bind_some, if_neg (by simp only [fits, decide_eq_false (Nat.not_le.mpr inside)]; decide)]
  rfl

theorem exec_blockResume {s : State} {b : Block} (hb : s.block? (s.arg 0) = some b) (args : s.args = [b.id, s.arg 1]) (inside : s.arg 1 < 128)
    (whole : s.wholeUnitOf b [b.id] = true) (fits : s.resumesAt b (s.arg 1) = true) (first : s.othersFirst (s.blockRank b) = false)
    (slots : s.noSlotReqs) (still : ∀ g ∈ s.groups, g.block = b.id → g.a.resumed.arriving = false ∧ g.b.resumed.arriving = false)
    (distinct : (s.groups.map (·.id)).Nodup) :
    ∃ t b', exec .blockResume s = .next t ∧ t.block? b.id = some b' ∧ b'.state = .resident ∧ b'.cluster = s.arg 1 ∧ b'.placedFc = s.fc ∧
      ∀ g ∈ s.groups, g.block = b.id → g.life = .saved → ∃ h ∈ t.groups, h.id = g.id ∧ h.life = .resident ∧ h.core = 4 * s.arg 1 + g.core % 4 := by
  obtain ⟨spad, run⟩ := exec_blockResume_eq hb args inside whole fits first
  obtain ⟨b1, u, id, resident, cluster, placed, stand, resumed⟩ := s.resumeBlock_eq b spad (s.arg 1)
  obtain ⟨blocks, fc, back⟩ := State.returned_spec b spad (s.arg 1) slots distinct
  have groups : ∀ g ∈ s.blockGroups b.id, ∃ h, u.group? g.id = some h ∧ h.bare = (g.resumedOn (s.arg 1)).bare := fun g hg => by
    obtain ⟨h, hh, same⟩ := back g hg
    exact Option.map_eq_some_iff.mp ((stand.group? g.id).trans ((congrArg (Option.map Group.bare) hh).trans (congrArg some same)))
  have settled : s.resumeBlock b spad (s.arg 1) = u := by
    rw [resumed]
    refine State.foldl_settleSlots fun g hg => ?_
    obtain ⟨mem, blk⟩ := List.mem_filter.mp (List.mem_filter.mp hg).1
    obtain ⟨h, hh, same⟩ := groups g (List.mem_filter.mp hg).1
    obtain ⟨ha, hb⟩ := still g mem (by simpa using blk)
    obtain ⟨ra, rb⟩ := Group.resumedOn_not_arriving ha hb (s.arg 1)
    have a := Group.slot_of_bare same .a
    have b := Group.slot_of_bare same .b
    exact ⟨h, hh, (congrArg Slot.arriving a).trans ra, (congrArg Slot.arriving b).trans rb⟩
  have listed : b1.id ∈ (s.returned b spad (s.arg 1)).blocks.map (·.id) := by
    rw [id, blocks.ids]; exact List.mem_map_of_mem (State.mem_of_block? hb)
  obtain ⟨b', found, same⟩ := State.block?_of_stand listed stand.blocks
  refine ⟨u, b', settled ▸ run, id ▸ found, (congrArg Block.state same).trans resident, (congrArg Block.cluster same).trans cluster,
    (congrArg Block.placedFc same).trans (placed.trans fc), fun g mem blk saved => ?_⟩
  obtain ⟨h, hh, same⟩ := groups g (List.mem_filter.mpr ⟨mem, by simpa using blk⟩)
  rw [Group.resumedOn, if_pos saved] at same
  exact ⟨h, List.mem_of_find?_eq_some hh, (Group.id_of_bare same :), (Group.life_of_bare same :), (Group.core_of_bare same :)⟩

end Sys2Proof.Machine
end

section
/-! The distributor's statement, clause by clause. -/
namespace Sys2Proof.Machine
open Sys2Proof

/-- Settles O48: each event as it comes about, and the frames of what it goes through. -/
theorem workPlacement : Obligations.WorkPlacement := by
  unfold Obligations.WorkPlacement
  refine ⟨?place, ?affinity, ?save, ?saved, ?resume, ?reserve, ?evict, ?timeout, ?release⟩
  case place =>
    intro s x hx core path l places inside legal fresh fits first whole
    have again : s.grid? x.id = some x := by rw [State.grid?_id hx]; exact hx
    obtain ⟨b, gs, p⟩ := State.placeBlock_placed again path core
    refine ⟨_, b, gs, exec_blockPlace hx places inside legal fresh fits first whole, p.blocks, p.grid, p.path, p.cores, p.state, p.groups, p.count, p.ids,
      fun g hg => ?_, p.room⟩
    obtain ⟨seat, i, h⟩ := p.started g hg
    exact ⟨h.block, h.cid, h.life, h.slabs, seat, h.accs, h.a, h.b, h.uniform, h.vector⟩
  case affinity => exact fun s x hx places any home due full => exec_affinityTimeout hx places any home due full
  case save =>
    intro s b x path hb may only hx places waits band full
    obtain ⟨y, hy, id, saving⟩ := State.requestSave_saving (by rw [State.block?_id hb]; exact hb) (State.saveable_of_preemptible may)
    exact ⟨_, y, exec_saveRequest hb may only hx places waits band full, hy, id, saving⟩
  case saved => exact fun s b c hb saving ready cores ended => exec_blockSaved hb saving ready cores ended
  case resume =>
    exact fun s b hb args inside whole fits first slots still distinct => exec_blockResume hb args inside whole fits first slots still distinct
  case reserve =>
    intro s x hx i unit free waits age turn mem best
    exact exec_gangReserve hx waits age turn mem best
  case evict =>
    intro s x g i b hx unit l hg hi live waits age full hb only
    have mem : b ∈ s.blocks.filter (fun b => s.preemptible b && instanceOf (l.domainAt l.wholeLevel) (b.cores.headD 0) == i) := by
      rw [only]; exact List.mem_singleton_self b
    have may : s.preemptible b = true := (Bool.and_eq_true_iff.mp (List.mem_filter.mp mem).2).1
    obtain ⟨y, hy, id, saving⟩ := State.requestSave_saving hb (State.saveable_of_preemptible may)
    exact ⟨_, y, exec_gangEvict hx hg hi live waits age full only, hy, id, saving⟩
  case timeout =>
    intro s x hx waits age
    have again : s.grid? x.id = some x := by rw [State.grid?_id hx]; exact hx
    exact ⟨_, exec_gangTimeout hx waits age, State.grid?_setGrid again rfl, fun g hg => by simpa using (List.mem_filter.mp hg).2, fun _ => rfl⟩
  case release =>
    intro s b hb retired none quiet l1
    have freed := s.foldl_freeRoom_only b.id b.cores
    have listed : b.id ∈ (s.unplaced b).blocks.map (·.id) := by
      rw [show (s.unplaced b).blocks = s.blocks from freed.blocks]; exact List.mem_map_of_mem (State.mem_of_block? hb)
    refine ⟨_, _, exec_blockRelease hb retired none quiet l1, State.block?_setBlock (b := { b with state := .released }) listed, rfl,
      fun g hg => by simpa using (List.mem_filter.mp hg).2, fun c hc e he => ?_, fun a => congrArg (Sparse.get · a) freed.mem⟩
    have room : (((s.unplaced b).setBlock { b with state := .released }).core c).room = _ := State.foldl_freeRoom_room b.id b.cores s c
    rw [room, if_pos hc] at he
    simpa using (List.mem_filter.mp he).2

end Sys2Proof.Machine
end

section
/-! What RDSR, WRSR, FMTSET and FMTGET read and write (R35, R36, R91, R92): the special registers by number, FMT, and the trap registers. -/
namespace Sys2Proof.Machine
open Sys2Proof Sys2Proof.Claims

/-! ## Writes that nothing waits for, and traps of the issuing instruction -/

/-- The slot advanced in a group of which only registers changed: a register instruction's whole effect. -/
theorem State.advance_wrote_of_registers {s : State} {u : Issuer} {h : Group} {val : Cell → Option DWord} (hu : s.issuer? = some u)
    (rest : h.registersOf u.g = u.g) (cells : ∀ c : Cell, c.valid → h.peek c = (val c).getD (u.g.peek c)) :
    Wrote s (s.advance h u.name) u val := by
  have id : h.id = u.g.id := (congrArg Group.id rest : (h.registersOf u.g).id = u.g.id)
  have slots : ∀ n, h.slot n = u.g.slot n := by
    intro n
    cases n
    · exact (congrArg Group.a rest : (h.registersOf u.g).a = u.g.a)
    · exact (congrArg Group.b rest : (h.registersOf u.g).b = u.g.b)
  have only := State.setGroup_only s (h.setSlot u.name (h.slot u.name).advance)
  rw [Group.setSlot_id, id] at only
  refine ⟨only, h.setSlot u.name (h.slot u.name).advance, ?_, ⟨?_, ?_⟩, ?_, fun c hc => ?_⟩
  · rw [State.advance, State.group?_setGroup, Group.setSlot_id, if_pos id.symm, State.issuer?_group hu]; rfl
  · have : ∀ x : Slot, ((h.setSlot u.name x).registersOf u.g).slotsOf u.g = (h.registersOf u.g).slotsOf u.g := by
      intro x; cases u.name <;> rfl
    rw [this, rest]; rfl
  · rw [Group.setSlot_other, slots]
  · rw [Group.setSlot_slot, slots]; rfl
  · rw [Group.setSlot_peek, cells c hc]

@[simp] theorem Group.writeNow_peek (g : Group) (t : Nat) (c : Cell) (x : DWord) (c' : Cell) :
    (g.writeNow t c x).peek c' = (g.poke c x).peek c' := by cases c' <;> rfl

/-- A result in an S register that stands before the slot issues again (R59). -/
theorem State.writeNow_wrote {s : State} {u : Issuer} (hu : s.issuer? = some u) (r : Nat) (x : DWord) :
    Wrote s (s.advance (u.g.writeNow s.turn (.s r) x) u.name) u (cellVal (.s r) x) := by
  refine State.advance_wrote_of_registers hu rfl fun c hc => ?_
  rw [Group.writeNow_peek, Group.peek_poke u.g (c := .s r) trivial hc, cellVal]
  split <;> rfl

/-- One S register as an instruction's result. -/
theorem State.result_s_wrote {s : State} {u : Issuer} (hu : s.issuer? = some u) (r : Nat) (x : DWord) :
    Wrote s (s.result u [(.s r, x)]) u (cellVal (.s r) x) :=
  (State.write_wrote hu (single_good (c := .s r) trivial nofun)).congr fun c _ => lastOf_single (.s r) x c

/-- A result one register wide for each lane. -/
theorem laneResults_one (part : Mask) (d : Nat) (v : Nat → Nat) :
    laneResults part d 1 v = (lanesOf part).map (fun l => (.v d l, BitVec.ofNat 64 (v l % 2 ^ 32))) := by
  rw [laneResults, List.map_eq_flatMap]; rfl

/-- One V register's low 32 bits in each lane of a set as an instruction's results. -/
theorem State.result_v_wrote {s : State} {u : Issuer} (hu : s.issuer? = some u) (part : Mask) (d : Nat) (x : Nat → DWord) :
    Wrote s (s.result u ((lanesOf part).map (fun l => (.v d l, ((x l).setWidth 32).setWidth 64)))) u
      (laneVal part d 1 (fun l => ((x l).setWidth 32).toNat)) := by
  have results : (lanesOf part).map (fun l => (Cell.v d l, ((x l).setWidth 32).setWidth 64)) =
      laneResults part d 1 (fun l => ((x l).setWidth 32).toNat) := by
    simp only [laneResults_one, Nat.mod_eq_of_lt (BitVec.isLt _), BitVec.ofNat_toNat]
  rw [results]
  exact (State.write_wrote hu (laneResults_good _ _ _ _)).congr fun c hc => lastOf_laneResults _ _ _ _ hc

/-- The issuing slot's group replaced by one of the same number. -/
theorem State.setGroup_becomes {s : State} {u : Issuer} {h : Group} (hu : s.issuer? = some u) (id : h.id = u.g.id) :
    Becomes s (s.setGroup h) u h := by
  refine ⟨id ▸ State.setGroup_only s h, ?_⟩
  rw [State.group?_setGroup, if_pos id.symm, State.issuer?_group hu]; rfl

theorem raises_of_exec {i : Instr} {s : State} {u : Issuer} {cause : Nat} {e : DWord} (hu : s.issuer? = some u)
    (run : exec i s = .next (s.raise u cause e)) (hm : mayTrap s u) : raises i s u cause e :=
  ⟨_, run, State.trap_entry hu hm cause e u.slot.mask 0⟩

/-! ## FMT -/

/-- The model's check of a value for FMT (R34) by its fields. -/
theorem fmtLegal_iff (w : Word) : fmtLegal w.toNat = true ↔ fmtOk w := by
  have high : w.extractLsb' 20 12 = 0 ↔ bitsAt w.toNat 20 12 = 0 := by
    rw [← BitVec.toNat_inj, BitVec.extractLsb'_toNat, Nat.shiftRight_eq_div_pow]; rfl
  have round : (w.extractLsb' 15 3).toNat = bitsAt w.toNat 15 3 := by
    rw [BitVec.extractLsb'_toNat, Nat.shiftRight_eq_div_pow]; rfl
  rw [fmtOk, high, round, fmtLegal, Bool.and_eq_true, beq_iff_eq, decide_eq_true_eq]

theorem State.setFmt_of_ok {s : State} {u : Issuer} {w : Word} (ok : fmtOk w) :
    s.setFmt u w.toNat = s.setGroup (u.g.setSlot u.name { u.slot.advance with fmt := w }) := by
  rw [State.setFmt, if_pos ((fmtLegal_iff w).mpr ok), BitVec.ofNat_toNat, BitVec.setWidth_eq]

theorem State.setFmt_of_not_ok {s : State} {u : Issuer} {w : Word} (bad : ¬ fmtOk w) : s.setFmt u w.toNat = s.raise u causeUndef 0 := by
  rw [State.setFmt, if_neg (mt (fmtLegal_iff w).mp bad)]

/-- An instruction that sets FMT (R34, R92): a legal value stands in the slot that goes on; any other raises UNDEF. -/
theorem setFmt_outcomes {i : Instr} {s : State} {u : Issuer} {w : Word} (hu : s.issuer? = some u) (run : exec i s = .next (s.setFmt u w.toNat)) :
    (fmtOk w → ∃ t, exec i s = .next t ∧ Becomes s t u (u.g.setSlot u.name { u.slot.advance with fmt := w })) ∧
    (¬ fmtOk w → mayTrap s u → raises i s u 1 0) := by
  refine ⟨fun ok => ⟨_, run, ?_⟩, fun bad hm => raises_of_exec hu (run.trans ?_) hm⟩
  · rw [State.setFmt_of_ok ok]; exact State.setGroup_becomes hu (Group.setSlot_id ..)
  · rw [State.setFmt_of_not_ok bad]; rfl

/-! ## The special registers by number -/

/-- A field at the bottom of a register is the register under a mask. -/
theorem State.field_zero (s : State) (off w : Nat) : BitVec.ofNat 64 (s.field off 0 w) = s.reg off &&& BitVec.ofNat 64 (2 ^ w - 1) := by
  rw [State.field, Nat.pow_zero, Nat.div_one, ← Nat.and_two_pow_sub_one_eq_mod, BitVec.ofNat_and, BitVec.ofNat_toNat, BitVec.setWidth_eq]

/-- The module's number, the low ten bits of MODID. -/
theorem State.special_modid (s : State) (u : Issuer) (l : Nat) : s.special u 0x06 l = s.reg 0x2000 &&& 0x3FF := s.field_zero modid 10

theorem State.special_lvlIdx (s : State) (u : Issuer) (l : Nat) {i : Nat} (h : i < 7) :
    s.special u (0x11 + i) l = BitVec.ofNat 64 (u.g.lvlIdx.getD (i + 1) 0) := by
  have numbers : i = 0 ∨ i = 1 ∨ i = 2 ∨ i = 3 ∨ i = 4 ∨ i = 5 ∨ i = 6 := by omega
  rcases numbers with rfl | rfl | rfl | rfl | rfl | rfl | rfl <;> rfl

theorem State.special_lvlDim (s : State) (u : Issuer) (l : Nat) {i : Nat} (h : i < 7) :
    s.special u (0x19 + i) l = BitVec.ofNat 64 (u.g.lvlDim.getD (i + 1) 1) := by
  have numbers : i = 0 ∨ i = 1 ∨ i = 2 ∨ i = 3 ∨ i = 4 ∨ i = 5 ∨ i = 6 := by omega
  rcases numbers with rfl | rfl | rfl | rfl | rfl | rfl | rfl <;> rfl

/-- The trap registers (R35): the trap bank's words in trap mode, zero outside it. -/
theorem State.special_trap (s : State) (u : Issuer) (l : Nat) {i : Nat} (h : i < 3) :
    s.special u (0x0C + i) l = if u.slot.trap.isSome then u.g.read s.turn 0 (.s (192 + i)) else 0 := by
  have numbers : i = 0 ∨ i = 1 ∨ i = 2 := by omega
  rcases numbers with rfl | rfl | rfl <;> rfl

/-- Each row of the table of R35 and R36 gives what the model reads under its number. -/
theorem special_of_mem_specials {s : State} {u : Issuer} {l n : Nat} {x : DWord} (h : (n, x) ∈ specials s u l) : s.special u n l = x := by
  simp only [specials, List.mem_append, List.mem_map, List.mem_range] at h
  rcases h with (named | ⟨i, hi, row⟩) | ⟨i, hi, row⟩
  · simp only [List.mem_cons, Prod.mk.injEq, List.not_mem_nil, or_false] at named
    rw [← s.special_modid u l] at named
    rcases named with ⟨rfl, rfl⟩ | ⟨rfl, rfl⟩ | ⟨rfl, rfl⟩ | ⟨rfl, rfl⟩ | ⟨rfl, rfl⟩ | ⟨rfl, rfl⟩ | ⟨rfl, rfl⟩ | ⟨rfl, rfl⟩ | ⟨rfl, rfl⟩ |
      ⟨rfl, rfl⟩ | ⟨rfl, rfl⟩ | ⟨rfl, rfl⟩ | ⟨rfl, rfl⟩ | ⟨rfl, rfl⟩ <;> rfl
  · cases row; exact s.special_lvlIdx u l hi
  · cases row; exact s.special_lvlDim u l hi

/-- The same numbers are named in every lane. -/
theorem specials_numbers (s : State) (u : Issuer) (l l' : Nat) : (specials s u l).map Prod.fst = (specials s u l').map Prod.fst := rfl

theorem specialOf_isSome_iff {s : State} {u : Issuer} {l n : Nat} : (specialOf s u l n).isSome ↔ n ∈ (specials s u l).map Prod.fst := by
  rw [specialOf, List.lookup_isSome_iff, List.mem_map]
  simp only [beq_iff_eq, @eq_comm _ n]

/-- A number that the table names reads, in every lane, what the table says. -/
theorem specialOf_getD {s : State} {u : Issuer} {n : Nat} (named : (specialOf s u 0 n).isSome) (l : Nat) :
    (specialOf s u l n).getD 0 = s.special u n l := by
  rw [specialOf_isSome_iff, specials_numbers s u 0 l, ← specialOf_isSome_iff] at named
  obtain ⟨x, hx⟩ := Option.isSome_iff_exists.mp named
  obtain ⟨before, after, rows, _⟩ := List.lookup_eq_some_iff.mp hx
  have row : (n, x) ∈ specials s u l := rows ▸ List.mem_append_right before List.mem_cons_self
  rw [hx, Option.getD_some, special_of_mem_specials row]

/-! ## The instructions -/

section
variable {s : State} {u : Issuer} (hu : s.issuer? = some u) (f : EF)
include hu

/-- RDSR to a V register: the low 32 bits in each participating lane (R91). -/
theorem exec_rdsrV : ∃ t, exec (.rdsrV f) s = .next t ∧
    Wrote s t u (laneVal (partOf s u f.toCommon) f.d.toNat 1 (fun l => ((s.special u f.u.toNat l).setWidth 32).toNat)) :=
  ⟨_, State.issue_of hu _, State.result_v_wrote hu _ _ _⟩

/-- RDSR to an S register: all 64 bits (R91). -/
theorem exec_rdsrS : ∃ t, exec (.rdsrS f) s = .next t ∧ Wrote s t u (cellVal (.s (sName u.slot f.d.toNat)) (s.special u f.u.toNat 0)) :=
  ⟨_, State.issue_of hu _, State.result_s_wrote hu _ _⟩

theorem exec_fmtget : ∃ t, exec (.fmtget f) s = .next t ∧ Wrote s t u (cellVal (.s (sName u.slot f.d.toNat)) (u.slot.fmt.setWidth 64)) :=
  ⟨_, State.issue_of hu _, State.result_s_wrote hu _ _⟩

theorem exec_fmtset : exec (.fmtset f) s = .next (s.setFmt u f.imm.toNat) := State.issue_of hu _

/-- WRSR of FMT takes the low 32 bits and ignores the rest (R91). -/
theorem exec_wrsr_fmt (fmt : f.u.toNat = 0x0A) :
    exec (.wrsr f) s = .next (s.setFmt u ((u.g.rdS u.slot s.turn 0 f.a.toNat).setWidth 32).toNat) := by
  refine (State.issue_of hu _).trans (congrArg _ ?_)
  dsimp only
  rw [if_pos (BitVec.eq_of_toNat_eq fmt), BitVec.toNat_setWidth]

/-- WRSR of a trap register: into the trap bank in trap mode, else UNDEF (R35). -/
theorem exec_wrsr_trap {i : Nat} (hi : i < 3) (reg : f.u.toNat = 0x0C + i) : exec (.wrsr f) s = .next (if u.slot.trap.isNone then
    s.raise u causeUndef 0 else s.advance (u.g.writeNow s.turn (.s (192 + i)) (u.g.rdS u.slot s.turn 0 f.a.toNat)) u.name) := by
  have other : f.u ≠ 0x0A := by
    intro e
    rw [e] at reg
    have : (10 : Nat) = 0x0C + i := reg
    omega
  refine (State.issue_of hu _).trans (congrArg _ ?_)
  dsimp only
  rw [if_neg other, reg, Nat.add_sub_cancel_left, trapBank]

end

/-- Settles O11: the reads by the table of R35 and R36, the writes by FMT's check and the trap mode. -/
theorem specialRegisters : Obligations.SpecialRegisters := by
  unfold Obligations.SpecialRegisters
  refine ⟨?vector, ?uniform, ?trapRead, ?fmtWrite, ?trapWrite, ?fmtset, ?fmtget⟩
  case vector =>
    intro f s u hu named
    simp only [specialOf_getD named]
    exact exec_rdsrV hu f
  case uniform =>
    intro f s u hu named
    rw [specialOf_getD named]
    exact exec_rdsrS hu f
  case trapRead =>
    intro f i s u hu hi reg
    rw [← s.special_trap u 0 hi, ← reg]
    exact exec_rdsrS hu f
  case fmtWrite => exact fun f s u hu reg => setFmt_outcomes hu (exec_wrsr_fmt hu f reg)
  case trapWrite =>
    intro f i s u hu hi reg
    have run := exec_wrsr_trap hu f hi reg
    refine ⟨fun out hm => raises_of_exec hu (run.trans ?_) hm, fun mode => ⟨_, run, ?_⟩⟩
    · rw [out]; rfl
    · rw [if_neg (by rwa [Option.isNone_iff_eq_none])]
      exact State.writeNow_wrote hu _ _
  case fmtset => exact fun f s u hu => setFmt_outcomes hu (exec_fmtset hu f)
  case fmtget => exact fun f s u hu => exec_fmtget hu f

end Sys2Proof.Machine
end

section
/-! The machine never stops: whatever a slot is given to issue was decoded, or kept by a parked slot, as a Verric instruction, a slot is named for it, and
an event that cannot come about is passed over (R96, R100). -/
namespace Sys2Proof.Machine
open Sys2Proof

/-! ## What the decoder names has an encoding -/

theorem isCode_of_vrInstr {op fn : Nat} {f : VR} {i : Instr} (h : vrInstr op fn f = some i) : i.isCode = true := by
  unfold vrInstr at h
  split at h <;> cases h <;> rfl

theorem isCode_of_viInstr {op fn : Nat} {f : VI} {i : Instr} (h : viInstr op fn f = some i) : i.isCode = true := by
  unfold viInstr at h
  split at h <;> cases h <;> rfl

theorem isCode_of_srInstr {op fn : Nat} {f : SR} {i : Instr} (h : srInstr op fn f = some i) : i.isCode = true := by
  unfold srInstr at h
  split at h <;> cases h <;> rfl

theorem isCode_of_mInstr {op fn : Nat} {f : MF} {i : Instr} (h : mInstr op fn f = some i) : i.isCode = true := by
  unfold mInstr at h
  split at h <;> cases h <;> (repeat' split) <;> rfl

theorem isCode_of_bInstr {op fn : Nat} {f : BF} {i : Instr} (h : bInstr op fn f = some i) : i.isCode = true := by
  unfold bInstr at h
  split at h <;> cases h <;> rfl

theorem isCode_of_mxInstr {op fn : Nat} {f : MX} {i : Instr} (h : mxInstr op fn f = some i) : i.isCode = true := by
  unfold mxInstr at h
  split at h <;> cases h <;> (repeat' split) <;> rfl

theorem isCode_of_eInstr {op fn : Nat} {f : EF} {i : Instr} (h : eInstr op fn f = some i) : i.isCode = true := by
  unfold eInstr at h
  split at h <;> cases h <;> (repeat' split) <;> rfl

theorem isCode_of_decode {c : Code} {i : Instr} (h : decode c = .ok i) : i.isCode = true := by
  obtain ⟨fm, -, raw, -, -⟩ := of_decode h
  cases fm with
  | vr => exact isCode_of_vrInstr raw
  | vi => exact isCode_of_viInstr raw
  | sr => exact isCode_of_srInstr raw
  | m => exact isCode_of_mInstr raw
  | b => exact isCode_of_bInstr raw
  | mx => exact isCode_of_mxInstr raw
  | e => exact isCode_of_eInstr raw

/-! ## What a quadrant's turn runs -/

theorem isCode_of_partnerOf {bs : List Byte} {pc : Pc} {i : Instr} {c : Code} {p : Partner} (h : partnerOf bs pc i c = some p) :
    p.instr.isCode = true := by
  unfold partnerOf at h
  dsimp only at h
  split at h
  · split at h
    · cases h
    · next decoded =>
      split at h
      · cases h; exact isCode_of_decode decoded
      · cases h
  · cases h

/-- The late checks of R62 let through the instruction that they were given, with its partner. -/
theorem State.lateChecks_run {s : State} {g : Group} {fmt : Word} {i j : Instr} {c d : Code} {p q : Option Partner}
    (h : s.lateChecks g fmt i c p = .run j d q) : j = i ∧ q = p := by
  unfold State.lateChecks at h
  split at h
  · cases h
  · split at h
    · cases h
    · split at h
      · cases h
      · cases h; exact ⟨rfl, rfl⟩

/-- An instruction and a partner that have encodings. -/
def codesOf (i : Instr) (p : Option Partner) : Prop := i.isCode = true ∧ ∀ q, p = some q → q.instr.isCode = true

theorem State.lineChecks_run {s : State} {g : Group} {x : Slot} {bs : List Byte} {i : Instr} {c : Code} {p : Option Partner}
    (h : s.lineChecks g x bs = .run i c p) : codesOf i p := by
  unfold State.lineChecks at h
  dsimp only at h
  split at h
  · split at h <;> cases h
  · split at h
    · cases h
    · split at h
      · cases h
      · split at h
        · cases h
        · split at h
          · split at h <;> cases h
          · split at h
            · cases h
            · next decoded =>
              obtain ⟨rfl, rfl⟩ := State.lateChecks_run h
              exact ⟨isCode_of_decode decoded, fun q hq => isCode_of_partnerOf hq⟩

theorem State.nextInstr_run {s t : State} {g : Group} {x : Slot} {i : Instr} {c : Code} {p : Option Partner}
    (h : s.nextInstr g x = (t, .run i c p)) : codesOf i p := by
  unfold State.nextInstr at h
  split at h
  · split at h
    · cases h
    · cases h
    · exact State.lineChecks_run (Prod.mk.inj h).2
  · cases h

/-- A turn that runs an instruction runs a Verric one, with a Verric partner if any, for a slot that is named. -/
def Turn.runnable : Turn → Prop
  | .run i p s => codesOf i p ∧ ∃ u, s.issuer? = some u
  | _ => True

/-- The group of the issuing slot replaced by one of the same number: the slot still issues. -/
theorem State.issuer?_setGroup {s : State} {u : Issuer} {h : Group} (hu : s.issuer? = some u) (id : h.id = u.g.id) :
    (s.setGroup h).issuer? = some ⟨h, u.name⟩ := by
  unfold State.issuer? at hu ⊢
  rw [State.setGroup_issuer]
  split at hu
  · next gid n issuer =>
    obtain ⟨g, found, rfl⟩ := Option.map_eq_some_iff.mp hu
    rw [State.group?_setGroup, id, if_pos (State.group?_id found).symm, found]
    rfl
  · cases hu

/-- The age of the slot that issues set to zero: it still issues. -/
theorem State.ageIssued_issuer? {s : State} {u : Issuer} (hu : s.issuer? = some u) :
    ∃ v, (s.ageIssued u.g.id u.name).issuer? = some v := by
  rw [State.ageIssued, State.issuer?_group hu]
  exact ⟨_, State.issuer?_setGroup hu (Group.setSlot_id ..)⟩

/-- A slot of a listed group named as the issuer, its group put back with that slot changed. -/
theorem State.issuer?_of_named {s : State} {g h : Group} (listed : s.group? g.id = some g) (id : h.id = g.id) (n : SlotName) (x : Slot) :
    ({ s.setGroup (h.setSlot n x) with issuer := some (h.id, n) } : State).issuer? = some ⟨h.setSlot n x, n⟩ := by
  show ((s.setGroup (h.setSlot n x)).group? h.id).map _ = _
  rw [State.group?_setGroup, Group.setSlot_id, if_pos rfl, id, listed]
  rfl

theorem State.slotTurn_runnable {s : State} {gid : Nat} {g : Group} (n : SlotName) (found : s.group? gid = some g) : (s.slotTurn g n).runnable := by
  have id : g.id = gid := State.group?_id found
  have groups := s.nextInstr_groups g (g.slot n)
  unfold State.slotTurn
  dsimp only
  split
  · trivial
  · trivial
  · trivial
  · trivial
  · next t i c p fetched =>
    rw [fetched] at groups
    have stands : t.group? g.id = some g := by rw [State.group?, groups, id]; exact found
    split
    · trivial
    · split
      · trivial
      · have same : (if Code.bit c 0 then g.mark (g.slot n).mask else g).id = g.id := by split <;> rfl
        have issuer := State.issuer?_of_named stands same n (g.slot n).issuing
        have aged := State.ageIssued_issuer? issuer
        rw [Group.setSlot_id] at aged
        exact ⟨State.nextInstr_run fetched, aged⟩

theorem State.quadTurn_runnable : ∀ (order : List (Nat × SlotName × Nat)) (s : State), (s.quadTurn order).runnable
  | [], _ => trivial
  | p :: rest, s => by
    unfold State.quadTurn
    split
    · exact State.quadTurn_runnable rest s
    · next g found =>
      have turn := State.slotTurn_runnable p.2.1 found
      split
      · exact State.quadTurn_runnable rest _
      · exact turn

/-! ## Each move goes on -/

theorem goesOn_finishIssue {o : Host.Outcome State Fault Refusal} (h : goesOn o) : goesOn (finishIssue o) := by
  obtain ⟨t, rfl⟩ := h
  exact goesOn_next _

/-- An event goes on: it comes about, or is passed over. -/
theorem goesOn_finishEvent (s : State) {o : Host.Outcome State Fault Refusal} (h : notRefused o) : goesOn (finishEvent s o) := by
  cases o with
  | next t => exact goesOn_next _
  | fault f => exact goesOn_next _
  | refused r => exact absurd rfl (h r)

/-- The second of a pair is the partner, and the slot that issued the first issues it. -/
theorem State.pairSecond_some {before after t : State} {p : Partner} {j : Instr} (h : before.pairSecond after p = some (j, t)) :
    j = p.instr ∧ ∃ u, t.issuer? = some u := by
  unfold State.pairSecond at h
  split at h
  · next u w _ issuer =>
    dsimp only at h
    split at h
    · split at h
      · next run =>
        split at h
        · cases h
        · cases h
          exact ⟨(State.lateChecks_run run).1, _, State.issuer?_setGroup issuer rfl⟩
      · cases h
    · cases h
  · cases h

theorem State.runPartner_goesOn (before after : State) {p : Partner} (h : p.instr.isCode = true) : goesOn (before.runPartner after p) := by
  unfold State.runPartner
  split
  · exact goesOn_next _
  · next j t second =>
    obtain ⟨rfl, u, issuer⟩ := State.pairSecond_some second
    obtain ⟨r, run⟩ := exec_goesOn h issuer
    rw [run]
    exact goesOn_next _

theorem State.runIssue_goesOn {s : State} {u : Issuer} {i : Instr} {p : Option Partner} (codes : codesOf i p) (hu : s.issuer? = some u) :
    goesOn (s.runIssue i p) := by
  obtain ⟨hi, hp⟩ := codes
  obtain ⟨t, run⟩ := exec_goesOn hi hu
  unfold State.runIssue
  rw [run]
  cases p with
  | none => exact goesOn_next _
  | some q => exact State.runPartner_goesOn s t (hp q rfl)

theorem State.issueFrom_goesOn (s : State) (core q : Nat) : goesOn (s.issueFrom core q) := by
  have turn := State.quadTurn_runnable (s.issueOrder core q) (s.ageQuad core q)
  unfold State.issueFrom
  split
  · split
    · exact goesOn_next _
    · exact goesOn_next _
    · next i p t taken =>
      rw [taken] at turn
      obtain ⟨codes, u, hu⟩ := turn
      exact State.runIssue_goesOn codes hu
  · exact goesOn_next _

/-- What a parked slot goes on with is a Verric instruction. -/
theorem State.slotResumes_isCode {s : State} {g : Group} {n : SlotName} {i : Instr} (h : s.slotResumes g n = some i) : i.isCode = true := by
  unfold State.slotResumes at h
  split at h
  · cases h
  · simp only [Option.ite_none_right_eq_some, Option.some.injEq, Bool.and_eq_true] at h
    obtain ⟨⟨-, code⟩, rfl⟩ := h
    exact code

theorem State.resumeFrom_goesOn (s : State) (gid : Nat) (n : SlotName) : goesOn (s.resumeFrom gid n) := by
  unfold State.resumeFrom
  split
  · exact goesOn_next _
  · next g found =>
    split
    · exact goesOn_next _
    · split
      · exact goesOn_next _
      · next i resumed =>
        have issuer : ({ s with issuer := some (gid, n) } : State).issuer? = some ⟨g, n⟩ := by
          show (s.group? gid).map _ = _
          rw [found]; rfl
        obtain ⟨t, run⟩ := goesOn_finishIssue (exec_goesOn (State.slotResumes_isCode resumed) issuer)
        rw [run]
        exact goesOn_next _

theorem State.move_goesOn (s : State) : ∀ m : Move, goesOn (s.move m)
  | .pass _ _ => goesOn_next _
  | .quad core q => s.issueFrom_goesOn core q
  | .resume gid n => s.resumeFrom_goesOn gid n
  | .event i _ => goesOn_finishEvent s (exec_notRefused i _)

/-- Settles O59: a move of the agenda or of the free schedule goes on, whatever it is; with neither, the turn passes. -/
theorem stepNeverStops : Obligations.StepNeverStops := by
  unfold Obligations.StepNeverStops State.Safe
  intro s
  unfold step
  split
  · exact State.move_goesOn _ _
  · split
    · exact State.move_goesOn _ _
    · exact goesOn_next _

end Sys2Proof.Machine
end

section
/-! Values taken over the participating lanes: ELECT and the VOTEs (R90), RDLANE and the SHFLs (R121). -/
namespace Sys2Proof.Machine
open Sys2Proof Sys2Proof.Claims

/-! ## Sets of lanes -/

/-- The lowest of a set's lanes is the one below which the set has none. -/
theorem lowestLane_eq_iff {m : Mask} {l : Nat} (hl : l < 32) (mem : laneIn m l = true) : l = lowestLane m ↔ ∀ k < l, laneIn m k = false := by
  have first : (lanesOf m).head? = (List.range 32).find? (laneIn m) := List.head?_filter ..
  rw [lowestLane, List.headD_eq_head?_getD, first]
  constructor
  · intro h k hk
    cases found : (List.range 32).find? (laneIn m) with
    | none => exact absurd mem (by simpa using List.find?_eq_none.mp found l (List.mem_range.mpr hl))
    | some j =>
      rw [found, Option.getD_some] at h
      subst h
      simpa using (List.find?_range_eq_some.mp found).2.2 k hk
  · intro h
    rw [List.find?_range_eq_some.mpr ⟨mem, List.mem_range.mpr hl, fun k hk => by simp [h k hk]⟩, Option.getD_some]

/-- The sum of the powers of two of the lanes below a number that pass a test. -/
def powerSum (f : Nat → Bool) (n : Nat) : Nat := (((List.range n).filter f).map (fun k => 2 ^ k)).sum

theorem powerSum_succ (f : Nat → Bool) (n : Nat) : powerSum f (n + 1) = powerSum f n + if f n then 2 ^ n else 0 := by
  unfold powerSum
  rw [List.range_succ, List.filter_append, List.map_append, List.sum_append]
  cases h : f n <;> simp [h]

theorem powerSum_lt (f : Nat → Bool) : ∀ n, powerSum f n < 2 ^ n
  | 0 => Nat.one_pos
  | n + 1 => by
    have ih := powerSum_lt f n
    rw [powerSum_succ, Nat.pow_succ]
    split <;> omega

/-- The lanes below a number that pass a test, gathered in a mask. -/
def maskBelow (f : Nat → Bool) (n : Nat) : Mask := (List.range n).foldl (fun m l => if f l then m ||| (1#32 <<< l) else m) 0

theorem maskBelow_toNat (f : Nat → Bool) : ∀ n ≤ 32, (maskBelow f n).toNat = powerSum f n
  | 0, _ => rfl
  | n + 1, hn => by
    have ih := maskBelow_toNat f n (by omega)
    have bit : (1#32 <<< n).toNat = 2 ^ n := BitVec.toNat_twoPow_of_lt (w := 32) (by omega)
    have step : maskBelow f (n + 1) = if f n then maskBelow f n ||| (1#32 <<< n) else maskBelow f n := by
      rw [maskBelow, List.range_succ, List.foldl_append]; rfl
    rw [step, powerSum_succ]
    split
    · rw [BitVec.toNat_or, bit, ih, Nat.or_comm]
      have disjoint := Nat.two_pow_add_eq_or_of_lt (powerSum_lt f n) 1
      rw [Nat.mul_one] at disjoint
      omega
    · exact ih

theorem maskOf_toNat (f : Nat → Bool) : (maskOf f).toNat = powerSum f 32 := maskBelow_toNat f 32 (Nat.le_refl _)

/-! ## Results in the participating lanes -/

/-- Predicate results matter in the lanes of the set alone. -/
theorem predVal_congr {part : Mask} {pd : Nat} {v v' : Nat → Bool} (same : ∀ l < 32, laneIn part l = true → v l = v' l) {c : Cell} (hc : c.valid) :
    predVal part pd v c = predVal part pd v' c := by
  cases c with
  | p r l =>
    unfold predVal
    dsimp only
    by_cases named : r = pd ∧ pd ≠ 7 ∧ laneIn part l = true
    · rw [if_pos named, if_pos named, same l hc named.2.2]
    · rw [if_neg named, if_neg named]
  | _ => rfl

/-- The value of a lane that exists is all that lane results depend on. -/
theorem laneVal_congr {part : Mask} {d n : Nat} {v v' : Nat → Nat} (same : ∀ l < 32, v l = v' l) {c : Cell} (hc : c.valid) :
    laneVal part d n v c = laneVal part d n v' c := by
  cases c with
  | v r l => rw [laneVal, laneVal, same l hc]
  | _ => rfl

/-- One word of each lane of a set, in a V register, as an instruction's results. -/
theorem State.result_word_wrote {s : State} {u : Issuer} (hu : s.issuer? = some u) (part : Mask) (d : Nat) (x : Nat → Word) :
    Wrote s (s.result u ((lanesOf part).map (fun l => (.v d l, (x l).setWidth 64)))) u (laneVal part d 1 (fun l => (x l).toNat)) := by
  have cut : ∀ l, ((x l).setWidth 64).setWidth 32 = x l := fun l => BitVec.setWidth_setWidth_of_le _ (by decide)
  have wrote := State.result_v_wrote hu part d fun l => (x l).setWidth 64
  simpa only [cut] using wrote

/-- One predicate of each lane of a set as an instruction's results. -/
theorem State.result_p_wrote {s : State} {u : Issuer} (hu : s.issuer? = some u) (part : Mask) {pd : Nat} (hpd : pd ≠ 7) (v : Nat → Bool) :
    Wrote s (s.result u ((lanesOf part).map (fun l => (.p pd l, boolWord (v l))))) u (predVal part pd v) := by
  have results : (lanesOf part).map (fun l => (Cell.p pd l, boolWord (v l))) = predResults part pd v := (if_neg hpd).symm
  rw [results]
  exact (State.write_wrote hu (predResults_good _ _ _)).congr fun c hc => lastOf_predResults _ _ _ hc

/-- Results in V registers, with a predicate. -/
theorem State.write_lanes_preds_wrote {s : State} {u : Issuer} (hu : s.issuer? = some u) (part : Mask) (d n pd : Nat) (v : Nat → Nat) (w : Nat → Bool) :
    Wrote s (s.write u (laneResults part d n v ++ predResults part pd w)) u (both (laneVal part d n v) (predVal part pd w)) := by
  refine (State.write_wrote hu (append_good (laneResults_good _ _ _ _) (predResults_good _ _ _))).congr fun c hc => ?_
  rw [lastOf_append, lastOf_laneResults _ _ _ _ hc, lastOf_predResults _ _ _ hc, both]
  cases c with
  | p r l => simp [laneVal]
  | _ => simp [predVal]

/-! ## Votes -/

theorem Issuer.voters_eq_votes (s : State) (u : Issuer) (part : Mask) (a : Nat) : u.voters s.turn part a = votes s u part a 32 := by
  rw [Issuer.voters, lanesOf, List.filter_filter, votes]
  exact List.filter_congr fun l _ => Bool.and_comm _ _

theorem mem_votes {s : State} {u : Issuer} {part : Mask} {a k l : Nat} : l ∈ votes s u part a k ↔ l < k ∧ laneIn part l = true ∧ u.g.rdP s.turn 0 a l = true := by
  simp [votes, laneIn]

/-- All of a set's lanes vote where each lane of it has the predicate. -/
theorem Issuer.voters_all (s : State) (u : Issuer) (part : Mask) (a : Nat) : (u.voters s.turn part a == lanesOf part) =
    (List.range 32).all (fun k => !part.getLsbD k || u.g.rdP s.turn 0 a k) := by
  rw [Bool.eq_iff_iff, beq_iff_eq, Issuer.voters, List.filter_eq_self, List.all_eq_true]
  simp only [mem_lanesOf, List.mem_range, Bool.or_eq_true, Bool.not_eq_true', laneIn]
  exact ⟨fun h k hk => (Bool.eq_false_or_eq_true (part.getLsbD k)).symm.imp_right fun mem => h k ⟨hk, mem⟩,
    fun h l hl => (h l hl.1).resolve_left (by simp [hl.2])⟩

/-- The votes below a lane are those among all votes that stand below it. -/
theorem votes_filter_lt (s : State) (u : Issuer) (part : Mask) (a : Nat) {l : Nat} (hl : l < 32) :
    (votes s u part a 32).filter (· < l) = votes s u part a l := by
  have twoParts : List.range 32 = List.range l ++ (List.range (32 - l)).map (l + ·) := by rw [← List.range_add]; congr 1; omega
  have below : (votes s u part a l).filter (· < l) = votes s u part a l :=
    List.filter_eq_self.mpr fun k hk => decide_eq_true (mem_votes.mp hk).1
  rw [votes, twoParts, List.filter_append, List.filter_append, ← votes, below]
  refine List.append_right_eq_self.mpr (List.filter_eq_nil_iff.mpr fun k hk => ?_)
  obtain ⟨j, -, rfl⟩ := List.mem_map.mp (List.mem_filter.mp hk).1
  simp

theorem votes_filter_length_lt (s : State) (u : Issuer) (part : Mask) (a l : Nat) : ((votes s u part a 32).filter (· < l)).length < 2 ^ 32 := by
  have few : (votes s u part a 32).length ≤ 32 := Nat.le_trans (List.length_filter_le _ _) (Nat.le_of_eq List.length_range)
  exact Nat.lt_of_le_of_lt (Nat.le_trans (List.length_filter_le _ _) few) (by decide)

/-- The mask of the lanes that vote, as a number. -/
theorem maskOf_votes (s : State) (u : Issuer) (part : Mask) (a : Nat) :
    (maskOf (fun k => (votes s u part a 32).contains k)).toNat = ((votes s u part a 32).map (fun k => 2 ^ k)).sum := by
  have same : (List.range 32).filter (fun k => (votes s u part a 32).contains k) = votes s u part a 32 :=
    List.filter_congr fun k hk => by simp [votes, List.mem_range.mp hk]
  rw [maskOf_toNat, powerSum, same]

theorem all_eq_head_iff (f : Nat → Nat) (d : Nat) (ls : List Nat) :
    (ls.map f).all (fun x => x == (ls.map f).headD d) = true ↔ ∀ j ∈ ls, ∀ k ∈ ls, f j = f k := by
  cases ls with
  | nil => simp
  | cons x rest =>
    rw [List.all_map, List.all_eq_true]
    simp only [List.map_cons, List.headD_cons, Function.comp_apply, beq_iff_eq]
    exact ⟨fun h j hj k hk => (h j hj).trans (h k hk).symm, fun h j hj => h j hj x List.mem_cons_self⟩

/-- The values of a set's lanes agree with the first where any two of them agree. -/
theorem lanesOf_agree (m : Mask) (f : Nat → Nat) (d : Nat) : ((lanesOf m).map f).all (fun x => x == ((lanesOf m).map f).headD d) =
    (List.range 32).all (fun j => (List.range 32).all (fun k => !m.getLsbD j || !m.getLsbD k || f j == f k)) := by
  rw [Bool.eq_iff_iff, all_eq_head_iff]
  simp only [mem_lanesOf, laneIn, List.all_eq_true, List.mem_range, Bool.or_eq_true, Bool.not_eq_true', beq_iff_eq]
  grind

theorem typeRegs_bits {t : BitVec 5} (h : t.toNat = 0 ∨ t.toNat = 20) : (if t = 20 then 2 else 1) = typeRegs t.toNat := by
  rcases h with h | h
  · rw [show t = 0 from BitVec.eq_of_toNat_eq h]; rfl
  · rw [show t = 20 from BitVec.eq_of_toNat_eq h]; rfl

/-! ## Sources of a shuffle -/

/-- The source lanes of the four SHFLs, in segments of a power of two. -/
theorem shflSource_eq (kind : Fin 4) {m : Nat} (hm : m ≤ 5) (l b : Nat) :
    shflSource (kind.val + 1) (2 ^ m) l b = shuffleSource kind.val (2 ^ m) l (BitVec.ofNat 32 b) := by
  have base : l - l % 2 ^ m = l / 2 ^ m * 2 ^ m := by have := Nat.div_add_mod' l (2 ^ m); omega
  have within : (BitVec.ofNat 32 b).toNat % 2 ^ m = b % 2 ^ m := by
    rw [BitVec.toNat_ofNat, Nat.mod_mod_of_dvd _ (Nat.pow_dvd_pow 2 (by omega))]
  have offset : l - l / 2 ^ m * 2 ^ m = l % 2 ^ m := by have := Nat.div_add_mod' l (2 ^ m); omega
  unfold shflSource shuffleSource
  dsimp only
  rw [base, within]
  match kind with
  | 0 => rfl
  | 1 =>
    show some _ = some _
    rw [offset, Nat.add_mod, ← within, ← Nat.add_mod]
  | 2 =>
    show (if _ then _ else _) = (if _ then _ else _)
    rw [readInt_signed (by decide), Int.natCast_add]
  | 3 => rfl

/-- The lane of a SHFL's value, where it is valid and participates (R121). -/
theorem Issuer.shflLane_eq (u : Issuer) (turn : Nat) (f : VR) (hw : f.rm.toNat ≤ 4) (kind : Fin 4) (part : Mask) (l : Nat) :
    u.shflLane turn f (kind.val + 1) part l =
      (shuffleSource kind.val (32 / 2 ^ f.rm.toNat) l (BitVec.ofNat 32 (u.opB turn f 1 l))).filter (fun j => part.getLsbD j) := by
  have width : 32 / 2 ^ f.rm.toNat = 2 ^ (5 - f.rm.toNat) := Nat.pow_div (m := 5) (x := 2) (by omega) (by decide)
  rw [Issuer.shflLane, width, shflSource_eq kind (by omega)]
  rfl

/-! ## The instructions -/

theorem exec_shfl (kind : Fin 4) (f : VR) (s : State) : exec (([Instr.shflIdx, Instr.shflRot, Instr.shflShift, Instr.shflXor].getD kind.val Instr.shflIdx) f) s =
    s.shfl f (kind.val + 1) := by
  match kind with
  | 0 | 1 | 2 | 3 => rfl

/-- Settles O9: each value over the set of participating lanes, then the registers that take it. -/
theorem lanesTogether : Obligations.LanesTogether := by
  unfold Obligations.LanesTogether
  refine ⟨⟨?elect, ?or, ?and, ?same, ?mask, ?rank⟩, ?rdlane, ?shfl⟩
  case elect =>
    intro f s u hu hpd
    refine ⟨_, State.issue_of hu _, (State.result_p_wrote hu _ hpd _).congr fun c hc => predVal_congr (fun l hl mem => ?_) hc⟩
    rw [Bool.eq_iff_iff, beq_iff_eq, lowestLane_eq_iff hl mem, List.all_eq_true]
    simp only [List.mem_range, Bool.not_eq_true']
    rfl
  case or =>
    intro f s u hu hpd
    refine ⟨_, State.issue_of hu _, (State.result_p_wrote hu _ hpd _).congr fun c hc => ?_⟩
    rw [Issuer.voters_eq_votes]; rfl
  case and =>
    intro f s u hu hpd
    refine ⟨_, State.issue_of hu _, (State.result_p_wrote hu _ hpd _).congr fun c hc => ?_⟩
    rw [Issuer.voters_all]; rfl
  case same =>
    intro f ht s u hu hpd
    refine ⟨_, State.issue_of hu _, (State.result_p_wrote hu _ hpd _).congr fun c hc => ?_⟩
    rw [typeRegs_bits ht, lanesOf_agree]; rfl
  case mask =>
    intro f s u hu
    refine ⟨_, State.issue_of hu _, (State.result_word_wrote hu _ _ _).congr fun c hc => laneVal_congr (fun l _ => ?_) hc⟩
    rw [Issuer.voters_eq_votes, maskOf_votes]; rfl
  case rank =>
    intro f s u hu
    have word : ∀ l, BitVec.ofNat 64 ((u.voters s.turn (partOf s u f.toCommon) f.a.toNat).filter (· < l)).length =
        (BitVec.ofNat 32 ((votes s u (partOf s u f.toCommon) f.a.toNat 32).filter (· < l)).length).setWidth 64 := fun l => by
      rw [Issuer.voters_eq_votes, BitVec.setWidth_ofNat_of_le_of_lt (by decide) (votes_filter_length_lt s u _ _ l)]
    refine ⟨_, (State.issue_of hu _).trans (congrArg _ (congrArg (s.result u) (List.map_congr_left fun l _ => congrArg _ (word l)))), ?_⟩
    refine (State.result_word_wrote hu _ _ _).congr fun c hc => laneVal_congr (fun l hl => ?_) hc
    rw [BitVec.toNat_ofNat, Nat.mod_eq_of_lt (votes_filter_length_lt s u _ _ l), votes_filter_lt s u _ _ hl]
  case rdlane =>
    intro f s u hu
    refine ⟨_, State.issue_of hu _, ?_⟩
    have lane : u.uniform s.turn 2 1 f.u.toNat % 32 = ((u.g.rdS u.slot s.turn 2 f.u.toNat).setWidth 5).toNat := by
      rw [Issuer.uniform, if_pos rfl, BitVec.toNat_setWidth]
      exact Nat.mod_mod_of_dvd _ (by decide)
    rw [← lane]
    exact State.write_lanes_preds_wrote hu _ _ _ _ _ _
  case shfl =>
    intro kind f s u hu hw
    refine ⟨_, (exec_shfl kind f s).trans (State.issue_of hu _), ?_⟩
    simp only [← Issuer.shflLane_eq u s.turn f hw kind]
    exact State.write_lanes_preds_wrote hu _ _ _ _ _ _

end Sys2Proof.Machine
end

section
/-! What an instruction that checks a target (R82) does once it has landed; CALL, RET and LOOPS (R83, R85). -/
namespace Sys2Proof.Machine
open Sys2Proof Sys2Proof.Claims

/-! ## A slot and registers of the issuing group -/

/-- The issuing slot replaced in a group of which only registers changed: the registers are that group's, and nothing else changed. -/
theorem State.setGroup_registers {s : State} {u : Issuer} {h : Group} (hu : s.issuer? = some u) (rest : h.registersOf u.g = u.g) (y : Slot) :
    GroupOnly s (s.setGroup (h.setSlot u.name y)) u.g.id ∧ ∃ k, (s.setGroup (h.setSlot u.name y)).group? u.g.id = some k ∧
      RegistersOnly u.g k u.name ∧ k.slot u.name = y ∧ ∀ c, k.peek c = h.peek c := by
  have id : h.id = u.g.id := (congrArg Group.id rest : (h.registersOf u.g).id = u.g.id)
  have slots : ∀ n, h.slot n = u.g.slot n := by
    intro n
    cases n
    · exact (congrArg Group.a rest : (h.registersOf u.g).a = u.g.a)
    · exact (congrArg Group.b rest : (h.registersOf u.g).b = u.g.b)
  have frame : ((h.setSlot u.name y).registersOf u.g).slotsOf u.g = (h.registersOf u.g).slotsOf u.g := by cases u.name <;> rfl
  obtain ⟨only, found⟩ := State.setGroup_becomes hu ((Group.setSlot_id h u.name y).trans id)
  exact ⟨only, _, found, ⟨by rw [frame, rest]; rfl, by rw [Group.setSlot_other, slots]⟩, Group.setSlot_slot .., fun c => Group.setSlot_peek ..⟩

/-- The slot that goes to its next instruction in an unchanged group. -/
theorem State.advance_becomes {s : State} {u : Issuer} (hu : s.issuer? = some u) :
    Becomes s (s.advance u.g u.name) u (u.g.setSlot u.name u.slot.advance) := State.setGroup_becomes hu (Group.setSlot_id ..)

/-! ## After a target's line is fetched -/

theorem LookOnly.issuer? {s t : State} (h : LookOnly s t) : t.issuer? = s.issuer? := by
  have issuer : t.issuer = s.issuer := (congrArg State.issuer h.rest : (t.lookOf s).issuer = _)
  rw [State.issuer?, State.issuer?, issuer]
  simp only [State.group?, h.groups]

theorem LookOnly.launch {s t : State} (h : LookOnly s t) (g : Group) : t.launch g = s.launch g := by
  simp only [State.launch, State.launchOf, State.gridOf, State.block?, State.grid?, h.blocks, h.grids]

/-- A target that lands leaves everything but memory, lines and cached entries. -/
theorem look_of_lands {s s' : State} {u : Issuer} {pc : Int} (h : lands s u pc s') : LookOnly s s' := .of_pair h (s.checkTarget_look u.g pc)

theorem issuer?_of_lands {s s' : State} {u : Issuer} {pc : Int} (h : lands s u pc s') (hu : s.issuer? = some u) : s'.issuer? = some u :=
  (look_of_lands h).issuer?.trans hu

theorem mayTrap_of_lands {s s' : State} {u : Issuer} {pc : Int} (h : lands s u pc s') (hm : mayTrap s u) : mayTrap s' u := by
  rwa [mayTrap, (look_of_lands h).launch]

/-- Where the target lands, the instruction goes on in the state after the fetch. -/
theorem checked_of_lands {s s' : State} {u : Issuer} {pc : Int} (h : lands s u pc s') (k : State → State) :
    (s.checkTarget u.g pc).1.checked u (s.checkTarget u.g pc).2 k = k s' := by
  rw [show s.checkTarget u.g pc = (s', .ok) from h]; rfl

theorem pcOf_eq (v : Int) : pcOf v = BitVec.ofInt 40 v := ofNat_modBits 40 v

/-! ## CALL, RET and LOOPS -/

section
variable {s s' : State} {u : Issuer} (hu : s.issuer? = some u) (f : BF)
include hu

theorem exec_call (land : lands s u (away u.slot f.off) s') : exec (.call f) s = .next (if 32 ≤ u.slot.rets.length then s'.raise u causeCallDepth 0
    else s'.setGroup (u.g.setSlot u.name { u.slot.jump (BitVec.ofInt 40 (away u.slot f.off)) with rets := (u.slot.pc + 1) :: u.slot.rets })) := by
  rw [← pcOf_eq]
  exact (State.issue_of hu _).trans (congrArg _ (checked_of_lands land _))

theorem exec_ret_nil (empty : u.slot.rets = []) : exec (.ret f) s = .next (s.raise u causeCallDepth 1) := by
  refine (State.issue_of hu _).trans (congrArg _ ?_)
  dsimp only
  rw [empty]

theorem exec_ret_cons {pc : Pc} {rest : List Pc} (stack : u.slot.rets = pc :: rest) (land : lands s u pc.toNat s') :
    exec (.ret f) s = .next (s'.setGroup (u.g.setSlot u.name { u.slot.jump pc with rets := rest })) := by
  refine (State.issue_of hu _).trans (congrArg _ ?_)
  dsimp only
  rw [stack]
  exact checked_of_lands land _

/-- LOOPS with a count of zero goes on (R83). -/
theorem exec_loops_zero (count : u.g.rdS u.slot s.turn 0 f.a.toNat = 0) : exec (.loops f) s = .next (s.advance u.g u.name) :=
  (State.issue_of hu _).trans (congrArg _ (if_pos count))

/-- LOOPS with a count of one takes it to zero and goes on. -/
theorem exec_loops_one (count : u.g.rdS u.slot s.turn 0 f.a.toNat = 1) :
    exec (.loops f) s = .next (s.result u [(.s (sName u.slot f.a.toNat), 0)]) := by
  refine (State.issue_of hu _).trans (congrArg _ ?_)
  dsimp only
  rw [count]
  rfl

/-- LOOPS with a greater count goes back, the count one less. -/
theorem exec_loops_back (count : 1 < u.g.rdS u.slot s.turn 0 f.a.toNat) (land : lands s u (away u.slot f.off) s') : exec (.loops f) s =
    .next (s'.jumpTo u (u.g.write s.turn u.slot.mask (.s (sName u.slot f.a.toNat)) (u.g.rdS u.slot s.turn 0 f.a.toNat - 1))
      (BitVec.ofInt 40 (away u.slot f.off))) := by
  refine (State.issue_of hu _).trans (congrArg _ ?_)
  have other : ∀ n : DWord, n ≤ 1 → u.g.rdS u.slot s.turn 0 f.a.toNat ≠ n := fun n small e => BitVec.not_lt.mpr small (e ▸ count)
  dsimp only
  rw [← pcOf_eq, if_neg (other 0 (by decide)), if_neg (other 1 (by decide))]
  exact checked_of_lands land _

end

/-- Settles O13: the outcomes of each instruction, in the state that the fetch of the target's line leaves. -/
theorem callsAndLoops : Obligations.CallsAndLoops := by
  unfold Obligations.CallsAndLoops
  refine ⟨?call, ?ret, ?loops⟩
  case call =>
    intro f s u hu x pc s' land
    have hu' := issuer?_of_lands land hu
    refine ⟨fun room => ⟨_, exec_call hu f land, ?_⟩, fun full hm => ⟨_, exec_call hu f land, ?_⟩⟩
    · rw [if_neg (Nat.not_le.mpr room)]
      exact State.setGroup_becomes hu' (Group.setSlot_id ..)
    · rw [if_pos full]
      exact State.trap_entry hu' (mayTrap_of_lands land hm) 12 0 u.slot.mask 0
  case ret =>
    intro f s u hu x
    refine ⟨fun empty hm => raises_of_exec hu (exec_ret_nil hu f empty) hm, fun pc rest stack s' land => ⟨_, exec_ret_cons hu f stack land, ?_⟩⟩
    exact State.setGroup_becomes (issuer?_of_lands land hu) (Group.setSlot_id ..)
  case loops =>
    intro f s u hu x c n
    refine ⟨fun zero => ⟨_, exec_loops_zero hu f zero, State.advance_wrote hu⟩, fun one => ⟨_, exec_loops_one hu f one, State.result_s_wrote hu _ 0⟩,
      fun more s' land => ⟨_, exec_loops_back hu f more land, ?_⟩⟩
    obtain ⟨only, h, found, frame, slot, cells⟩ := State.setGroup_registers (issuer?_of_lands land hu)
      (Group.writeAll_rest s.turn x.mask [(c, n - 1)] u.g) (x.jump (BitVec.ofInt 40 (away x f.off)))
    refine ⟨only, h, found, frame, slot, fun c' valid => ?_⟩
    rw [cells, Group.peek_writeAll _ _ _ _ (single_good (c := c) trivial nofun) c' valid, lastOf_single]
    rfl

end Sys2Proof.Machine
end

section
/-! TRAP and BRK take the trap entry (R95, R96); ERET restores what the entry saved (R99). -/
namespace Sys2Proof.Machine
open Sys2Proof Sys2Proof.Claims

/-! ## TRAP and BRK -/

theorem exec_softTrap (brk : Bool) (f : EF) {s : State} {u : Issuer} (hu : s.issuer? = some u) :
    exec (if brk then Instr.brk f else Instr.trap f) s = .next (if partOf s u f.toCommon = 0 then s.advance u.g u.name
      else s.trap u.g u.name (if brk then 7 else 6) (f.imm.setWidth 64) (partOf s u f.toCommon) 0) := by
  cases brk <;> exact State.issue_of hu _

/-! ## ERET -/

/-- A Q register, its pending results dropped, as a return writes it (R99). -/
def Group.qWrite (q : Nat) (g : Group) (i : Nat) : Group :=
  { g.poke (.q i) (BitVec.ofNat 64 (bitsAt q i 1)) with stale := g.stale.filter (fun e => e.cell != .q i) }

theorem Group.qWrite_peek (q : Nat) (g : Group) (i : Nat) {c : Cell} (hc : c.valid) :
    (g.qWrite q i).peek c = if c = .q i then BitVec.ofNat 64 (bitsAt q i 1) else g.peek c := by
  have same : (g.qWrite q i).peek c = (g.poke (.q i) (BitVec.ofNat 64 (bitsAt q i 1))).peek c := by cases c <;> rfl
  have small : bitsAt q i 1 < 2 := Nat.mod_lt _ (by decide)
  have fits : Cell.fit (.q i) (BitVec.ofNat 64 (bitsAt q i 1)) = BitVec.ofNat 64 (bitsAt q i 1) := by
    apply BitVec.eq_of_toNat_eq
    simp only [Cell.fit, BitVec.toNat_setWidth, BitVec.toNat_ofNat]
    omega
  rw [same, Group.peek_poke g (c := .q i) trivial hc]
  dsimp only
  rw [fits]

theorem Group.foldl_qWrite (q : Nat) : ∀ (is : List Nat) (g : Group), (is.foldl (Group.qWrite q) g).registersOf g = g ∧
    (∀ i ∈ is, (is.foldl (Group.qWrite q) g).peek (.q i) = BitVec.ofNat 64 (bitsAt q i 1)) ∧
    ∀ c : Cell, c.valid → (∀ i ∈ is, c ≠ .q i) → (is.foldl (Group.qWrite q) g).peek c = g.peek c
  | [], _ => ⟨rfl, nofun, fun _ _ _ => rfl⟩
  | i :: rest, g => by
    obtain ⟨registers, named, others⟩ := Group.foldl_qWrite q rest (g.qWrite q i)
    refine ⟨Group.registersOf_trans registers rfl, fun j hj => ?_, fun c hc hne => ?_⟩
    · by_cases later : j ∈ rest
      · exact named j later
      · obtain rfl : j = i := by simpa [later] using hj
        rw [List.foldl_cons, others (.q j) trivial (by rintro k hk ⟨⟩; exact later hk), Group.qWrite_peek q g j (c := .q j) trivial, if_pos rfl]
    · rw [List.foldl_cons, others c hc fun k hk => hne k (List.mem_cons_of_mem _ hk), Group.qWrite_peek q g i hc, if_neg (hne i List.mem_cons_self)]

/-- The group with Q0 to Q3 as S185 of a trap bank holds them. -/
def Group.restoredQ (g : Group) : Group := (List.range 4).foldl (Group.qWrite (g.peek (.s (trapBank 5))).toNat) g

theorem Group.restoredQ_q (g : Group) {i : Nat} (hi : i < 4) : g.restoredQ.peek (.q i) = if (g.peek (.s 197)).getLsbD i then 1 else 0 := by
  refine ((Group.foldl_qWrite _ _ g).2.1 i (List.mem_range.mpr hi)).trans ?_
  show BitVec.ofNat 64 ((g.peek (.s 197)).toNat / 2 ^ i % 2) = _
  rw [BitVec.getLsbD, Nat.testBit_eq_decide_div_mod_eq]
  rcases Nat.mod_two_eq_zero_or_one ((g.peek (.s 197)).toNat / 2 ^ i) with bit | bit <;> simp [bit]

theorem Group.restoredQ_other (g : Group) {c : Cell} (hc : c.valid) (hne : ∀ i, i < 4 → c ≠ .q i) : g.restoredQ.peek c = g.peek c :=
  (Group.foldl_qWrite _ _ g).2.2 c hc fun i hi => hne i (List.mem_range.mp hi)

theorem Group.eret_eq (g : Group) (n : SlotName) (m : TrapMode) : g.eret n m = g.restoredQ.setSlot n { g.slot n with
    trap := none, mask := m.mask, rets := (g.slot n).rets.drop ((g.slot n).rets.length - m.rets)
    spill := (g.slot n).spill.drop ((g.slot n).spill.length - m.spills)
    fmt := (g.peek (.s 196)).setWidth 32, pc := (g.peek (.s 192)).setWidth 40, check := false, wait := none } := by
  rw [← g.restoredQ_other (c := .s 196) trivial nofun, ← g.restoredQ_other (c := .s 192) trivial nofun]
  rfl

section
variable {s : State} {u : Issuer} (hu : s.issuer? = some u) (f : EF)
include hu

theorem exec_eret_outside (out : u.slot.trap = none) : exec (.eret f) s = .next (s.raise u causeUndef 0) := by
  refine (State.issue_of hu _).trans (congrArg _ ?_)
  dsimp only
  rw [out]

/-- A return to the PC written at entry or the next one checks no target (R99). -/
theorem exec_eret_back {m : TrapMode} (mode : u.slot.trap = some m)
    (back : (u.g.peek (.s 192)).setWidth 40 = m.pc ∨ (u.g.peek (.s 192)).setWidth 40 = m.pc + 1) :
    exec (.eret f) s = .next (s.setGroup (u.g.eret u.name m)) := by
  refine (State.issue_of hu _).trans (congrArg _ ?_)
  dsimp only
  rw [mode]
  exact if_pos back

end

/-- Settles O15: the trap entry of R96, and what ERET puts back; FMT takes the word of S184 unchecked, and the PC the low 40 bits of S180
(assumption 22). -/
theorem trapsAndReturns : Obligations.TrapsAndReturns := by
  unfold Obligations.TrapsAndReturns
  refine ⟨?traps, ?returns⟩
  case traps =>
    intro f brk s u hu i part
    refine ⟨fun nobody => ⟨_, exec_softTrap brk f hu, ?_⟩, fun taken hm => ⟨_, exec_softTrap brk f hu, ?_⟩⟩
    · rw [if_pos nobody]; exact State.advance_becomes hu
    · rw [if_neg taken]; exact State.trap_entry hu hm _ _ _ _
  case returns =>
    intro f s u hu x pc
    refine ⟨fun out hm => raises_of_exec hu (exec_eret_outside hu f out) hm, fun m mode back => ⟨_, exec_eret_back hu f mode back, ?_⟩⟩
    rw [Group.eret_eq]
    obtain ⟨only, h, found, frame, slot, cells⟩ := State.setGroup_registers hu (h := u.g.restoredQ) (Group.foldl_qWrite _ _ u.g).1 _
    exact ⟨only, h, found, frame, slot, fun i hi => (cells _).trans (u.g.restoredQ_q hi), fun c valid other => (cells c).trans (u.g.restoredQ_other valid other)⟩

end Sys2Proof.Machine
end

section
/-! The ends of lanes and of groups (R88, R89, R100): what EXIT, KILL and a trap that cannot be taken leave of the group. -/
namespace Sys2Proof.Machine
open Sys2Proof Sys2Proof.Claims

/-! ## What a retirement settles leaves the groups standing -/

theorem State.setBarrier_standing (s : State) (b : Barrier) : Standing s (s.setBarrier b) := .of_eq rfl (.of_eq rfl) rfl

theorem State.settleBarriers_standing (s : State) : Standing s s.settleBarriers :=
  Standing.foldl (fun s _ => .ite (s.setBarrier_standing _) (s.setBarrier_standing _)) s _

theorem State.setMGroup_stand (s : State) (m : MGroup) : UnitsStand s (s.setMGroup m) := .casts s _ _ _ _ _

theorem State.mcLeave_stand (s : State) (g : Group) (n : Nat) : UnitsStand s (s.mcLeave g n) := by
  unfold State.mcLeave
  split
  · exact .refl s
  · next m _ =>
    split
    · exact .refl s
    · next x _ =>
      extract_lets m' s1
      have left : UnitsStand s s1 := ((s.setMGroup_stand m').trans (State.withdraw_stand _ _ _ _ _ _ _)).trans (State.settleHelds_stand _)
      refine UnitsStand.trans ?_ (State.settleHelds_stand _)
      split
      · exact left.trans (State.setMGroup_stand _ _)
      · exact left

theorem State.mcLeaveAll_stand (s : State) (g : Group) : UnitsStand s (s.mcLeaveAll g) := UnitsStand.foldl (fun s n => s.mcLeave_stand g n) s _

theorem State.releaseArrays_standing (s : State) (g : Group) : Standing s (s.releaseArrays g) := by
  have freed : ∀ s c, Standing s (if s.owns g c then s.setMatrix c (s.matrix c).freed else s) := fun s c =>
    .ite (s.setMatrix_standing _ _) (.refl s)
  exact ((freed s _).trans (freed _ _)).trans (State.grantArrays_standing _ _)

theorem State.releaseRetired_standing (s : State) (g : Group) : Standing s (s.releaseRetired g) := .ite (.refl s) (s.releaseArrays_standing g)

theorem State.engineRead_look (s : State) (cid core die : Nat) (k : DWord) (off n : Nat) : LookOnly s (s.engineRead cid core die k off n).1 := by
  have h := s.resolve_look cid core die k off rightR
  unfold State.engineRead
  split
  · next e => exact (LookOnly.of_pair e h).trans (State.readClosing_look _ _ n)
  · next e => exact LookOnly.of_pair e h
  · next e => exact LookOnly.of_pair e h

theorem State.readRecords_look (cid core die : Nat) : ∀ (xs : List Slice) (s : State), LookOnly s (s.readRecords cid core die xs).1
  | [], s => .refl s
  | x :: rest, s => by
    have h := s.engineRead_look cid core die x.k (bitsAt (x.regs.getD 1 0).toNat 0 48) 64
    have later := State.readRecords_look cid core die rest
    unfold State.readRecords
    dsimp only
    refine LookOnly.trans (LookOnly.ite (.refl s) ?_) (later _)
    split
    · next e => exact LookOnly.of_pair e h
    · next e => exact LookOnly.of_pair e h

theorem State.startCopies_standing (s : State) (block : Nat) : Standing s (s.startCopies block) := by
  unfold State.startCopies
  dsimp only
  refine Standing.foldl (fun s r => ?_) s _
  exact (Standing.of_units (.of_look (State.readRecords_look _ _ _ _ s))).trans (.of_eq rfl (.of_eq rfl) rfl)

/-! ## Retirement -/

/-- A group that has ended: retired, both slots free (R88). -/
def Group.ended (g : Group) : Prop := g.life = .retired ∧ g.a.st = .free ∧ g.b.st = .free

theorem State.retire_ended {s : State} {g x : Group} (listed : s.group? g.id = some x) : ∃ h, (s.retire g).group? g.id = some h ∧ h.ended := by
  unfold State.retire
  extract_lets base empty g' put s1 s2 s3 s4
  have start : s2.group? g.id = some g' := by
    show (s.setGroup g').group? g.id = _
    rw [State.group?_setGroup, if_pos (show g.id = g'.id from rfl), listed]; rfl
  have settled : Standing s2 s4 := (((s2.settleBarriers_standing.trans (.of_units (State.mcLeaveAll_stand _ g'))).trans
    (State.leaveFifo_standing _ g')).trans (State.releaseRetired_standing _ g')).trans (State.startCopies_standing _ g'.block)
  obtain ⟨h, found, same⟩ : ∃ h, s4.group? g.id = some h ∧ h.bare = g'.bare := by
    simpa only [start, Option.map_some, Option.map_eq_some_iff] using settled.group? g.id
  have ended : h.ended :=
    ⟨Group.life_of_bare same, congrArg Slot.st (Group.slot_of_bare same .a), congrArg Slot.st (Group.slot_of_bare same .b)⟩
  clear_value s4
  refine ⟨h, ?_, ended⟩
  split
  · split <;> exact found
  · exact found

/-! ## A trap that cannot be taken -/

theorem State.interrupt_groups (s : State) (src detail : Nat) : (s.interrupt src detail).groups = s.groups := rfl

theorem State.sendRecord_groups (s : State) (q : Nat) (count : DWord) (words : List Nat) : (s.sendRecord q count words).1.groups = s.groups := by
  unfold State.sendRecord
  dsimp only
  split
  · exact State.setReg_groups _ _ _
  · dsimp only
    split
    · exact (State.interrupt_groups _ _ _).trans (State.setReg_groups _ _ _)
    · exact State.setReg_groups _ _ _

theorem State.setGrid_group? (s : State) (x : Grid) (i : Nat) : (s.setGrid x).group? i = s.group? i := rfl

theorem State.endGroup_ended {s : State} {g : Group} (listed : s.group? g.id = some g) (cause handled : Nat) (pc : Pc) (efault : DWord) :
    ∃ h, (s.endGroup g cause handled pc efault).group? g.id = some h ∧ h.ended := by
  have noted : (s.groupRecord g cause handled pc efault).group? g.id = some g := by
    rw [State.group?, State.groupRecord, State.sendRecord_groups]; exact listed
  obtain ⟨h, found, ended⟩ := State.retire_ended noted
  refine ⟨h, ?_, ended⟩
  unfold State.endGroup
  dsimp only
  split
  · rw [State.setGrid_group?]; exact found
  · exact found

theorem State.trap_ended {s : State} {u : Issuer} (hu : s.issuer? = some u) (cannot : u.slot.trap ≠ none ∨ (s.launch u.g).trapPc = 0xFFFFFFFFFF)
    (cause : Nat) (efault : DWord) (lanes : Mask) (tag : DWord) :
    ∃ h, (s.trap u.g u.name cause efault lanes tag).group? u.g.id = some h ∧ h.ended := by
  have listed := State.issuer?_group hu
  unfold State.trap
  dsimp only
  split
  · exact State.endGroup_ended listed _ _ _ _
  · next out =>
    rw [if_pos (cannot.resolve_left (fun mode => mode out))]
    exact State.endGroup_ended listed _ _ _ _

/-! ## EXIT -/

theorem exec_exit (f : EF) {s : State} {u : Issuer} (hu : s.issuer? = some u) : exec (.exit f) s =
    .next ((s.setGroup (u.g.setSlot u.name { u.slot.advance with mask := u.slot.mask &&& ~~~partOf s u f.toCommon })).settleSlots u.g.id) :=
  State.issue_of hu _

/-- Slots that meet no join and hold lanes stay as they are. -/
theorem State.settleSlots_of_quiet {s : State} {i : Nat} {g : Group} (hg : s.group? i = some g) (calm : quiet g) : s.settleSlots i = s := by
  rw [State.settleSlots, State.settleSlot_of_not_arriving hg (n := .a) calm.1, State.settleSlot_of_not_arriving hg (n := .b) calm.2]

theorem Slot.arriving_of_not_run {x : Slot} (h : x.st ≠ .run) : x.arriving = false := by
  simp [Slot.arriving, h]

theorem Group.ended.quiet {g : Group} (h : g.ended) : Claims.quiet g := by
  obtain ⟨-, a, b⟩ := h
  exact ⟨Slot.arriving_of_not_run (by simp [a]), Slot.arriving_of_not_run (by simp [b])⟩

/-- A slot without lanes, a spill entry or a join, the other slot free: its group ends (R86, R88). -/
theorem State.arrive_ended {s : State} {g : Group} {n : SlotName} (listed : s.group? g.id = some g) (spill : (g.slot n).spill = [])
    (join : (g.slot n).pj = none) (free : (g.slot n.other).st = .free) : ∃ h, (s.arrive g n).group? g.id = some h ∧ h.ended := by
  unfold State.arrive
  dsimp only
  rw [spill, join]
  dsimp only
  rw [if_pos free]
  have ended := State.retire_ended (s := s) (g := g.setSlot n { Slot.empty with age := (g.slot n).age }) (by rw [Group.setSlot_id]; exact listed)
  rwa [Group.setSlot_id] at ended

/-- Settling a slot that runs without lanes, with no spill entry and no join, in a group whose other slot is free. -/
theorem State.settleSlots_ended {s : State} {g : Group} {n : SlotName} (listed : s.group? g.id = some g) (arrives : (g.slot n).arriving = true)
    (spill : (g.slot n).spill = []) (join : (g.slot n).pj = none) (free : (g.slot n.other).st = .free) :
    ∃ h, (s.settleSlots g.id).group? g.id = some h ∧ h.ended := by
  obtain ⟨h, found, ended⟩ := State.arrive_ended listed spill join free
  have settled : ∀ fuel, s.settleSlot g.id n (fuel + 1) = (s.arrive g n).settleSlot g.id n fuel := fun fuel => by
    rw [State.settleSlot, listed]; exact if_pos arrives
  have stays : ∀ m fuel, (s.arrive g n).settleSlot g.id m fuel = s.arrive g n := fun m =>
    State.settleSlot_of_not_arriving found (by
      cases m with
      | a => exact ended.quiet.1
      | b => exact ended.quiet.2)
  refine ⟨h, ?_, ended⟩
  cases n with
  | a => rw [State.settleSlots, settled, stays, stays]; exact found
  | b =>
    have still : s.settleSlot g.id .a 260 = s := State.settleSlot_of_not_arriving listed (n := .a)
      (Slot.arriving_of_not_run (by rw [show (g.slot .a).st = .free from free]; decide)) 260
    rw [State.settleSlots, still, settled, stays]; exact found

/-- Settles O16: slots that meet no join stay as EXIT leaves them; every other end goes through the retirement of the group. -/
theorem groupEnds : Obligations.GroupEnds := by
  unfold Obligations.GroupEnds
  refine ⟨?exit, ?last, ?kill, ?trap⟩
  case exit =>
    intro f s u hu h calm
    refine ⟨_, exec_exit f hu, ?_⟩
    have left : Becomes s (s.setGroup h) u h := State.setGroup_becomes hu (Group.setSlot_id ..)
    rw [State.settleSlots_of_quiet left.2 calm]
    exact left
  case last =>
    intro f s u hu lanesOut run still spill join free
    have left := State.setGroup_becomes hu (Group.setSlot_id u.g u.name { u.slot.advance with mask := u.slot.mask &&& ~~~partOf s u f.toCommon })
    have arrives : Slot.arriving { u.slot.advance with mask := u.slot.mask &&& ~~~partOf s u f.toCommon } = true := by
      simp [Slot.arriving, Slot.advance, lanesOut, run, still]
    obtain ⟨h, found, ended⟩ := State.settleSlots_ended (n := u.name) (by rw [Group.setSlot_id]; exact left.2) (by rw [Group.setSlot_slot]; exact arrives)
      (by rw [Group.setSlot_slot]; exact spill) (by rw [Group.setSlot_slot]; exact join) (by rw [Group.setSlot_other]; exact free)
    rw [Group.setSlot_id] at found
    exact ⟨_, h, exec_exit f hu, found, ended⟩
  case kill =>
    intro f s u hu
    obtain ⟨h, found, ended⟩ := State.retire_ended (State.issuer?_group hu)
    exact ⟨_, h, State.issue_of hu _, found, ended⟩
  case trap =>
    intro f s u hu taken cannot
    obtain ⟨h, found, ended⟩ := State.trap_ended hu cannot causeTrap (f.imm.setWidth 64) (partOf s u f.toCommon) 0
    exact ⟨_, h, (State.issue_of hu _).trans (congrArg _ (if_neg taken)), found, ended⟩

end Sys2Proof.Machine
end
